-- ==== Sys2Proof/Word.lean ====
section
/-! DEFINITION. The word types of the part: bytes, the 224-bit row of an engine (chapter 06), the 28-bit
scalar, and the sparse tables (`KMap`) that hold every numbered piece of state. -/

namespace Sys2Proof

/-- One byte of a buffer, a material or a register. -/
abbrev Byte := BitVec 8

/-- A byte string: a buffer, key material, a message. -/
abbrev Bytes := List Byte

/-- An engine row: 224 data bits, 16 lanes of 14 bits (06, "Lanes, rows and arithmetic modes"). -/
abbrev Row := BitVec 224

/-- An Isagil scalar (R153). -/
abbrev Scalar := BitVec 28

/-- A sparse table: pairs of an index and a value, indices strictly rising, no entry equal to what an
unlisted index reads as. The default is an argument of the operations (Machine/Table.lean). -/
abbrev KMap (α : Type) := List (Nat × α)

end Sys2Proof
end

