-- ==== Sys2Proof/Machine/StBase.lean ====
section
/-! DEFINITION. What crosses the part's boundary: descriptors, scatter lists, commands as the gatehouse sees them
(03_gatehouse.md R73 to R82), and everything the part sends out (completions R85, output writes, tail records R64,
MSI-X messages R69, frames on the other ports, register read data). -/

namespace Sys2Proof.Machine

/-- A descriptor (R73). -/
structure Desc where
  opcode : Nat
  /-- FLAGS of R74, 8 bits -/
  flags : Nat
  /-- byte 3: PROFILE [1:0], RELEASE [3:2], reserved [7:4] -/
  cls : Nat
  tag : Nat
  keyA : Nat
  keyB : Nat
  select : Nat
  inLen : Nat
  inAddr : Nat
  outLen : Nat
  outAddr : Nat
  auxLen : Nat
  auxAddr : Nat
  authAddr : Nat
deriving DecidableEq, Repr

/-- A scatter-list entry (R80). The LEN of a chain entry says how many entries the next part holds. -/
structure SglEntry where
  addr : Nat
  len : Nat
  /-- CTRL: bit 0 CHAIN, bit 1 END -/
  ctrl : Nat
  reserved : Nat
deriving DecidableEq, Repr

/-- How the reads of a command's host data end (R56). -/
inductive DmaRead where
  /-- every read returns -/
  | good
  /-- a scatter-list read fails -/
  | sglFails
  /-- a payload read fails -/
  | payloadFails
  /-- a critical command's authority block or tokens cannot be read -/
  | authFails
deriving DecidableEq, Repr

/-- A command as it comes to the gatehouse: its function (0 the PF, n VF n) and queue, its descriptor, and the host
data that the part reads for it: scatter lists, input and auxiliary buffers, authority block and tokens. -/
structure Cmd where
  fn : Nat
  queue : Nat
  desc : Desc
  inSgl : List SglEntry
  outSgl : List SglEntry
  input : Bytes
  aux : Bytes
  auth : Bytes
  tokens : Bytes
  dma : DmaRead
  /-- the acceptance tick (R20): the gatehouse sets it, whatever a sent command holds -/
  entered : Nat := 0
  /-- EVENT_READ: the records, by SEQ, that its read of flash and ring finds unreadable (R467) -/
  badRecs : List Nat := []
deriving DecidableEq, Repr

/-- A completion (R85). `pair` is bytes 20–27: the compare pair or a unit bitmap (R86). -/
structure Completion where
  tag : Nat
  status : Nat
  detail : Nat
  written : Nat
  time : Nat
  pair : Nat
  unit : Nat
deriving DecidableEq, Repr

/-- The ports of the part other than the host port. -/
inductive PortId where
  | peerA | peerB | time | console | card0 | card1 | flash | tap | quenchOut | doe
deriving DecidableEq, Repr

/-- What leaves the part, in order. -/
inductive Output where
  /-- a completion entry on a queue of a function -/
  | completion (fn queue : Nat) (c : Completion)
  /-- output bytes of a command, by its tag, from an offset of its output buffer -/
  | data (fn queue tag offset : Nat) (bytes : Bytes)
  /-- the status record of a batch item (R81): index, status, detail, written, unit -/
  | itemStatus (fn queue tag index status detail written unit : Nat)
  /-- the per-unit summary of a spread batch (R347) -/
  | summary (fn queue tag : Nat) (bytes : Bytes)
  /-- the tail record of a queue: CQ_TAIL and SQ_HEAD (R64) -/
  | tailRecord (fn queue cqTail sqHead : Nat)
  /-- an MSI-X message: function and vector (R69) -/
  | msix (fn vector : Nat)
  /-- the data of a register read: BAR0 offset, value -/
  | readData (addr value : Nat)
  /-- bytes or a named event on another port -/
  | port (p : PortId) (bytes : Bytes)
  /-- CARDc_VCC_EN and CARDc_VSEL of a card interface (R108, R489) -/
  | cardPins (slot : Nat) (vccEn vsel : Bool)
  /-- the setpoint of VDD_CORE that the part sends over AVSBus, in millivolts (R482) -/
  | coreSetpoint (millivolts : Nat)
deriving DecidableEq, Repr

/-- The masters that read registers and hold a latch each (R507). -/
inductive Master where
  | pf | keeper | debug
deriving DecidableEq, Repr

/-- What a host access goes to: the registers of a function (its BAR0 or VF window), its MSI-X table and PBA (BAR2), or its
configuration space (R54, R58). -/
inductive HostSpace where
  | regs | msix | config
deriving DecidableEq, Repr

/-- Where an access goes: the space, and the byte offset in it. -/
structure HostAddr where
  space : HostSpace
  offset : Nat
deriving DecidableEq, Repr

/-- An SPDM or DOE Discovery request as the responder understands it (R62). -/
inductive DoeRequest where
  | discovery
  | version
  | capabilities
  | algorithms
  | digests
  | certificate (slot : Nat)
  | challenge (slot : Nat) (nonce : Bytes)
  /-- GET_MEASUREMENTS of one index, or of all with 0xFF -/
  | measurements (index : Nat) (nonce : Bytes)
  | keyExchange (share : Bytes)
  | endSession
  | heartbeat
  | keyUpdate
  /-- an object the responder does not support -/
  | other (object : Bytes)
deriving DecidableEq, Repr

/-- The abort events of R175 that end in a completion. -/
inductive AbortCause where
  | allotment | ladderEnd | quarantine | suspend | functionReset
deriving DecidableEq, Repr

/-- A hardware fault that strikes an engine during an instruction (R158, R174, R218, R220). -/
inductive HwEvent where
  | none | corrected | operandEcc | gadgetCheck
  /-- a failed port check; the core, within its pavilion, that the transfer had been granted -/
  | portIntegrity (core : Fin 4)
  /-- an abort event of R175 in the same cycle as a fault that the instruction raises -/
  | abort (cause : AbortCause)
deriving DecidableEq, Repr

/-- An Isagil instruction as a command: the engine and the word it fetched. -/
structure IsaX where
  e : Fin 272
  w : BitVec 32
  hw : HwEvent
deriving DecidableEq, Repr

end Sys2Proof.Machine
end

