-- ==== Sys2Proof/Machine/StCommand.lean ====
section
/-! DEFINITION. What the environment brings with an event row: the operand types of the event constructors. -/

namespace Sys2Proof.Machine

/-- What a read of the key store finds (R145, R147). -/
inductive StoreFinding where
  | clean | innerCorrected | outerCorrected | uncorrectable | tagMismatch
deriving DecidableEq, Repr

/-- What an access does (R388, R389). -/
inductive Access where
  | read | write | exec
deriving DecidableEq, Repr

/-- An access at an MPU, and the job that a DMA access moves data for (R391). -/
structure Attempt where
  kind : Access
  job : Option Nat
deriving DecidableEq, Repr

/-- An edge of PPS_IN: its direction, and whether the level before it and the level after it last long enough (R31). -/
structure PulseEdge where
  rising : Bool
  long : Bool
deriving DecidableEq, Repr

/-- The tenant of a share of a spread batch, and the tick of the batch's acceptance (R345). -/
structure SpreadHead where
  tenant : Nat
  accepted : Nat
deriving DecidableEq, Repr

/-- What the boot ROM finds in the battery-backed RAM at power-up (R412). -/
inductive PeatFinding where
  | intact | lostSupply | badWord
deriving DecidableEq, Repr

/-- What the boot ROM reads from the flash (R441, R442, R446): the size in MiB of the SFDP table, if it can be read;
whether a directory copy, the images of slots A and B, and a keeper copy verify. -/
structure FlashRead where
  mib : Option Nat
  dirOk : Bool
  slotA : Bool
  slotB : Bool
  keeperOk : Bool
deriving DecidableEq, Repr

/-- A frame at a peer port (R325, R326): the port (B when set), the bytes after the EtherType as the port's MACsec leaves them,
the epoch and rotation of the association that it came under and whose tag it passed, if any, and whether both attestation
signatures of a signed type verify. -/
structure FrameIn where
  portB : Bool
  bytes : Bytes
  assoc : Option (Nat × Nat)
  signed : Bool
deriving DecidableEq, Repr

/-- How a cipher piece ends (R218, R258). -/
inductive PieceEnd where
  | good
  /-- the two comparators disagree -/
  | pairFault
  /-- the tag of a wrapped context does not match at its restore -/
  | wrapFail
deriving DecidableEq, Repr

/-- How a big-number operation ends (R290, R291). -/
inductive BneEnd where
  | good
  /-- a check of the computation fails -/
  | invariant
  /-- the two results of a dual job differ -/
  | dualMismatch
deriving DecidableEq, Repr

end Sys2Proof.Machine
end

