-- ==== Sys2Proof/Machine/StKey.lean ====
section
/-! DEFINITION. The state of the key store (05_key_store.md R116 to R150) and of command authority
(04_command_authority.md R94 to R115). -/

namespace Sys2Proof.Machine

/-- The fields of an attribute block (R123). -/
structure Attr where
  usage : Nat
  alg : Nat
  flags : Nat
  floor : Nat
  origin : Nat
  root : Nat
  tenant : Nat
  len : Nat
  units : Nat
  cls : Nat
  meter : Nat
  meterKind : Nat
  notBefore : Nat
  notAfter : Nat
  limit : Nat
  handle : Nat
  kcv : Nat
  openFloor : Nat
  created : Nat
  label : Nat
deriving DecidableEq, Repr

/-- The states of a run (R121); FREE runs are not listed. -/
inductive ObjState where
  | reserved | active | damaged | draining
deriving DecidableEq, Repr

/-- A key object, listed under its base unit (R117, R118). -/
structure Obj where
  st : ObjState
  gen : Nat
  attr : Attr
  material : Bytes
  tag : Bytes
  /-- accepted jobs that have not yet loaded the object (R20, R121) -/
  waiting : Nat
  /-- the park transaction that holds a RESERVED run -/
  txn : Nat
deriving DecidableEq, Repr

/-- The key store. -/
structure Kst where
  objs : KMap Obj
  /-- generation counters of the units (R118) -/
  gens : KMap Nat
  ready : Bool
  reverify : Bool
  /-- KST_CTRL: SCRUB_EN, SCRUB_PERIOD -/
  scrubEn : Bool
  scrubPeriod : Nat
  scrubPos : Nat
  /-- local tick from which the scrub pace counts, and units visited since -/
  scrubBase : Nat
  scrubDone : Nat
  intStatus : Nat
  intEnable : Nat
  lowMark : Nat
  damagedLast : Nat
  scrubPass : Nat
  innerCorr : Nat
  outerCorr : Nat
  uncorr : Nat
  tagFail : Nat
  reverifyObj : Nat
  reverifyFail : Nat
  meterAdv : Nat
  exhausted : Nat
  otsStall : Nat
  created : Nat
  deleted : Nat
  loaded : Nat
  blobReject : Nat
  bneDeliver : Nat
  zeroRedraw : Nat
  returnRefused : Nat
  pathDeliver : KMap Nat
  /-- a system object (units 0–255) is DAMAGED: a key store fault (R147) -/
  systemFault : Bool
  /-- meter-path budget: advances in the current second in all and by meter (R136) -/
  otsSecond : Nat
  otsAll : Nat
  otsMeter : KMap Nat
deriving DecidableEq, Repr

/-- The key store after reset (R148, R150): zeroed, READY 0 until the start ends. -/
def kstReset : Kst :=
  { objs := [], gens := [], ready := false, reverify := false, scrubEn := true, scrubPeriod := 2, scrubPos := 0,
    scrubBase := 0, scrubDone := 0, intStatus := 0, intEnable := 0, lowMark := 0x800, damagedLast := 0, scrubPass := 0,
    innerCorr := 0, outerCorr := 0, uncorr := 0, tagFail := 0, reverifyObj := 0, reverifyFail := 0, meterAdv := 0,
    exhausted := 0, otsStall := 0, created := 0, deleted := 0, loaded := 0, blobReject := 0, bneDeliver := 0,
    zeroRedraw := 0, returnRefused := 0, pathDeliver := [], systemFault := false, otsSecond := 0, otsAll := 0,
    otsMeter := [] }

/-- A custodian record (R99). -/
structure Custodian where
  roles : Nat
  isScoped : Bool
  scope : Nat
  notAfter : Nat
  name : Bytes
  sigEc : Bytes
  sigMl : Bytes
  kemPk : Bytes
deriving DecidableEq, Repr

/-- The authority policy (R105). -/
structure Policy where
  consoleWait : Nat
  tokenSpan : Nat
  entries : List (Nat × Nat)
deriving DecidableEq, Repr

def policyDefault : Policy := { consoleWait := 60, tokenSpan := 86400, entries := [] }

/-- What a card in a slot has been asked for (R111, R112). -/
inductive CardStep where
  | none | identify | pin | verify | confirm | component | showKcv | approve | enrolReady | install | startIdent | tag | done
  | ignored
deriving DecidableEq, Repr

/-- The class of ISO/IEC 7816-3 at which a card answers: C, else B, else at neither (R108). -/
inductive CardClass where
  | c | b | neither
deriving DecidableEq, Repr

/-- What a card's answer to reset says: its supply class, and whether it offers T=1 (R108, R489). -/
structure CardAtr where
  cls : CardClass
  t1 : Bool
deriving DecidableEq, Repr

/-- A card interface (R108, R112). -/
structure Card where
  present : Bool
  /-- CARDc_VCC_EN: the card is supplied; a deactivated card is not (R108) -/
  vccEn : Bool
  /-- the class selected (R108): it drives CARDc_VSEL while the card is supplied (R489) -/
  cls : CardClass
  /-- order of detection -/
  order : Nat
  /-- the identity it answered: custodian index and SIG_PK_EC -/
  ident : Option (Nat × Bytes)
  pinOk : Bool
  step : CardStep
  /-- a component typed for this card, waiting for its confirmation -/
  comp : Bytes
deriving DecidableEq, Repr

def cardReset : Card := { present := false, vccEn := false, cls := .c, order := 0, ident := none, pinOk := false, step := .none, comp := [] }

/-- A console frame sent and not acknowledged (R109). -/
structure ConFrame where
  seq : Nat
  bytes : Bytes
  /-- resends so far and the local tick of the next -/
  resent : Nat
  due : Nat
deriving DecidableEq, Repr

/-- A critical command past check 5, waiting at check 6 (R98, R112). -/
structure Wait where
  cmd : Cmd
  /-- the command digest d (R97) -/
  digest : Bytes
  start : Nat
  finish : Nat
  required : Nat
  role : Nat
  /-- custodians counted; for the presence form, the SIG_PK_EC values counted -/
  counted : List Nat
  presence : Bool
  present : List Bytes
  /-- components entered, and refusals at the console (R114) -/
  comps : List Bytes
  refusals : Nat
  /-- the console has been present during the wait -/
  conSeen : Bool
  /-- the quorum is reached: an enrolment goes on to install the new custodian's card (R101) -/
  quorate : Bool
  /-- the slot of the new custodian's card, once its identity has matched the record -/
  enrolSlot : Option Nat
deriving DecidableEq, Repr

/-- The commissioning ceremony under way (R102). -/
structure Ceremony where
  /-- the custodian records, by slot -/
  recs : List Bytes
  /-- algorithm of the PF channel key -/
  alg : Nat
  /-- 1 PINs, 2 identities and installs, 3 components; and the slot in hand -/
  stage : Nat
  slot : Nat
  /-- channel keys installed so far, components entered so far, refusals at the console -/
  keys : List Bytes
  comps : List Bytes
  refusals : Nat
deriving DecidableEq, Repr

/-- Command authority. -/
structure Aut where
  /-- authority keys, by channel: 0 PF, n VF n, 1,024 + c custodian c (R94) -/
  chanKey : KMap Bytes
  custodians : KMap Custodian
  policy : Policy
  card0 : Card
  card1 : Card
  cardOrder : Nat
  consoleUp : Bool
  conSeq : Nat
  conOut : List ConFrame
  /-- bytes gathered by START segments (R113), and the command they gave while its tag is computed -/
  startBuf : Bytes
  startCmd : Option (Cmd × Nat)
  /-- console-started commands that wait for their tag, and the one that has it and waits for room in the mailbox (R26, R113) -/
  starts : List Cmd
  startReady : Option Cmd
  /-- the commissioning ceremony (R102) -/
  ceremony : Option Ceremony
  /-- the keeper mailbox: critical commands in order (R26) -/
  mailbox : List Cmd
  wait : Option Wait
  /-- a critical command whose change runs as a job, a park transaction or a wait of its own: nothing later starts
  (R26): function, queue, tag -/
  busy : Option Cmd
  /-- that command waits at check 9 for the kiln, since this tick (R18, R314) -/
  kilnWait : Option Nat
  /-- the tick at which check 6 of the command under way began (R98, R429) -/
  check6 : Nat
  conDiscard : Nat
  tokenReject : Nat
  authReject : Nat
deriving DecidableEq, Repr

/-- Command authority after reset (R115). -/
def autReset : Aut :=
  { chanKey := [], custodians := [], policy := policyDefault, card0 := cardReset, card1 := cardReset, cardOrder := 0,
    consoleUp := false, conSeq := 0, conOut := [], startBuf := [], startCmd := none, starts := [], startReady := none,
    ceremony := none, mailbox := [], wait := none,
    busy := none, kilnWait := none, check6 := 0, conDiscard := 0, tokenReject := 0, authReject := 0 }

end Sys2Proof.Machine
end

