-- ==== Sys2Proof/Machine/StSundial.lean ====
section
/-! DEFINITION. The state of the sundial: 02_sundial.md R31 to R53. -/

namespace Sys2Proof.Machine

/-- The sundial states (R35). -/
inductive SdlState where
  | untraceable | acquire | locked | holdover
deriving DecidableEq, Repr

/-- A schedule entry (R46). -/
structure SchedEntry where
  tick : Nat
  seq : Nat
  action : Nat
  parkWide : Bool
  armed : Bool
  tenant : Nat
  target : Nat
  param : Nat
  previous : Nat
deriving DecidableEq, Repr

/-- The sundial: time core, frame and edge judgement, schedule, registers of R53. -/
structure Sdl where
  /-- grid time: seconds [63:20], ticks [19:0] -/
  grid : Nat
  /-- the second grid counter of R40 -/
  grid2 : Nat
  state : SdlState
  everLocked : Bool
  refPresent : Bool
  reacq : Bool
  stepBack : Bool
  slewing : Bool
  coreFault : Bool
  qualCount : Nat
  /-- ticks still to add (positive) or to withhold (negative) by slewing or half rate (R37) -/
  offset : Int
  /-- the grid runs at half rate -/
  halfRate : Bool
  /-- local ticks since the last slew step -/
  slewCount : Nat
  /-- SDL_CTRL -/
  todTxEn : Bool
  refEn : Bool
  ppsPol : Bool
  intStatus : Nat
  intEnable : Nat
  utcOffset : Nat
  lastTod : Bytes
  /-- SECONDS of the last accepted frame and of the one before, TRACE and SEQ of the last -/
  lastSeconds : Nat
  prevSeconds : Nat
  lastTrace : Nat
  lastSeq : Nat
  /-- frames accepted in the second before the coming edge: this second's frame is in -/
  frameIn : Bool
  /-- consecutive frames with TRACE 1 or 2, and accepted frames that differ from the grid while agreeing -/
  badTrace : Nat
  disagree : Nat
  /-- local tick of the last accepted frame -/
  lastFrameTick : Nat
  /-- consecutive edges missing or outside the window in LOCKED -/
  missed : Nat
  /-- the last predicted edge was counted as missing -/
  missedLast : Bool
  /-- an edge ahead of the coming boundary has been rejected: should the predicted one not come, it is the same second's -/
  strayed : Bool
  /-- local tick of the last edge (qualifying or not), and grid time of the last qualifying edge -/
  lastEdge : Nat
  edge : Nat
  anyEdge : Bool
  /-- the predicted boundary of the next edge: a local tick in ACQUIRE, a grid time in LOCKED and HOLDOVER; the local tick
  of the last qualifying edge of ACQUIRE or of its start; the first second whose status frame is not yet sent -/
  nextEdge : Nat
  acqSince : Nat
  txSecond : Nat
  holdoverStart : Nat
  limitS : Nat
  /-- phase error at the last edge, and at the last qualifying edge (R53, R34) -/
  phaseErr : Int
  phaseQual : Int
  freqAdj : Int
  ppsCnt : Nat
  ppsReject : Nat
  todOk : Nat
  todDiscard : Nat
  overrun : Nat
  ladderAbort : Nat
  schedSel : Nat
  /-- the schedule, in SEQ order -/
  sched : List SchedEntry
  nextSeq : Nat
deriving DecidableEq, Repr

/-- The time core as a cold start begins it: UNTRACEABLE, grid at zero seconds (R40); registers of R53. -/
def sdlReset : Sdl :=
  { grid := 0, grid2 := 0, state := .untraceable, everLocked := false, refPresent := false,
    reacq := false, stepBack := false, slewing := false, coreFault := false, qualCount := 0, offset := 0,
    halfRate := false, slewCount := 0, todTxEn := false, refEn := true, ppsPol := false, intStatus := 0,
    intEnable := 0, utcOffset := 0, lastTod := [], lastSeconds := 0, prevSeconds := 0, lastTrace := 0, lastSeq := 0,
    frameIn := false, badTrace := 0, disagree := 0, lastFrameTick := 0, missed := 0, missedLast := false, strayed := false, lastEdge := 0, edge := 0,
    anyEdge := false, nextEdge := 0, acqSince := 0, txSecond := 0, holdoverStart := 0, limitS := 3600, phaseErr := 0, phaseQual := 0, freqAdj := 0, ppsCnt := 0, ppsReject := 0,
    todOk := 0, todDiscard := 0, overrun := 0, ladderAbort := 0, schedSel := 0, sched := [], nextSeq := 1 }

/-- A full reset clears the register interface and keeps the time core (R40, R53); the schedule and the holdover
limit are kept (R52). -/
def sdlFullReset (d : Sdl) : Sdl :=
  { d with sched := d.sched.filter (fun e => e.armed), todTxEn := false, refEn := true, ppsPol := false, intStatus := 0, intEnable := 0, ppsCnt := 0, ppsReject := 0,
           todOk := 0, todDiscard := 0, overrun := 0, ladderAbort := 0, schedSel := 0, lastTod := [], utcOffset := 0,
           phaseErr := 0, phaseQual := 0, edge := 0 }

/-- A restart of the time core (R40) keeps the schedule and the limit; so does a full reset. Entries held for a transaction go with it. -/
def sdlTimeRestart (d : Sdl) : Sdl :=
  { sdlReset with sched := d.sched.filter (fun e => e.armed), limitS := d.limitS, nextSeq := d.nextSeq }

end Sys2Proof.Machine
end

