-- ==== Sys2Proof/Machine/StPark.lean ====
section
/-! DEFINITION. The state of the park: 12_park.md R323 to R350. Bitmaps of units are numbers, bit u for unit u. -/

namespace Sys2Proof.Machine

/-- The park states (R327). -/
inductive ParkState where
  | alone | walking | assembled | formed | detached | resyncing
deriving DecidableEq, Repr

/-- An object as a park transaction or a snapshot carries it. -/
structure ParkObj where
  attr : Attr
  material : Bytes
  base : Nat
  gen : Nat
deriving DecidableEq, Repr

/-- What a park transaction changes (R336 to R343). -/
inductive ParkChange where
  | create (objs : List ParkObj)
  | delete (handle : Nat)
  | attrSet (handle : Nat) (block : Bytes)
  | meterSet (handle word limit : Nat)
  | sched (entries : List SchedEntry)
  | unsched (seqs : List Nat)
  | evict (unit : Nat) (rejoin : Bool)
  | joins (unit : Nat)
deriving DecidableEq, Repr

/-- A transaction identifier: the initiator's address and its authority counter (R338). -/
structure TxnId where
  unit : Nat
  counter : Nat
deriving DecidableEq, Repr

/-- A transaction that this unit initiated (R338). -/
structure Txn where
  id : TxnId
  cmd : Option Cmd
  change : ParkChange
  /-- roster units in FORMED that take part, and those not evicted that must answer for OK (R337, R339) -/
  members : Nat
  /-- the number of the attempt (from 0), and who has voted YES in it -/
  attempt : Nat
  yes : Nat
  /-- the first NO -/
  no : Option (Nat × Nat)
  /-- highest counter voted for each object -/
  gens : List Nat
  deadline : Nat
  /-- COMMIT sent at this tick first, and last -/
  commitFirst : Option Nat
  commitLast : Nat
  committed : Nat
  lost : Nat
  /-- COMPLETE sent with this activation tick -/
  activate : Option Nat
  /-- output of the command at its completion -/
  output : Bytes
deriving DecidableEq, Repr

/-- A transaction in which this unit takes part. -/
structure PartTxn where
  id : TxnId
  change : ParkChange
  deadline : Nat
  committed : Bool
  activate : Option Nat
  /-- the units that COMPLETE names as committed -/
  units : Nat
deriving DecidableEq, Repr

/-- A unicast frame held until it is acknowledged (R335). -/
structure HeldFrame where
  dst : Nat
  seq : Nat
  bytes : Bytes
deriving DecidableEq, Repr

/-- A peer port (R324, R332, R350). -/
structure PeerPort where
  linkUp : Bool
  fecLock : Bool
  /-- the neighbour's digest and address, from its HELLO -/
  neighbour : Option (Bytes × Nat)
  /-- rotation r, association r + 1 installed, a frame received under r + 1 since the last rotation -/
  rot : Nat
  nextInstalled : Bool
  /-- next packet number of the transmit association -/
  pn : Nat
  fecCorr : Nat
  held : List HeldFrame
  /-- new frames that wait while the hold is full -/
  waiting : List HeldFrame
deriving DecidableEq, Repr

def portReset : PeerPort :=
  { linkUp := false, fecLock := false, neighbour := none, rot := 0, nextInstalled := false, pn := 1, fecCorr := 0,
    held := [], waiting := [] }

/-- What this unit knows of a roster unit (R333, R334, R350). -/
structure Peer where
  /-- the last status word received; empty when never heard from -/
  status : Bytes
  /-- a lease is held, over port B's arc or port A's, renewed at this tick -/
  lease : Bool
  arcB : Bool
  renewed : Nat
  /-- tick of the last heartbeat over each arc -/
  heardA : Option Nat
  heardB : Option Nat
  /-- unreachable over both arcs since this tick -/
  silentSince : Option Nat
  /-- next unicast SEQ to send, the SEQ below which all have been accepted, and those accepted above it -/
  txSeq : Nat
  rxSeq : Nat
  rxAhead : List Nat
  /-- BEATS of its last status word under this numbering -/
  beatsSeen : Nat
  /-- key-agreement public keys of its HELLO -/
  kemPk : Bytes
  xPk : Bytes
deriving DecidableEq, Repr

def peerReset : Peer :=
  { status := [], lease := false, arcB := false, renewed := 0, heardA := none, heardB := none, silentSince := none,
    txSeq := 0, rxSeq := 0, rxAhead := [], beatsSeen := 0, kemPk := [], xPk := [] }

/-- A PARK_KEY_AGREE in progress on the head (R331). -/
structure KeyAgree where
  cmd : Cmd
  epoch : Nat
  key : Bytes
  sent : Nat
  acked : Nat
  first : Nat
  /-- switch tick once KEY_COMMIT has been sent -/
  switch : Option Nat
deriving DecidableEq, Repr

/-- A new epoch known to this unit: its key, and the switch tick once committed. -/
structure NewEpoch where
  epoch : Nat
  key : Bytes
  switch : Option Nat
deriving DecidableEq, Repr

/-- A resynchronisation run by this unit, or served by it (R343). -/
structure Resync where
  cmd : Cmd
  since : Nat
  /-- the serving member, once it has answered -/
  server : Option Nat
  loaded : Bool
deriving DecidableEq, Repr

/-- A share of a spread batch this unit initiated (R344 to R347): the batch, the function it came from, the unit, the items
outstanding, those first assigned, those that ended OK and otherwise, and the outcome (2 lost, 3 lost with items re-run, else
0). -/
structure Share where
  batch : Nat
  fn : Nat
  unit : Nat
  items : List Nat
  assigned : Nat
  ok : Nat
  failed : Nat
  outcome : Nat
deriving DecidableEq, Repr

/-- The park. -/
structure Prk where
  st : ParkState
  headStrap : Bool
  /-- the address, valid once the unit is `addressed` -/
  address : Nat
  addressed : Bool
  /-- the membership record (R327): PARK_ID, roster of digests by address, roster digest, epoch and park key -/
  parkId : Bytes
  roster : List Bytes
  rosterDigest : Bytes
  epoch : Nat
  key : Bytes
  /-- frames of the previous epoch are accepted until this tick -/
  prevUntil : Nat
  lost : Nat
  evicted : Nat
  rejoin : Nat
  left : Nat
  /-- units named in some KEY_COMMIT -/
  named : Nat
  /-- losses declared and not yet carried to the members in a heartbeat -/
  declare : Nat
  /-- this unit's key-agreement secret keys (ML-KEM-1024, X448) -/
  kemSk : Bytes
  xSk : Bytes
  peers : KMap Peer
  portA : PeerPort
  portB : PeerPort
  bcastSeq : Nat
  msgId : Nat
  beats : Nat
  /-- local ticks of the last HELLO, HEARTBEAT and ACK sent, and of the last HEARTBEAT received -/
  helloTick : Nat
  beatTick : Nat
  ackTick : Nat
  heardTick : Nat
  /-- units with frames of theirs accepted and not yet acknowledged -/
  ackOwed : Nat
  /-- the walk under way began at this tick; the next attempt is due at `walkNext` -/
  walkSince : Option Nat
  walkNext : Nat
  agree : Option KeyAgree
  next : Option NewEpoch
  txns : List Txn
  parts : List PartTxn
  /-- COMPLETE frames not yet acknowledged: unit, SEQ, tick sent (R340) -/
  unanswered : List (Nat × Nat × Nat)
  resync : Option Resync
  /-- the unit being resynchronised by this one, and since when -/
  serving : Option Nat
  servingSince : Nat
  /-- heartbeats, and with them leases, began at this tick -/
  beatsSince : Nat
  shares : List Share
  intStatus : Nat
  intEnable : Nat
  switchovers : Nat
  resent : Nat
  discard : Nat
  txnOk : Nat
  txnPartial : Nat
  txnAbort : Nat
  spreadOut : Nat
  spreadIn : Nat
  spreadRetried : Nat
  lostDecl : Nat
  macsecDrop : Nat
  walks : Nat
  leaseExpired : Nat
deriving DecidableEq, Repr

/-- A unit that has not joined (R327, R350). -/
def prkReset : Prk :=
  { st := .alone, headStrap := false, address := 0x3F, addressed := false, parkId := [], roster := [], rosterDigest := [],
    epoch := 0, key := [], prevUntil := 0, lost := 0, evicted := 0, rejoin := 0, left := 0, named := 0, declare := 0,
    kemSk := [], xSk := [], peers := [], portA := portReset, portB := portReset, bcastSeq := 0, msgId := 0, beats := 0,
    helloTick := 0, beatTick := 0, ackTick := 0, heardTick := 0, ackOwed := 0, walkSince := none, walkNext := 0,
    agree := none, next := none, txns := [], parts := [], unanswered := [], resync := none, serving := none, servingSince := 0, beatsSince := 0, shares := [], intStatus := 0,
    intEnable := 0, switchovers := 0, resent := 0, discard := 0, txnOk := 0, txnPartial := 0, txnAbort := 0,
    spreadOut := 0, spreadIn := 0, spreadRetried := 0, lostDecl := 0, macsecDrop := 0, walks := 0, leaseExpired := 0 }

end Sys2Proof.Machine
end

