-- ==== Sys2Proof/Syntax.lean ====
section
/-! DEFINITION. The commands of the part: one constructor for each row of spec/opcode_table.json, in the table's
order. A command opcode carries the descriptor and the host data the part reads for it (`Cmd`); an event row carries
what the environment brings; an Isagil row carries the engine and the word it fetched (`IsaX`). -/

namespace Sys2Proof

open Sys2Proof.Machine

/-- One constructor for each row of the opcode table. -/
inductive Instr where
  /-- ADMIN_IDENTIFY (R88): Returns the 4 KiB identity page. -/
  | adminIdentify (c : Cmd)
  /-- ADMIN_ATTEST (R62): Returns a report over the MEAS registers and the state, signed with ML-DSA-87 and ECDSA P-384. -/
  | adminAttest (c : Cmd)
  /-- ADMIN_NOP (R84): Does nothing; with FENCE set it acts as a pure barrier. -/
  | adminNop (c : Cmd)
  /-- ADMIN_APPLET_CALL (R379): Queues a call with function number FN to an applet partition and starts it at the image's ENTRY address. -/
  | adminAppletCall (c : Cmd)
  /-- ADMIN_QUARANTINE (R471): Takes a replaceable part out of service, orderly or FORCED. -/
  | adminQuarantine (c : Cmd)
  /-- ADMIN_SERVICE_RETURN (R475): Tests a quarantined part and returns it to service on a pass, unless TEST_ONLY is set. -/
  | adminServiceReturn (c : Cmd)
  /-- ADMIN_SHUTDOWN (R451): Stops fetching from every queue except the PF queues and drains every function for an orderly shutdown. -/
  | adminShutdown (c : Cmd)
  /-- ADMIN_FW_UPDATE (R442): Writes a firmware image to the inactive slot. -/
  | adminFwUpdate (c : Cmd)
  /-- ADMIN_FW_ACTIVATE (R442): Rewrites the directory so that it names the other firmware slot for the next start. -/
  | adminFwActivate (c : Cmd)
  /-- ADMIN_RESET (R450): Parameter set 0x0000: commits and requests a full reset 1,048 ticks later. -/
  | adminReset (c : Cmd)
  /-- ADMIN_RESET_TIME (R450): Parameter set 0x0001: requests a full reset that also restarts the sundial time core. -/
  | adminResetTime (c : Cmd)
  /-- ADMIN_RESET_COLD (R508): Parameter set 0x0002: requests a cold start without loss of main power, which empties the key store. -/
  | adminResetCold (c : Cmd)
  /-- ADMIN_PROGRAM_LOAD (R179): Checks a signed program package and, at commit, places it in the program store and extends MEAS[3]. -/
  | adminProgramLoad (c : Cmd)
  /-- ADMIN_PROGRAM_REMOVE (R180): Removes a loaded program; its store space is freed after the last command accepted before the commit has loaded it. -/
  | adminProgramRemove (c : Cmd)
  /-- ADMIN_APPLET_LOAD (R378): Parameter set 0x0001: checks an applet image and loads it into the lowest free partition. -/
  | adminAppletLoad (c : Cmd)
  /-- ADMIN_APPLET_REMOVE (R378): Parameter set 0x0002: removes an applet partition, ends its calls and zeroes its granules. -/
  | adminAppletRemove (c : Cmd)
  /-- ADMIN_CUSTODIAN_ENROL (R101): Enrols a custodian in CONSOLE mode and installs a channel authority key on the custodian's card. -/
  | adminCustodianEnrol (c : Cmd)
  /-- ADMIN_CUSTODIAN_REVOKE (R101): Removes a custodian record and erases the authority key of that custodian's channel. -/
  | adminCustodianRevoke (c : Cmd)
  /-- ADMIN_POLICY_SET (R105): Parameter set 0x0001: replaces the authority policy as a whole. -/
  | adminPolicySet (c : Cmd)
  /-- ADMIN_PUBLISHER_SET (R181): ADMIN_POLICY_SET with parameter set 0x0002: registers or withdraws a customer publisher. -/
  | adminPublisherSet (c : Cmd)
  /-- KEY_LOAD (R142): Decrypts and checks a blob in a cipher job and stores the key object. -/
  | keyLoad (c : Cmd)
  /-- KEY_SAVE (R141): Returns a key as a blob under the tenant's BLOB key. -/
  | keySave (c : Cmd)
  /-- KEY_SAVE_COLD (R449): KEY_SAVE with SELECT bit 17 set: writes the blob as a record in the COLD region of the flash. -/
  | keySaveCold (c : Cmd)
  /-- KEY_ATTR_GET (R132): Returns the attribute block of a key, or its public key under parameter set 0x0002. -/
  | keyAttrGet (c : Cmd)
  /-- KEY_DERIVE (R130): Derives a new key object from a base key. -/
  | keyDerive (c : Cmd)
  /-- KEY_METER_GET (R138): Returns the 24-byte state of a usage meter. -/
  | keyMeterGet (c : Cmd)
  /-- KEY_CHECK_VALUE (R251): Computes the key check value of an AES or TDEA secret key. -/
  | keyCheckValue (c : Cmd)
  /-- KEY_GENERATE (R129): Generates a key or key pair and creates the objects. -/
  | keyGenerate (c : Cmd)
  /-- KEY_IMPORT (R143): Unwraps, checks and stores an imported key. -/
  | keyImport (c : Cmd)
  /-- KEY_EXPORT (R143): Wraps a key under a WRAP key in the format that SELECT chooses. -/
  | keyExport (c : Cmd)
  /-- KEY_DELETE (R121): Moves a key object to DRAINING. -/
  | keyDelete (c : Cmd)
  /-- KEY_ATTR_SET (R125): Replaces the changeable fields of a key's attribute block. -/
  | keyAttrSet (c : Cmd)
  /-- KEY_COMPONENT (R114): Creates a key, or sets the PF channel key, from components that custodians enter at the console. -/
  | keyComponent (c : Cmd)
  /-- KEY_METER_SET (R137): Sets a meter word and, where a loaded key holds the meter, that key's METER_LIMIT. -/
  | keyMeterSet (c : Cmd)
  /-- RUN_PROGRAM (R171): Plans and runs a loaded program as an engine job. -/
  | runProgram (c : Cmd)
  /-- RUN_QUERY (R88): Returns a loaded program's manifest. -/
  | runQuery (c : Cmd)
  /-- SYM_ENCRYPT (R253): One-shot AES or TDEA encryption with a nonce or IV that the device builds. -/
  | symEncrypt (c : Cmd)
  /-- SYM_DECRYPT (R253): One-shot decryption. -/
  | symDecrypt (c : Cmd)
  /-- SYM_STREAM (R256): Processes one segment of a cipher stream. -/
  | symStream (c : Cmd)
  /-- SYM_MAC_GEN (R253): Computes a block-cipher MAC. -/
  | symMacGen (c : Cmd)
  /-- SYM_MAC_VERIFY (R264): Verifies a block-cipher MAC and sets the compare pair. -/
  | symMacVerify (c : Cmd)
  /-- SYM_PIN_TRANSLATE (R268): Translates a PIN block from one format and key to another. -/
  | symPinTranslate (c : Cmd)
  /-- SYM_PIN_VERIFY (R269): Verifies a PIN block against a reference block. -/
  | symPinVerify (c : Cmd)
  /-- SYM_EMV_VERIFY (R271): Verifies an EMV ARQC and optionally produces an ARPC. -/
  | symEmvVerify (c : Cmd)
  /-- SYM_CVV_GEN (R272): Generates a card verification value. -/
  | symCvvGen (c : Cmd)
  /-- SYM_CVV_VERIFY (R272): Verifies a card verification value. -/
  | symCvvVerify (c : Cmd)
  /-- DIGEST_ONESHOT (R262): Hashes a message in one command. -/
  | digestOneshot (c : Cmd)
  /-- DIGEST_UPDATE (R256): Processes one segment of a digest stream. -/
  | digestUpdate (c : Cmd)
  /-- DIGEST_FINAL (R256): Processes the last segment of a digest stream and returns the digest. -/
  | digestFinal (c : Cmd)
  /-- DIGEST_MAC (R263): Computes HMAC or KMAC under a key. -/
  | digestMac (c : Cmd)
  /-- DIGEST_MAC_VERIFY (R264): Verifies an HMAC or KMAC and sets the compare pair. -/
  | digestMacVerify (c : Cmd)
  /-- DIGEST_MEAS_READ (R266): Returns one or all measurement registers with their extend counts. -/
  | digestMeasRead (c : Cmd)
  /-- DIGEST_MEAS_EXTEND (R266): Extends one host-extendable measurement register, 16-31. -/
  | digestMeasExtend (c : Cmd)
  /-- PK_SIGN (R227): Signs a message or digest with a library program or a big-number engine. -/
  | pkSign (c : Cmd)
  /-- PK_VERIFY (R233): Verifies a signature and sets the compare pair. -/
  | pkVerify (c : Cmd)
  /-- PK_ENCAPS (R229): Encapsulates to a KEM public key. -/
  | pkEncaps (c : Cmd)
  /-- PK_DECAPS (R234): Decapsulates a ciphertext, with implicit rejection. -/
  | pkDecaps (c : Cmd)
  /-- PK_DERIVE (R291): Performs key agreement as a dual job on two big-number engines. -/
  | pkDerive (c : Cmd)
  /-- PK_ENCRYPT (R281): RSA-OAEP encryption. -/
  | pkEncrypt (c : Cmd)
  /-- PK_DECRYPT (R289): RSA-OAEP decryption. -/
  | pkDecrypt (c : Cmd)
  /-- RNG_READ (R316): Returns random bytes from the PORT instance. -/
  | rngRead (c : Cmd)
  /-- RNG_RAW_READ (R319): Returns raw or conditioned samples in raw-sample mode. -/
  | rngRawRead (c : Cmd)
  /-- RNG_RESTART (R317): Restarts a stopped kiln through new start-up tests. -/
  | rngRestart (c : Cmd)
  /-- RNG_RAW_ENABLE (R318): Enters or leaves raw-sample mode. -/
  | rngRawEnable (c : Cmd)
  /-- TIME_STAMP (R39): Returns a 16-byte timestamp of the acceptance instant. -/
  | timeStamp (c : Cmd)
  /-- TIME_STATUS (R88): Returns the sundial state and a schedule summary. -/
  | timeStatus (c : Cmd)
  /-- TIME_POLICY (R38): Sets the holdover limit. -/
  | timePolicy (c : Cmd)
  /-- TIME_SCHEDULE_ADD (R48): Adds 1 to 16 schedule entries, all or none. -/
  | timeScheduleAdd (c : Cmd)
  /-- TIME_SCHEDULE_CANCEL (R51): Cancels 1 to 16 schedule entries, all or none. -/
  | timeScheduleCancel (c : Cmd)
  /-- PARK_STATUS (R336): Returns the 1,040-byte park status. -/
  | parkStatus (c : Cmd)
  /-- PARK_JOIN (R328): Stores PARK_ID and the roster and begins sending HELLO. -/
  | parkJoin (c : Cmd)
  /-- PARK_LEAVE (R330): Broadcasts LEAVE, frees the park-wide objects and enters ALONE. -/
  | parkLeave (c : Cmd)
  /-- PARK_EVICT (R342): Evicts a unit through a park transaction. -/
  | parkEvict (c : Cmd)
  /-- PARK_RESYNC (R343): Resynchronises a DETACHED unit from a member and readmits it. -/
  | parkResync (c : Cmd)
  /-- PARK_KEY_AGREE (R331): On the head, draws and delivers a new park key epoch. -/
  | parkKeyAgree (c : Cmd)
  /-- TENANT_VF_QUIESCE (R359): Stops fetching for a VF and drains it. -/
  | tenantVfQuiesce (c : Cmd)
  /-- TENANT_VF_RESUME (R360): Restarts fetching for a quiesced VF. -/
  | tenantVfResume (c : Cmd)
  /-- TENANT_PERF_GRANT (R370): Grants or withdraws PERF_READ for a VF. -/
  | tenantPerfGrant (c : Cmd)
  /-- TENANT_CREATE (R352): Creates a tenant with a quota record. -/
  | tenantCreate (c : Cmd)
  /-- TENANT_DELETE (R354): Deletes a tenant that holds nothing. -/
  | tenantDelete (c : Cmd)
  /-- TENANT_BIND_VF (R356): Binds a VF to a tenant and issues its channel key. -/
  | tenantBindVf (c : Cmd)
  /-- TENANT_UNBIND_VF (R357): Unbinds a VF and erases its channel key. -/
  | tenantUnbindVf (c : Cmd)
  /-- TENANT_QUOTA_SET (R352): Sets a tenant's quotas. -/
  | tenantQuotaSet (c : Cmd)
  /-- TENANT_VF_SAVE (R366): Writes a VF image and freezes the VF. -/
  | tenantVfSave (c : Cmd)
  /-- TENANT_VF_RESTORE (R367): Restores a VF image onto an unbound VF. -/
  | tenantVfRestore (c : Cmd)
  /-- LIFE_STATUS (R439): Returns the life-cycle and debug state. -/
  | lifeStatus (c : Cmd)
  /-- LIFE_TRANSITION (R430): Runs a one-way life-cycle transition through its progress marks. -/
  | lifeTransition (c : Cmd)
  /-- LIFE_DEBUG_OPEN (R433): Opens debug under a vendor certificate. -/
  | lifeDebugOpen (c : Cmd)
  /-- LIFE_DEBUG_CLOSE (R436): Closes debug. -/
  | lifeDebugClose (c : Cmd)
  /-- LIFE_TAMPER_SET (R414): Commits a tamper configuration. -/
  | lifeTamperSet (c : Cmd)
  /-- LIFE_RECOMMISSION (R417): Recommissions a QUENCHED part after two cards are confirmed at the console. -/
  | lifeRecommission (c : Cmd)
  /-- EVENT_READ (R467): Returns event records from a SEQ onward. -/
  | eventRead (c : Cmd)
  /-- EVENT_CLEAR (R468): Clears the recorder and writes a CLEARED record. -/
  | eventClear (c : Cmd)
  /-- PERF_READ (R460): Returns a consistent snapshot of counters or of a tenant view. -/
  | perfRead (c : Cmd)
  /-- PERF_WINDOW_SET (R459): Sets the windows of the bandwidth meters. -/
  | perfWindowSet (c : Cmd)
  /-- UNKNOWN_OPCODE (R88): A descriptor whose opcode is not listed fails check 1 with OPCODE_UNKNOWN. -/
  | unknownOpcode (c : Cmd)
  /-- COMMISSIONING_CEREMONY (R102): Two custodians at the operator port enrol themselves and set the PF channel key. -/
  | commissioningCeremony (ixA : Fin 64) (restA : Bytes) (ixB : Fin 64) (restB : Bytes) (alg : Fin 65536)
  /-- DESCRIPTOR_FETCH (R65): The arbiter fetches the next descriptor from a submission queue that has room and a pending entry. -/
  | descriptorFetch (c : Cmd) (readFails : Bool)
  /-- FENCE_RELEASE (R84): A held FENCE descriptor is accepted once every earlier command of its queue is released. -/
  | fenceRelease
  /-- STAGE_RESERVE (R91): A waiting command is accepted once its release-staging reservation fits. -/
  | stageReserve
  /-- STAGE_STARVE_TIMEOUT (R91): A queue passed over for 1,024 ticks is served first. -/
  | stageStarveTimeout
  /-- RNG_WAIT_TIMEOUT (R18): A command waiting 5 ms at check 9 for the kiln completes with NOT_READY. -/
  | rngWaitTimeout
  /-- HORIZON_RESUME (R92): Acceptance resumes at the first tick at which some pavilion's committed load is within the horizon. -/
  | horizonResume
  /-- RELEASE_TICK (R45): At a release tick the gatehouse writes the due outputs, completions, tail records and MSI-X messages. -/
  | releaseTick
  /-- LATE_RELEASE (R43): A GRID job unfinished at B + A is held to B + 2A or B + 4A and released with LATE. -/
  | lateRelease
  /-- ALLOTMENT_ABORT (R43): A job still running at B + 4A is aborted and scrubbed. -/
  | allotmentAbort
  /-- LADDER_STEP (R44): At a ladder step, a completed LADDER job is released. -/
  | ladderStep
  /-- LADDER_ABORT (R44): A job unfinished at the last ladder step is aborted. -/
  | ladderAbort
  /-- TAIL_RECORD_TIMER (R64): The tail record is rewritten every 64 ticks while SQ_HEAD has moved. -/
  | tailRecordTimer
  /-- SQ_TAIL (R67): A submission doorbell write hands entries to the gatehouse or raises a DOORBELL queue error. -/
  | sqTail (fn : Fin 1024) (q : Fin 16) (value : BitVec 32)
  /-- CQ_HEAD (R67): A completion doorbell write returns CQ slots. -/
  | cqHead (fn : Fin 1024) (q : Fin 16) (value : BitVec 32)
  /-- QP_ENABLE (R66): A write of QP_CFG.ENABLE = 1 validates the configuration and starts the queue pair. -/
  | qpEnable (fn : Fin 1024) (q : Fin 16) (value : BitVec 32)
  /-- QP_DISABLE (R66): A write of QP_CFG.ENABLE = 0 stops fetching and drops unaccepted descriptors. -/
  | qpDisable (fn : Fin 1024) (q : Fin 16) (value : BitVec 32)
  /-- FETCH_EN (R72): A write of GTH_CTL.FETCH_EN stops or restarts fetching on every queue. -/
  | fetchEn (on : Bool)
  /-- PWR_CAP_WRITE (R30): A write of PWR_CAP sets the cap from the next window, or sets CAP_ERR if it is out of range. -/
  | pwrCapWrite (value : BitVec 32)
  /-- PWR_HOLD_WRITE (R395): A keeper write of PWR_HOLD; clearing a bit lets a pending gating request proceed. -/
  | pwrHoldWrite (value : BitVec 20)
  /-- ASSIGN_LOCK (R383): The LDG_CTRL.ASSIGN_LOCK write locks peripheral assignment and MPU regions until reset. -/
  | assignLock
  /-- FORCE_SCRUB (R183): A keeper W1S write scrubs an IDLE engine or big-number engine. -/
  | forceScrub (pool : Bool) (index : Fin 272)
  /-- INT_STATUS_W1C (R7): A write of ones to an interrupt status register clears those bits. -/
  | intStatusW1c (fn : Fin 1024) (addr : Nat) (ones : BitVec 32)
  /-- SDL_TIME_READ (R53): A read of SDL_TIME_LO latches SDL_TIME_HI and SDL_SUBTICK. -/
  | sdlTimeRead (m : Master)
  /-- LATCH_READ (R507): A read of a _LO register or a counter register latches the high part for the reading master. -/
  | latchRead (m : Master) (fn : Fin 1024) (place : HostAddr) (size : Nat)
  /-- REGISTER_WRITE (R505): A write to any register without a row of its own, ignored where it is not permitted. -/
  | registerWrite (m : Master) (fn : Fin 1024) (place : HostAddr) (size : Nat) (value : BitVec 32)
  /-- MPU_REGION_WRITE (R388): A keeper write stages an MPU region, ignored if malformed or locked. -/
  | mpuRegionWrite (mpu : Fin 24) (region : Fin 16) (bytes : Bytes)
  /-- FLR_VF (R361): A function-level reset of a VF squashes its work and disables its queues. -/
  | flrVf (vf : Fin 1024)
  /-- FLR_READ_ABANDON (R361): Reads still outstanding at F + 944 ticks are abandoned. -/
  | flrReadAbandon (vf : Fin 1024)
  /-- FLR_COMPLETE (R361): At F + 1,048 ticks the VF's queues are disabled and FLR_BUSY falls. -/
  | flrComplete (vf : Fin 1024)
  /-- FLR_PF (R60): A PF function-level reset clears VF Enable and disables every queue. -/
  | flrPf
  /-- CONVENTIONAL_RESET (R60): PERST_N, a hot reset or link down resets the host port and configuration space. -/
  | conventionalReset
  /-- D3HOT_ENTRY (R61): The PF enters D3hot and all fetching stops. -/
  | d3hotEntry
  /-- D0_RETURN (R61): The PF returns to D0 and fetching resumes. -/
  | d0Return
  /-- DOE_OBJECT (R62): An SPDM or DOE Discovery object arrives at the PF mailbox and is answered. -/
  | doeObject (size : Nat) (secured : Bool) (request : DoeRequest)
  /-- IDE_STREAM_SECURE (R63): The IDE stream becomes Secure and held completions leave. -/
  | ideStreamSecure
  /-- IDE_STREAM_INSECURE (R63): The IDE stream leaves Secure, and DMA stops while IDE is required. -/
  | ideStreamInsecure
  /-- DMA_READ_RETURN (R56): A host read completion returns, with data or with an error that ends its command with DMA_ERROR. -/
  | dmaReadReturn (job : Nat) (bad : Bool)
  /-- JOB_START (R171): The pavilion scheduler starts the next job on a free engine, which enters LOADING. -/
  | jobStart (pav : Fin 16)
  /-- LOADING_END (R172): Overlay 0 and the constant image are loaded and the job runs. -/
  | loadingEnd (e : Fin 272)
  /-- CORE_GRANT (R13): A waiting Keccak or SHA-2 request is granted a core, whose state is cleared first. -/
  | coreGrant (e : Fin 272)
  /-- KEY_DELIVERY_DONE (R146): A key-path delivery ends, and the valid signal is given if the object tag matches. -/
  | keyDeliveryDone (e : Fin 272) (found : StoreFinding)
  /-- CLEARING_END (R171): CLEARING zeroing ends and the engine becomes IDLE. -/
  | clearingEnd (e : Fin 272)
  /-- SCRUB_END (R176): An engine scrub ends; a read-back failure quarantines the engine. -/
  | scrubEnd (e : Fin 272) (clean : Bool)
  /-- CIPHER_PIECE_START (R257): A cipher piece starts on a free engine position, restoring its context. -/
  | cipherPieceStart (pav : Fin 16) (found : StoreFinding)
  /-- CIPHER_PIECE_END (R258): A cipher piece ends and its context is saved clear or wrapped. -/
  | cipherPieceEnd (e : Fin 272) (stay : Bool) (how : PieceEnd)
  /-- BNE_JOB_START (R284): A pool job starts on one or two free big-number engines. -/
  | bneJobStart (found : StoreFinding)
  /-- BNE_JOB_END (R297): A big-number operation ends, with the dual comparison for a dual job, and the engine enters CLEARING. -/
  | bneJobEnd (b : Fin 32) (how : BneEnd)
  /-- BNE_CLEARING_END (R297): A big-number engine ends CLEARING and becomes IDLE. -/
  | bneClearingEnd (b : Fin 32)
  /-- BNE_SCRUB_END (R298): A big-number engine scrub ends; a read-back failure quarantines the engine. -/
  | bneScrubEnd (b : Fin 32) (clean : Bool)
  /-- OTS_ADVANCE_CONFIRM (R136): The peat domain confirms a one-time-signature index advance and the job is passed on. -/
  | otsAdvanceConfirm (job : Nat)
  /-- OBJECT_DRAINED (R121): The last waiting job has loaded a DRAINING object, which is zeroed and freed. -/
  | objectDrained (base : Fin 196608)
  /-- SCRUB_UNIT (R148): The key-store scrubber visits the next unit when it falls due. -/
  | scrubUnit (found : StoreFinding)
  /-- PPS_EDGE (R36): An active PPS_IN edge is timestamped and judged as qualifying or not. -/
  | ppsEdge (sub : Fin 65536) (edge : PulseEdge)
  /-- PPS_MISSING (R36): The predicted edge window passes without an edge. -/
  | ppsMissing
  /-- TOD_FRAME (R33): A 16-byte TOD frame is accepted or discarded. -/
  | todFrame (bytes : Bytes)
  /-- TOD_GAP_TIMEOUT (R33): A frame ends when more than 182 ticks pass with no byte. -/
  | todGapTimeout (bytes : Bytes)
  /-- TOD_SILENCE (R36): No accepted frame for 3 seconds in LOCKED sends the sundial to HOLDOVER. -/
  | todSilence
  /-- ACQUIRE_TIMEOUT (R36): No qualifying edge for 2 s returns ACQUIRE to UNTRACEABLE. -/
  | acquireTimeout
  /-- ALIGN_COMPLETE (R37): The slew or half-rate alignment brings the offset within one tick and LOCKED is entered. -/
  | alignComplete
  /-- HOLDOVER_LIMIT (R36): Holdover reaches its limit and the sundial becomes UNTRACEABLE. -/
  | holdoverLimit
  /-- HOLDOVER_WARN (R38): Holdover reaches 90 % of its limit and LAPSE_WARN is set. -/
  | holdoverWarn
  /-- CORE_FAULT (R40): The two grid counters disagree and the sundial becomes UNTRACEABLE. -/
  | coreFault (other : Nat)
  /-- TOD_TX_FRAME (R34): A status frame is sent 524,288 ticks after each grid second. -/
  | todTxFrame
  /-- REF_CHECK_WINDOW (R488): Every 1,024 ticks the TIME_REF frequency is checked and REF_PRESENT is updated. -/
  | refCheckWindow (clock : Bool) (ppm : Int)
  /-- SCHEDULE_FIRE (R50): ARMED schedule entries due at a tick are applied in SEQ order and removed. -/
  | scheduleFire
  /-- SOURCE_WINDOW (R303): A noise source's 1,024-sample window ends and is tested, then released to the register or discarded. -/
  | sourceWindow (src : Fin 8) (samples : Bytes) (alive : Nat) (beat : Nat)
  /-- REPETITION_FAIL (R303): A run of 41 identical raw bits excludes the source mid-window. -/
  | repetitionFail (src : Fin 8)
  /-- INSTANTIATE (R312): With enough blocks queued the DRBG instances instantiate and the kiln releases output. -/
  | instantiate (kat : Bool)
  /-- RESEED_DUE (R309): An instance nears its reseed limit and is reseeded from queued blocks. -/
  | reseedDue (inst : Fin 5)
  /-- RESEED_LIMIT (R309): An instance reaches a limit before reseeding and stalls its consumers. -/
  | reseedLimit (inst : Fin 5)
  /-- EMBER_REFRESH (R310): Every 2^26 ticks the ember is overwritten from GEN. -/
  | emberRefresh
  /-- RAW_READ_DONE (R319): An RNG_RAW_READ has gathered its samples and is released. -/
  | rawReadDone
  /-- FOUNTAIN_RESEED (R168): A fountain requests a new seed 256 mask rows before its limit. -/
  | fountainReseed (e : Fin 272)
  /-- FOUNTAIN_SEED_ARRIVE (R168): A seed arrives on the seed feed and the fountain rekeys or restarts. -/
  | fountainSeedArrive (e : Fin 272)
  /-- FOUNTAIN_STOP (R168): A fountain reaches its limit without a seed and stops. -/
  | fountainStop (e : Fin 272)
  /-- POWER_WINDOW (R28): Every 64 ticks the power manager estimates power and adjusts the admission duty. -/
  | powerWindow (setpoint : Option (Fin 21))
  /-- DETECTOR_EVENT (R401): A tamper detector produces an event with main power, firing its source when N events fall within W. -/
  | detectorEvent (src : Fin 16) (value : Int)
  /-- QUENCH_SCRUB_DONE (R405): The quench scrub ends and a full reset begins, or the part halts. -/
  | quenchScrubDone (clearNs : Fin 65536) (scrubUs : Fin 65536)
  /-- THROTTLE_END (R402): W ticks pass with no event of the source and THROTTLE ends. -/
  | throttleEnd (src : Fin 16)
  /-- CELL_DETECTOR_EVENT (R411): A failing 1 ms sample on the cell alone counts toward a firing, quench or cell log entry. -/
  | cellDetectorEvent (src : Fin 16) (fresh : Bool) (value : Int)
  /-- CELL_FAIL (R412): VBAT below 2.2 V on the cell alone quenches with cause CELL_FAIL. -/
  | cellFail (mv : Nat)
  /-- QUENCH_OUT_RELEASE (R407): After a quench on the cell, QUENCH_OUT_N is released after 1 ms. -/
  | quenchOutRelease
  /-- HOURS_TICK (R410): The operating-hours count advances every 1/1,024 hour. -/
  | hoursTick
  /-- PWR_GOOD_RISE (R444): PWR_GOOD rises and the cold start runs. -/
  | pwrGoodRise (head : Bool) (found : PeatFinding)
  /-- BOOT_KILN_READY (R444): The kiln releases output during boot, a held transition completes, and the firmware is verified. -/
  | bootKilnReady (f : FlashRead)
  /-- SERVICE_READY (R444): Self-tests end and PHASE becomes SERVICE. -/
  | serviceReady (failed : List (Fin 8 × Fin 272 × Fin 65536)) (bad : List (Fin 196608))
  /-- COLD_RECORD_RELOAD (R449): The keeper reloads the next record of the COLD region after a cold start. -/
  | coldRecordReload
  /-- PWR_GOOD_FALL (R485): PWR_GOOD falls; the part stops, scrubs SRAM and moves the peat domain to VBAT. -/
  | pwrGoodFall (long : Bool) (vbat : Nat)
  /-- RESET_BALL (R494): RESET_N held low for 1 µs starts a full reset. -/
  | resetBall (us : Bool)
  /-- FULL_RESET (R447): A requested full reset begins and runs its steps to service. -/
  | fullReset
  /-- RESET_DELAY_END (R450): 1,048 ticks after the commit of ADMIN_RESET the full reset begins. -/
  | resetDelayEnd
  /-- WATCHDOG (R450): The keeper fails to service its watchdog for 65,536 ticks and a full reset is requested. -/
  | watchdog
  /-- TRANSITION_RESET (R430): 1,048 ticks after DONE a full reset is requested. -/
  | transitionReset
  /-- SHUTDOWN_DRAINED (R451): The shutdown drain ends, flushes settle and PHASE becomes SHUT. -/
  | shutdownDrained
  /-- QUIESCE_DRAINED (R359): A draining VF has nothing left in flight and becomes QUIESCED. -/
  | quiesceDrained
  /-- CARD_INSERT (R112): A card is detected in a slot and handled during an approval wait. -/
  | cardInsert (slot : Fin 2) (atr : CardAtr)
  /-- CARD_REMOVE (R112): A card is removed; an unconfirmed approval is not given. -/
  | cardRemove (slot : Fin 2)
  /-- CARD_RESPONSE (R111): A custodian card answers IDENTIFY, INSTALL, APPROVE, TAG or VERIFY. -/
  | cardResponse (slot : Fin 2) (good : Bool) (data : Bytes)
  /-- PIN (R110): A PIN frame from the console is passed to the card in VERIFY. -/
  | pin (frame : Bytes)
  /-- CONFIRM (R110): A CONFIRM frame accepts or refuses an approval. -/
  | confirm (frame : Bytes)
  /-- COMPONENT (R114): A COMPONENT frame carries a key component. -/
  | component (frame : Bytes)
  /-- CANCEL (R110): A CANCEL frame ends the wait with QUORUM_MISSING. -/
  | cancel (frame : Bytes)
  /-- START (R113): A START frame carries a segment of a console-started critical command. -/
  | start (frame : Bytes)
  /-- CONSOLE_ACK (R109): An ACK frame from the console acknowledges a device frame. -/
  | consoleAck (frame : Bytes)
  /-- CONSOLE_DISCARD (R109): A malformed console frame is discarded and counted. -/
  | consoleDiscard (bytes : Bytes) (gap : Bool)
  /-- CONSOLE_RESEND_TIMEOUT (R109): An unacknowledged frame is resent after 100 ms, up to three times, then the console counts as absent. -/
  | consoleResendTimeout
  /-- APPROVAL_WINDOW_END (R112): The approval wait ends without a quorum. -/
  | approvalWindowEnd
  /-- PEER_LINK_UP (R329): A peer port link comes up; the head starts the walk once both are up. -/
  | peerLinkUp (portB : Bool)
  /-- PEER_LINK_DOWN (R334): A peer port link goes down. -/
  | peerLinkDown (portB : Bool)
  /-- HELLO (R326): A signed HELLO with neighbour identity and key-agreement keys is received. -/
  | hello (f : FrameIn) (key : Bytes) (state : Nat) (kem : Bytes) (x : Bytes)
  /-- HELLO_TIMER (R326): Every 1,024 ticks HELLO is sent on each port. -/
  | helloTimer
  /-- WALK (R329): A WALK frame assigns an address and is forwarded or refused. -/
  | walk (f : FrameIn) (next : Nat) (parkId : Bytes) (digest : Bytes)
  /-- WALK_FAIL (R329): A walk refusal with a cause is received. -/
  | walkFail (f : FrameIn) (cause : Nat)
  /-- WALK_TIMEOUT (R329): A walk not returned within 1 s is repeated. -/
  | walkTimeout
  /-- ASSEMBLED (R327): ASSEMBLED is received and the unit enters ASSEMBLED. -/
  | assembled (f : FrameIn)
  /-- KEY_DELIVER (R331): A park key delivery is decrypted and acknowledged. -/
  | keyDeliver (f : FrameIn) (epoch : Nat) (c : Bytes) (xh : Bytes) (nonce : Bytes) (box : Bytes) (tag : Bytes)
  /-- KEY_ACK (R331): The head records a delivery acknowledgement. -/
  | keyAck (f : FrameIn) (epoch : Nat) (mac : Bytes)
  /-- KEY_AGREE_TIMEOUT (R331): 65,536 ticks after the first delivery the head broadcasts KEY_COMMIT. -/
  | keyAgreeTimeout
  /-- KEY_COMMIT (R331): A new epoch and its switch tick are received. -/
  | keyCommit (f : FrameIn) (epoch : Nat) (switch : Nat) (names : Nat)
  /-- EPOCH_SWITCH (R331): At the switch tick the named units move to the new epoch's associations and enter FORMED. -/
  | epochSwitch
  /-- PN_EXHAUST (R332): A port whose packet number reaches 2^63 rotates itself. -/
  | pnExhaust (portB : Bool)
  /-- HEARTBEAT (R334): A heartbeat with a status word is received and renews the lease over its arc. -/
  | heartbeat (f : FrameIn) (status : Bytes) (declared : Nat)
  /-- HEARTBEAT_TIMER (R333): Every 64 ticks a heartbeat is broadcast on both ports. -/
  | heartbeatTimer
  /-- HEARTBEAT_SILENCE (R327): No HEARTBEAT for 65,536 ticks sends a FORMED unit to DETACHED. -/
  | heartbeatSilence
  /-- LEASE_EXPIRE (R334): A lease unrenewed for 256 ticks expires and moves to the other arc or marks the peer unreachable. -/
  | leaseExpire (unit : Fin 64)
  /-- TAKEOVER (R334): A peer's TAKEOVER moves the lease for the pair. -/
  | takeover (f : FrameIn)
  /-- ACK (R335): A cumulative park acknowledgement releases held frames. -/
  | ack (f : FrameIn) (sequence : Nat)
  /-- ACK_TIMER (R335): Every 16 ticks with frames outstanding an ACK is sent. -/
  | ackTimer
  /-- LOST_NOTICE (R327): A LOST_NOTICE sends the receiving unit to DETACHED. -/
  | lostNotice (f : FrameIn)
  /-- UNREACHABLE_TIMEOUT (R340): A unit unreachable over both arcs for 65,536 ticks is declared lost. -/
  | unreachableTimeout (unit : Fin 64)
  /-- PREPARE (R338): A participant receives PREPARE, reserves a run or checks the change, and votes. -/
  | prepare (f : FrameIn) (unit : Nat) (counter : Nat) (deadline : Nat) (attempt : Nat) (change : ParkChange)
  /-- VOTE (R338): The initiator records a vote and commits, retries or aborts. -/
  | vote (f : FrameIn) (unit : Nat) (counter : Nat) (attempt : Nat) (yes : Bool) (status : Nat) (detail : Nat) (gens : List Nat)
  /-- PREPARE_DEADLINE (R338): Votes missing at D abort the transaction with UNIT_LOST. -/
  | prepareDeadline
  /-- COMMIT (R338): A participant receives COMMIT, sets the generation and answers COMMITTED. -/
  | commit (f : FrameIn) (unit : Nat) (counter : Nat) (gens : List Nat)
  /-- COMMIT_RESEND (R338): Every 4,096 ticks COMMIT is resent to silent participants. -/
  | commitResend
  /-- COMMIT_LOST_TIMEOUT (R338): A participant silent 65,536 ticks after COMMIT is declared lost. -/
  | commitLostTimeout
  /-- COMMITTED (R338): The initiator records a COMMITTED answer and sends COMPLETE when all have answered. -/
  | committed (f : FrameIn) (unit : Nat) (counter : Nat)
  /-- COMPLETE (R338): COMPLETE is received with its activation tick and arms schedule entries. -/
  | complete (f : FrameIn) (unit : Nat) (counter : Nat) (activate : Nat) (units : Nat)
  /-- ACTIVATION_TICK (R338): At T_A committed changes apply and the initiator releases its completion. -/
  | activationTick
  /-- ABORT (R338): ABORT frees a transaction's reservation. -/
  | abort (f : FrameIn) (unit : Nat) (counter : Nat)
  /-- RESERVATION_EXPIRE (R339): A reservation still open at D + 65,536 ticks is freed and the unit enters DETACHED. -/
  | reservationExpire
  /-- SPREAD_ITEMS (R345): A unit receives a share of a spread batch and runs it. -/
  | spreadItems (f : FrameIn) (batch : Nat) (head : SpreadHead) (d : Desc) (its : List (Nat × Bytes))
  /-- SPREAD_RESULT (R345): The initiator writes a spread item's output and status record. -/
  | spreadResult (f : FrameIn) (batch : Nat) (item : Option Nat) (status : Nat) (detail : Nat) (written : Nat) (out : Bytes)
  /-- SPREAD_LOSS_TIMEOUT (R346): A share unreachable for 4,096 ticks with results outstanding is lost or re-run. -/
  | spreadLossTimeout (unit : Fin 64)
  /-- RESYNC_REQ (R343): A member receives a resynchronisation request and serves or refuses it. -/
  | resyncReq (f : FrameIn) (digest : Bytes) (kem : Bytes) (x : Bytes) (epoch : Nat)
  /-- RESYNC_DATA (R343): The resynchronising unit loads the park-wide snapshot. -/
  | resyncData (f : FrameIn) (objs : List ParkObj) (entries : List SchedEntry)
  /-- RESYNC_TIMEOUT (R327): Resynchronisation not done in 1 s returns the unit to DETACHED. -/
  | resyncTimeout
  /-- LEAVE (R330): A member records a LEAVE as an eviction without rejoin. -/
  | leave (f : FrameIn)
  /-- FOREIGN_FRAME (R325): A frame of another EtherType, unknown type or bad form is discarded and counted. -/
  | foreignFrame (portB : Bool) (bytes : Bytes)
  /-- KREQ_ENTRY (R385): The keeper takes a KREQ entry after the doorbell. -/
  | kreqEntry (entry : Bytes) (known : Bool)
  /-- KNOTE_ENTRY (R384): Partition 0 takes a KNOTE entry after the doorbell. -/
  | knoteEntry
  /-- GATING_REQUEST (R395): A visitor request to gate a domain is refused, held or done. -/
  | gatingRequest (domain : Fin 20) (ungate : Bool)
  /-- HOLD_TIMEOUT (R395): A held gating request times out with HELD. -/
  | holdTimeout (domain : Fin 20)
  /-- SLICE_TIMER (R375): Every 64 ticks cores 4-7 switch to the next pending applet partition. -/
  | sliceTimer
  /-- APPLET_RETURN (R379): An applet call returns and its output is written. -/
  | appletReturn (part : Fin 64) (status : Nat) (output : Bytes)
  /-- CALL_BUDGET_EXPIRE (R379): A call still running at CALL_BUDGET ends with ABORTED. -/
  | callBudgetExpire (part : Fin 64)
  /-- GATE_SUBMIT (R380): An applet submits a command on its gate. -/
  | gateSubmit (part : Fin 64) (c : Cmd) (inMap : Bool)
  /-- STAGE2_FAULT (R381): An applet partition faults and becomes FAULTED. -/
  | stage2Fault (part : Fin 64)
  /-- MPU_DENIAL (R391): An MPU denies an access and records it. -/
  | mpuDenial (mpu : Fin 24) (master : Fin 1024) (addr : Nat) (access : Attempt)
  /-- MPU_COMMIT (R392): The keeper commits staged rules at one edge and a new epoch begins. -/
  | mpuCommit (old : Nat)
  /-- MPU_DRAIN_DONE (R392): Old-epoch accesses retire and the commit returns. -/
  | mpuDrainDone
  /-- MPU_DRAIN_TIMEOUT (R392): The drain exceeds 2 µs and a full reset is requested. -/
  | mpuDrainTimeout
  /-- DEBUG_ACCESS (R394): A probe access as master 0x3FF is decided at an MPU. -/
  | debugAccess (target : Fin 24) (addr : Nat) (kind : Access) (value : BitVec 32) (mem : Option (Fin 272))
  /-- TAP_IDCODE (R431): The IDCODE TAP instruction returns 0x1025_655B. -/
  | tapIdcode
  /-- TAP_STATUS (R431): The STATUS TAP instruction captures DBG_STATUS. -/
  | tapStatus
  /-- TAP_BYPASS (R431): BYPASS, or any other instruction while debug is closed. -/
  | tapBypass
  /-- TAP_RESET (R494): TRST_N low for 100 ns resets the TAP. -/
  | tapReset
  /-- DEBUG_SESSION_END (R436): At the session end tick the keeper closes debug. -/
  | debugSessionEnd
  /-- QUARANTINE_DRAINED (R472): A part under orderly quarantine becomes idle and enters QUARANTINED. -/
  | quarantineDrained (kind : Fin 8) (index : Fin 272)
  /-- WEDGE_TIMEOUT (R472): A forced part not QUARANTINED after 1 ms is wedged and a full reset starts. -/
  | wedgeTimeout (kind : Fin 8) (index : Fin 272)
  /-- PART_TEST_END (R475): A part's test ends and the part returns or stays quarantined. -/
  | partTestEnd (kind : Fin 8) (index : Fin 272) (fail : Option (Fin 65536)) (failed : List (Fin 8 × Fin 272 × Fin 65536))
  /-- HISTORY_FLUSH (R466): A page of 64 records is written to HISTORY. -/
  | historyFlush
  /-- PAGE_ERASE (R468): A history page is erased in the background after a clear. -/
  | pageErase
  /-- USER_CODE_COMPACT (R443): The keeper moves a USER_CODE entry during background compaction. -/
  | userCodeCompact (ident : Nat) (applet : Bool)
  /-- METER_WINDOW (R459): A bandwidth meter window ends and its count is latched. -/
  | meterWindow
  /-- NOP (R219): Does nothing for 1 cycle. -/
  | nop (x : IsaX)
  /-- HALT (R219): Ends the job with OK and starts CLEARING. -/
  | halt (x : IsaX)
  /-- HALT_ST (R219): Ends the job with a permitted status and detail. -/
  | haltSt (x : IsaX)
  /-- HALT_PR (R219): Ends the job with a public rejection at the public-reject time. -/
  | haltPr (x : IsaX)
  /-- SADD (R193): Scalar addition mod 2^28. -/
  | sadd (x : IsaX)
  /-- SSUB (R193): Scalar subtraction mod 2^28. -/
  | ssub (x : IsaX)
  /-- SAND (R193): Scalar AND. -/
  | sand (x : IsaX)
  /-- SOR (R193): Scalar OR. -/
  | sor (x : IsaX)
  /-- SXOR (R193): Scalar XOR. -/
  | sxor (x : IsaX)
  /-- SSHL (R193): Scalar left shift by a public count. -/
  | sshl (x : IsaX)
  /-- SSHR (R193): Scalar logical right shift. -/
  | sshr (x : IsaX)
  /-- SMUL (R193): Low 28 bits of a scalar product. -/
  | smul (x : IsaX)
  /-- SEQ (R193): Scalar equality test. -/
  | seq (x : IsaX)
  /-- SLT (R193): Signed scalar less-than. -/
  | slt (x : IsaX)
  /-- SLTU (R193): Unsigned scalar less-than. -/
  | sltu (x : IsaX)
  /-- SMOV (R193): Scalar move. -/
  | smov (x : IsaX)
  /-- SADDI (R193): Scalar add of an immediate. -/
  | saddi (x : IsaX)
  /-- SLI (R193): Loads a sign-extended immediate into a scalar. -/
  | sli (x : IsaX)
  /-- SLUI (R193): Loads the upper 12 bits of a scalar. -/
  | slui (x : IsaX)
  /-- BR_Z (R194): Branches if a scalar is zero. -/
  | brZ (x : IsaX)
  /-- BR_NZ (R194): Branches if a scalar is non-zero. -/
  | brNz (x : IsaX)
  /-- BR_LTZ (R194): Branches if scalar bit 27 is 1. -/
  | brLtz (x : IsaX)
  /-- BR_GEZ (R194): Branches if scalar bit 27 is 0. -/
  | brGez (x : IsaX)
  /-- BR_PANY (R194): Branches if any predicate bit is set. -/
  | brPany (x : IsaX)
  /-- BR_PNONE (R194): Branches if no predicate bit is set. -/
  | brPnone (x : IsaX)
  /-- JMP (R194): Jumps unconditionally within the overlay. -/
  | jmp (x : IsaX)
  /-- LOOP_I (R195): Opens a loop with an immediate count. -/
  | loopI (x : IsaX)
  /-- LOOP_S (R195): Opens a loop with a public scalar count. -/
  | loopS (x : IsaX)
  /-- LOOP_I_SHF (R196): Opens a shuffled loop with an immediate count. -/
  | loopIShf (x : IsaX)
  /-- LOOP_S_SHF (R196): Opens a shuffled loop with a scalar count. -/
  | loopSShf (x : IsaX)
  /-- CALL (R197): Pushes the return PC and calls. -/
  | call (x : IsaX)
  /-- RET (R197): Pops the call stack and returns. -/
  | ret (x : IsaX)
  /-- JOV (R197): Loads an overlay and continues in it. -/
  | jov (x : IsaX)
  /-- ASET (R198): Sets an address register to an immediate. -/
  | aset (x : IsaX)
  /-- AADD (R198): Adds an immediate to an address register. -/
  | aadd (x : IsaX)
  /-- ASET_LI (R198): Sets an address register from the loop index. -/
  | asetLi (x : IsaX)
  /-- AMOV_S (R198): Sets an address register from a public scalar. -/
  | amovS (x : IsaX)
  /-- QSET_S (R199): Writes a q register from a scalar pair. -/
  | qsetS (x : IsaX)
  /-- QSET_R (R199): Writes a q register from a vector register. -/
  | qsetR (x : IsaX)
  /-- PAND (R199): Predicate AND. -/
  | pand (x : IsaX)
  /-- POR (R199): Predicate OR. -/
  | por (x : IsaX)
  /-- PXOR (R199): Predicate XOR. -/
  | pxor (x : IsaX)
  /-- PNOT (R199): Predicate NOT. -/
  | pnot (x : IsaX)
  /-- PMOV_S (R199): Predicate from a scalar. -/
  | pmovS (x : IsaX)
  /-- SMOV_P (R199): Scalar from a predicate. -/
  | smovP (x : IsaX)
  /-- PSET (R199): Predicate from an immediate. -/
  | pset (x : IsaX)
  /-- VADD_M (R200): Vector modular addition. -/
  | vaddM (x : IsaX)
  /-- VSUB_M (R200): Vector modular subtraction. -/
  | vsubM (x : IsaX)
  /-- VNEG_M (R200): Vector modular negation. -/
  | vnegM (x : IsaX)
  /-- VMUL_M (R200): Vector modular multiplication. -/
  | vmulM (x : IsaX)
  /-- VMAC_M (R200): Vector modular multiply-accumulate. -/
  | vmacM (x : IsaX)
  /-- VMULS_M (R200): Vector times scalar mod q. -/
  | vmulsM (x : IsaX)
  /-- VRED_M (R200): Reduces raw words mod q. -/
  | vredM (x : IsaX)
  /-- VCHK_Q (R200): Predicate where a raw word is below q. -/
  | vchkQ (x : IsaX)
  /-- VCMP_EQ (R200): Predicate where raw words are equal. -/
  | vcmpEq (x : IsaX)
  /-- VCMP_LT (R200): Predicate where one canonical word is less than the other. -/
  | vcmpLt (x : IsaX)
  /-- VSEL (R200): Selects words by predicate. -/
  | vsel (x : IsaX)
  /-- VBFLY_CT (R201): Cooley-Tukey butterfly. -/
  | vbflyCt (x : IsaX)
  /-- VBFLY_GS (R201): Gentleman-Sande butterfly. -/
  | vbflyGs (x : IsaX)
  /-- VBFLY_GF (R201): Additive FFT butterfly in GF(2^m). -/
  | vbflyGf (x : IsaX)
  /-- VBMUL_M (R201): Base multiplication mod X² − γ. -/
  | vbmulM (x : IsaX)
  /-- VPERM (R202): Lane permutation by a public index row. -/
  | vperm (x : IsaX)
  /-- VZIP_LO (R202): Interleaves lanes 0-7 of two registers. -/
  | vzipLo (x : IsaX)
  /-- VZIP_HI (R202): Interleaves lanes 8-15 of two registers. -/
  | vzipHi (x : IsaX)
  /-- VUZP_EV (R202): Gathers the even lanes of two registers. -/
  | vuzpEv (x : IsaX)
  /-- VUZP_OD (R202): Gathers the odd lanes of two registers. -/
  | vuzpOd (x : IsaX)
  /-- VREV (R202): Reverses the lane order. -/
  | vrev (x : IsaX)
  /-- VBCAST_L (R202): Broadcasts a lane to every lane. -/
  | vbcastL (x : IsaX)
  /-- VBCAST_S (R202): Broadcasts a scalar to every word. -/
  | vbcastS (x : IsaX)
  /-- VSAMP_REJ (R204): Rejection-samples candidates into the accumulator. -/
  | vsampRej (x : IsaX)
  /-- VSAMP_ETA_LO (R204): Samples η = 2 coefficients into the accumulator. -/
  | vsampEtaLo (x : IsaX)
  /-- VSAMP_ETA_HI (R204): Samples η = 4 coefficients into the accumulator. -/
  | vsampEtaHi (x : IsaX)
  /-- VSAMP_CBD (R204): Centred binomial sampling with η = 2. -/
  | vsampCbd (x : IsaX)
  /-- VSAMP_CBT (R204): Centred binomial sampling with η = 3. -/
  | vsampCbt (x : IsaX)
  /-- VSAMP_UNF_LO (R204): Uniform 18-bit mask sampling. -/
  | vsampUnfLo (x : IsaX)
  /-- VSAMP_UNF_HI (R204): Uniform 20-bit mask sampling. -/
  | vsampUnfHi (x : IsaX)
  /-- VSAMP_NEXT (R204): Shifts a full accumulator onward. -/
  | vsampNext (x : IsaX)
  /-- VCOMP (R205): Compresses lanes to d bits. -/
  | vcomp (x : IsaX)
  /-- VDCMP (R205): Decompresses lanes from d bits. -/
  | vdcmp (x : IsaX)
  /-- VPACK (R205): Packs d-bit words into a byte window. -/
  | vpack (x : IsaX)
  /-- VUNPACK (R205): Unpacks d-bit words from a byte window. -/
  | vunpack (x : IsaX)
  /-- VGMUL_F (R206): GF(2^m) product. -/
  | vgmulF (x : IsaX)
  /-- VGSQ_F (R206): GF(2^m) square. -/
  | vgsqF (x : IsaX)
  /-- VGINV_F (R206): GF(2^m) inverse. -/
  | vginvF (x : IsaX)
  /-- VAND (R206): 224-bit AND. -/
  | vand (x : IsaX)
  /-- VOR (R206): 224-bit OR. -/
  | vor (x : IsaX)
  /-- VXOR (R206): 224-bit XOR. -/
  | vxor (x : IsaX)
  /-- VNOT (R206): NOT of every lane. -/
  | vnot (x : IsaX)
  /-- VSHL_L (R206): Per-lane left shift. -/
  | vshlL (x : IsaX)
  /-- VSHR_L (R206): Per-lane right shift. -/
  | vshrL (x : IsaX)
  /-- VSHL_R (R206): Whole-row left shift. -/
  | vshlR (x : IsaX)
  /-- VSHR_R (R206): Whole-row right shift. -/
  | vshrR (x : IsaX)
  /-- VROT_R (R206): Whole-row rotation. -/
  | vrotR (x : IsaX)
  /-- VCLMUL_LO (R206): Low half of 32-bit carry-less products. -/
  | vclmulLo (x : IsaX)
  /-- VCLMUL_HI (R206): High half of 32-bit carry-less products. -/
  | vclmulHi (x : IsaX)
  /-- VP2R (R207): Power2Round. -/
  | vp2r (x : IsaX)
  /-- VDECOMP_N (R207): Decompose with γ2 = (q − 1)/88. -/
  | vdecompN (x : IsaX)
  /-- VDECOMP_W (R207): Decompose with γ2 = (q − 1)/32. -/
  | vdecompW (x : IsaX)
  /-- VHINT_MK_N (R207): MakeHint, narrow γ2. -/
  | vhintMkN (x : IsaX)
  /-- VHINT_MK_W (R207): MakeHint, wide γ2. -/
  | vhintMkW (x : IsaX)
  /-- VHINT_USE_N (R207): UseHint, narrow γ2. -/
  | vhintUseN (x : IsaX)
  /-- VHINT_USE_W (R207): UseHint, wide γ2. -/
  | vhintUseW (x : IsaX)
  /-- VNORM_GE (R207): Predicate where the centred magnitude reaches a public bound. -/
  | vnormGe (x : IsaX)
  /-- VFADD_X (R208): Fixed-point word sum. -/
  | vfaddX (x : IsaX)
  /-- VFSUB_X (R208): Fixed-point word difference. -/
  | vfsubX (x : IsaX)
  /-- VFMUL_X (R208): Fixed-point word product. -/
  | vfmulX (x : IsaX)
  /-- VFCMUL_X (R208): Fixed-point complex product. -/
  | vfcmulX (x : IsaX)
  /-- VFBFLY_X (R208): Fixed-point complex butterfly. -/
  | vfbflyX (x : IsaX)
  /-- VFCVT_X (R208): Converts lanes to fixed-point words. -/
  | vfcvtX (x : IsaX)
  /-- VFRND_X (R208): Rounds fixed-point words to lanes. -/
  | vfrndX (x : IsaX)
  /-- VLD (R209): Loads a logical row into a register. -/
  | vld (x : IsaX)
  /-- VST (R209): Stores a register into a logical row. -/
  | vst (x : IsaX)
  /-- VMOV (R210): Copies a register with taint, kind and SEALED. -/
  | vmov (x : IsaX)
  /-- VZERO (R210): Zeroes a register as public. -/
  | vzero (x : IsaX)
  /-- SGET (R210): Reads a word of a register into a scalar. -/
  | sget (x : IsaX)
  /-- SPUT (R210): Writes a scalar into a word of a register. -/
  | sput (x : IsaX)
  /-- VLI (R210): Loads an immediate into every lane. -/
  | vli (x : IsaX)
  /-- VKECCAK_F (R211): Applies Keccak-f[1600] through the Keccak port. -/
  | vkeccakF (x : IsaX)
  /-- VSHA_CS (R212): SHA-256 compression through the SHA-2 port. -/
  | vshaCs (x : IsaX)
  /-- VSHA_CL (R212): SHA-512 compression through the SHA-2 port. -/
  | vshaCl (x : IsaX)
  /-- CBLK_E (R213): Encrypts a block in the cipher core. -/
  | cblkE (x : IsaX)
  /-- CBLK_D (R213): Decrypts a block in the cipher core. -/
  | cblkD (x : IsaX)
  /-- CGH_INIT (R213): Computes the GHASH key H in the cipher core. -/
  | cghInit (x : IsaX)
  /-- CGHASH (R213): One GHASH multiplication step. -/
  | cghash (x : IsaX)
  /-- KLD_A (R214): Lands the next row of KEY_A material. -/
  | kldA (x : IsaX)
  /-- KLD_B (R214): Lands the next row of KEY_B material. -/
  | kldB (x : IsaX)
  /-- KLD_CA (R214): Loads KEY_A into the cipher core. -/
  | kldCa (x : IsaX)
  /-- KLD_CB (R214): Loads KEY_B into the cipher core. -/
  | kldCb (x : IsaX)
  /-- KPUT (R214): Returns secret row bytes as key material over the key path. -/
  | kput (x : IsaX)
  /-- VIN (R215): Reads the next 28 input bytes. -/
  | vin (x : IsaX)
  /-- VAUX (R215): Reads the next 28 auxiliary bytes. -/
  | vaux (x : IsaX)
  /-- VOUT (R215): Appends public bytes to output staging. -/
  | vout (x : IsaX)
  /-- VCONV_AB (R216): Converts an arithmetic sharing to Boolean. -/
  | vconvAb (x : IsaX)
  /-- VCONV_BA (R216): Converts a Boolean sharing to arithmetic. -/
  | vconvBa (x : IsaX)
  /-- SCONV_AB (R216): Scalar arithmetic-to-Boolean conversion. -/
  | sconvAb (x : IsaX)
  /-- SCONV_BA (R216): Scalar Boolean-to-arithmetic conversion. -/
  | sconvBa (x : IsaX)
  /-- VREMASK (R216): Refreshes the masks of a value. -/
  | vremask (x : IsaX)
  /-- VTAINT (R216): Marks a register secret. -/
  | vtaint (x : IsaX)
  /-- STAINT (R216): Marks a scalar secret. -/
  | staint (x : IsaX)
  /-- VRAND (R216): Draws a fresh row from the fountain. -/
  | vrand (x : IsaX)
  /-- VDECL (R163): Recombines a secret source and appends it to staging at a listed declassify point. -/
  | vdecl (x : IsaX)
  /-- SDECL (R163): Recombines a secret scalar into a public one at a listed declassify point. -/
  | sdecl (x : IsaX)
  /-- FCMP (R218): Compares bytes on two comparators and updates the compare pair. -/
  | fcmp (x : IsaX)
  /-- RNG_READ_DONE (R316): An RNG_READ has generated all its bytes at 1 GB/s and its completion is released IMMEDIATE. -/
  | rngReadDone
  /-- COMPLETION_TIMEOUT (R56): A host read that receives no completion within the PCIe completion timeout ends its command with DMA_ERROR. -/
  | completionTimeout (job : Nat)
  /-- LODGE_FAULT (R381): A fault in partition 0, the hypervisor or the keeper world is a Lodge fault and a full reset with cause LODGE_FAULT is requested. -/
  | lodgeFault
  /-- RESET_N_RISE (R494): RESET_N rises, so a full reset held at step 2 continues, or a power-up held at boot step 1 proceeds. -/
  | resetNRise
  /-- PERST_N_RISE (R60): PERST_N rises to end a conventional reset; the link trains and configuration space is ready 20 ms later. -/
  | perstNRise (width : Fin 16) (speed : Fin 8)
  /-- CELL_LOW (R412): With main power present VBAT falls below 2.2 V and PEAT_STATUS.CELL_LOW and TMP_INT_STATUS.CELL_LOW are set. -/
  | cellLow (mv : Nat)
  /-- OTS_STALL_END (R136): A command held in the gatehouse because its meter-path advance would exceed 5 M/s or 2 M/s proceeds once the rate allows it. -/
  | otsStallEnd
  /-- POOL_HORIZON_RESUME (R285): The pool's committed load falls to 65,536 × E_bn and the arbiter again serves queues headed by a pool command. -/
  | poolHorizonResume
  /-- BOUNDARY_SCAN (R431): With the BOUNDARY right open, the TAP executes SAMPLE/PRELOAD or EXTEST. -/
  | boundaryScan (extest : Bool) (bits : Bytes)
  /-- DEBUG_HALT (R431): With VISITOR_HALT or KEEPER_HALT open, the probe halts, steps or accesses registers of a Lodge core. -/
  | debugHalt (core : Fin 8) (op : Fin 4)
  /-- SCAN_CHAIN (R431): With the SCAN right open, the probe shifts the internal scan chains. -/
  | scanChain (bits : Nat)
deriving DecidableEq, Repr

end Sys2Proof
end

