-- ==== Sys2Proof/Machine/Table.lean ====
section
/-! DEFINITION. The operations on sparse tables and byte strings, shared by every block. -/

namespace Sys2Proof.Machine

/-- The value at index `k`: the listed one, else the default of that index. -/
def kget {α : Type} (d : Nat → α) : KMap α → Nat → α
  | [], k => d k
  | (j, v) :: r, k => if k = j then v else kget d r k

/-- Put `v` at `k` without looking at the default: the entry replaces the one at `k` or is inserted in order. -/
def kins {α : Type} : KMap α → Nat → α → KMap α
  | [], k, v => [(k, v)]
  | (j, w) :: r, k, v =>
      if k = j then (k, v) :: r else if k < j then (k, v) :: (j, w) :: r else (j, w) :: kins r k v

/-- Remove the entry at `k`. -/
def kdel {α : Type} : KMap α → Nat → KMap α
  | [], _ => []
  | (j, w) :: r, k => if k = j then kdel r k else (j, w) :: kdel r k

/-- Write `v` at `k`, keeping the canonical form: a default value is not listed. -/
def kset {α : Type} [DecidableEq α] (d : Nat → α) (m : KMap α) (k : Nat) (v : α) : KMap α :=
  if v = d k then kdel m k else kins m k v

/-- Update the value at `k` by a function. -/
def kmod {α : Type} [DecidableEq α] (d : Nat → α) (m : KMap α) (k : Nat) (f : α → α) : KMap α :=
  kset d m k (f (kget d m k))

/-- Indices strictly rising, each above the bound `lo`. -/
def ksorted {α : Type} : KMap α → Nat → Bool
  | [], _ => true
  | (j, _) :: r, lo => decide (lo ≤ j) && ksorted r (j + 1)

/-- The canonical form: sorted, and no entry equal to the default of its index. -/
def kwf {α : Type} [DecidableEq α] (d : Nat → α) (m : KMap α) : Bool :=
  ksorted m 0 && m.all (fun p => decide (p.2 ≠ d p.1))

/-- An optional entry: tables whose unlisted indices are empty. -/
def kfind {α : Type} : KMap α → Nat → Option α
  | [], _ => none
  | (j, v) :: r, k => if k = j then some v else kfind r k

/-- Apply `f` to every listed value. -/
def kmap {α : Type} (f : Nat → α → α) : KMap α → KMap α
  | [] => []
  | (j, v) :: r => (j, f j v) :: kmap f r

/-- Keep the entries that satisfy `p`. -/
def kfilter {α : Type} (p : Nat → α → Bool) (m : KMap α) : KMap α :=
  m.filter (fun e => p e.1 e.2)

/-- The least index from `lo` on, at most `fuel` tries, that is not listed. -/
def kfresh {α : Type} (m : KMap α) (lo : Nat) : Nat → Option Nat
  | 0 => none
  | f + 1 => match kfind m lo with
    | none => some lo
    | some _ => kfresh m (lo + 1) f

/-- Saturating increment of an n-bit counter. -/
def satInc (n c : Nat) : Nat := if c + 1 < 2 ^ n then c + 1 else 2 ^ n - 1

/-- Saturating addition of an n-bit counter. -/
def satAdd (n c k : Nat) : Nat := if c + k < 2 ^ n then c + k else 2 ^ n - 1

/-- The number a little-endian byte string spells. -/
def leNat : Bytes → Nat
  | [] => 0
  | b :: r => b.toNat + 256 * leNat r

/-- The number a big-endian byte string spells. -/
def beNat (b : Bytes) : Nat := b.foldl (fun n x => 256 * n + x.toNat) 0

/-- `n` bytes of `v`, least significant first. -/
def leBytes : Nat → Nat → Bytes
  | 0, _ => []
  | n + 1, v => BitVec.ofNat 8 (v % 256) :: leBytes n (v / 256)

/-- `n` bytes of `v`, most significant first. -/
def beBytes (n v : Nat) : Bytes := (leBytes n v).reverse

/-- The bits [hi:lo] of a number. -/
def bitsOf (v hi lo : Nat) : Nat := (v >>> lo) % 2 ^ (hi + 1 - lo)

/-- Bit `i` of a number. -/
def bitOf (v i : Nat) : Bool := v.testBit i

/-- `n` bytes of `b` from offset `off` as a little-endian number (bytes beyond the end read zero). -/
def leAt (b : Bytes) (off n : Nat) : Nat := leNat ((b.drop off).take n)

/-- `n` bytes of `b` from offset `off` as a big-endian number. -/
def beAt (b : Bytes) (off n : Nat) : Nat := beNat ((b.drop off).take n)

/-- A byte string of exactly `n` bytes: cut, or filled with zeros on the right. -/
def padTo (n : Nat) (b : Bytes) : Bytes := (b ++ List.replicate (n - b.length) 0).take n

/-- Bitwise exclusive or of two byte strings, up to the shorter. -/
def xorBytes (a b : Bytes) : Bytes := List.zipWith (fun x y => x ^^^ y) a b

/-- The bytes of an ASCII string. -/
def ascii (s : String) : Bytes := s.toList.map (fun c => BitVec.ofNat 8 c.toNat)

/-- One bit as a number. -/
def b2n (b : Bool) : Nat := if b then 1 else 0

/-- `a / b` rounded up. -/
def ceilDiv (a b : Nat) : Nat := if b = 0 then 0 else (a + b - 1) / b

end Sys2Proof.Machine
end

