-- ==== Sys2Proof/Machine/Aes.lean ====
section
/-! DEFINITION. AES of FIPS 197 with its modes (CBC, CTR, GCM, CMAC): the computation of an engine's cipher core
(R13, R213) and of the SYM opcodes (chapter 09). Blocks are byte strings of 16 bytes. -/

namespace Sys2Proof.Machine

/-- The AES S-box, packed: byte i is bits [8i + 7 : 8i]. -/
def sboxTab : Nat :=
  0x16BB54B00F2D99416842E6BF0D89A18CDF2855CEE9871E9B948ED9691198F8E19E1DC186B95735610EF6034866B53E708A8BBD4B1F74DDE8C6B4A61C2E2578BA08AE7A65EAF4566CA94ED58D6D37C8E779E4959162ACD3C25C2406490A3A32E0DB0B5EDE14B8EE4688902A22DC4F816073195D643D7EA7C41744975FEC130CCDD2F3FF1021DAB6BCF5389D928F40A351A89F3C507F02F94585334D43FBAAEFD0CF584C4A39BECB6A5BB1FC20ED00D153842FE329B3D63B52A05A6E1B1A2C830975B227EBE28012079A059618C323C7041531D871F1E5A534CCF73F362693FDB7C072A49CAFA2D4ADF04759FA7DC982CA76ABD7FE2B670130C56F6BF27B777C63

/-- The inverse AES S-box, packed: byte i is bits [8i + 7 : 8i]. -/
def isboxTab : Nat :=
  0x7D0C2155631469E126D677BA7E042B17619953833CBBEBC8B0F52AAE4D3BE0A0EF9CC9939F7AE52D0D4AB519A97F51605FEC8027591012B131C7078833A8DD1FF45ACD78FEC0DB9A2079D2C64B3E56FC1BBE18AA0E62B76F89C5291D711AF1476EDF751CE837F9E28535ADE72274AC9673E6B4F0CECFF297EADC674F4111913A6B8A130103BDAFC1020F3FCA8F1E2CD00645B3B80558E4F70AD3BC8C00ABD890849D8DA75746155EDAB9EDFD5048706C92B6655DCC5CA4D41698688664F6F87225D18B6D49A25B76B224D92866A12E084EC3FA420B954CEE3D23C2A632947B54CBE9DEC444438E3487FF2F9B8239E37CFBD7F3819EA340BF38A53630D56A0952

def sbox (x : Byte) : Byte := BitVec.ofNat 8 (sboxTab >>> (8 * x.toNat))
def isbox (x : Byte) : Byte := BitVec.ofNat 8 (isboxTab >>> (8 * x.toNat))

/-- Multiply by x in the AES field. -/
def xtime (a : Byte) : Byte := if a.getLsbD 7 then (a <<< 1) ^^^ 0x1B else a <<< 1

def aesMulGo : Nat → Byte → Nat → Byte → Byte
  | 0, _, _, acc => acc
  | n + 1, a, k, acc => aesMulGo n (xtime a) (k / 2) (if k % 2 = 1 then acc ^^^ a else acc)

/-- Product of a state byte and a small constant. -/
def aesMul (k : Nat) (a : Byte) : Byte := aesMulGo 4 a k 0

/-- The next 4-byte word of the key schedule; words held newest first, `nk` key words, index `i`. -/
def nextKeyWord (nk i : Nat) (rcon : Byte) (ws : List Bytes) : Bytes :=
  let t := ws.getD 0 []
  let t' := if i % nk = 0 then xorBytes ((t.drop 1 ++ t.take 1).map sbox) [rcon, 0, 0, 0]
            else if nk > 6 ∧ i % nk = 4 then t.map sbox else t
  xorBytes (ws.getD (nk - 1) []) t'

def keyWordsGo (nk : Nat) : Nat → Nat → Byte → List Bytes → List Bytes
  | 0, _, _, ws => ws
  | n + 1, i, rcon, ws =>
      keyWordsGo nk n (i + 1) (if i % nk = 0 then xtime rcon else rcon) (nextKeyWord nk i rcon ws :: ws)

/-- Split into chunks of `k` bytes, `n` of them. -/
def chunks (k : Nat) : Nat → Bytes → List Bytes
  | 0, _ => []
  | n + 1, b => b.take k :: chunks k n (b.drop k)

/-- The round keys, 16 bytes each, first round first. -/
def aesRoundKeys (key : Bytes) : List Bytes :=
  let nk := key.length / 4
  let ws := (keyWordsGo nk (4 * (nk + 7) - nk) nk 1 (chunks 4 nk key).reverse).reverse
  chunks 16 (nk + 7) ws.flatten

def shiftRows (s : Bytes) : Bytes := (List.range 16).map (fun i => s.getD ((i + 4 * (i % 4)) % 16) 0)
def invShiftRows (s : Bytes) : Bytes := (List.range 16).map (fun i => s.getD ((i + 12 * (i % 4)) % 16) 0)

/-- MixColumns with the circulant row `m`. -/
def mixCols (m : List Nat) (s : Bytes) : Bytes :=
  (List.range 16).map (fun i =>
    let c := 4 * (i / 4)
    (List.range 4).foldl (fun acc j => acc ^^^ aesMul (m.getD ((j + 4 - i % 4) % 4) 0) (s.getD (c + j) 0)) 0)

def aesRoundsGo : List Bytes → Bytes → Bytes
  | [], s => s
  | [k], s => xorBytes (shiftRows (s.map sbox)) k
  | k :: ks, s => aesRoundsGo ks (xorBytes (mixCols [2, 3, 1, 1] (shiftRows (s.map sbox))) k)

/-- AES encryption of one block. -/
def aesEnc (key blk : Bytes) : Bytes :=
  match aesRoundKeys key with
  | [] => blk
  | k :: ks => aesRoundsGo ks (xorBytes blk k)

def aesInvGo : List Bytes → Bytes → Bytes
  | [], s => s
  | [k], s => xorBytes ((invShiftRows s).map isbox) k
  | k :: ks, s => aesInvGo ks (mixCols [14, 11, 13, 9] (xorBytes ((invShiftRows s).map isbox) k))

/-- AES decryption of one block. -/
def aesDec (key blk : Bytes) : Bytes :=
  match (aesRoundKeys key).reverse with
  | [] => blk
  | k :: ks => aesInvGo ks (xorBytes blk k)

/-! Modes over a block function -/

/-- CBC encryption of `n` blocks of `k` bytes. -/
def cbcEnc (f : Bytes → Bytes) (k : Nat) : Nat → Bytes → Bytes → Bytes
  | 0, _, _ => []
  | n + 1, iv, m =>
      let c := f (xorBytes iv (m.take k))
      c ++ cbcEnc f k n c (m.drop k)

/-- CBC decryption of `n` blocks. -/
def cbcDec (g : Bytes → Bytes) (k : Nat) : Nat → Bytes → Bytes → Bytes
  | 0, _, _ => []
  | n + 1, iv, m => xorBytes iv (g (m.take k)) ++ cbcDec g k n (m.take k) (m.drop k)

/-- Counter mode: `n` key-stream blocks from the counter block `c`; the last 4 bytes count. -/
def ctrStream (f : Bytes → Bytes) : Nat → Bytes → Bytes
  | 0, _ => []
  | n + 1, c => f c ++ ctrStream f n (c.take 12 ++ beBytes 4 ((beAt c 12 4 + 1) % 2 ^ 32))

/-- Counter mode with a 128-bit counter. -/
def ctrStream128 (f : Bytes → Bytes) : Nat → Bytes → Bytes
  | 0, _ => []
  | n + 1, c => f c ++ ctrStream128 f n (beBytes 16 ((beNat c + 1) % 2 ^ 128))

/-- Doubling of CMAC in a field of `8k` bits with constant `r`. -/
def cmacDouble (k r : Nat) (b : Bytes) : Bytes :=
  let v := beNat b
  let d := (v <<< 1) % 2 ^ (8 * k)
  beBytes k (if v.testBit (8 * k - 1) then d ^^^ r else d)

/-- The CBC-MAC chain over `n` blocks. -/
def cbcMac (f : Bytes → Bytes) (k : Nat) : Nat → Bytes → Bytes → Bytes
  | 0, x, _ => x
  | n + 1, x, m => cbcMac f k n (f (xorBytes x (m.take k))) (m.drop k)

/-- CMAC of SP 800-38B with block size `k` (16: r = 0x87, 8: r = 0x1B). -/
def cmac (f : Bytes → Bytes) (k : Nat) (m : Bytes) : Bytes :=
  let r := if k = 16 then 0x87 else 0x1B
  let k1 := cmacDouble k r (f (List.replicate k 0))
  let k2 := cmacDouble k r k1
  let n := if m.length = 0 then 1 else ceilDiv m.length k
  let last := m.drop (k * (n - 1))
  let fin := if last.length = k then xorBytes last k1
             else xorBytes (padTo k (last ++ [0x80])) k2
  f (xorBytes (cbcMac f k (n - 1) (List.replicate k 0) m) fin)

/-! GHASH of SP 800-38D: the bit of x^i is bit 127 − i of the big-endian number -/

def ghMulGo : Nat → Nat → Nat → Nat → Nat
  | 0, _, _, z => z
  | n + 1, x, v, z =>
      ghMulGo n x (if v % 2 = 1 then (v >>> 1) ^^^ (0xE1 <<< 120) else v >>> 1)
        (if x.testBit n then z ^^^ v else z)

/-- Product in the GCM field. -/
def ghMul (x h : Nat) : Nat := ghMulGo 128 x h 0

/-- One GHASH step on blocks: (y XOR x) • h. -/
def ghashStep (h y x : Bytes) : Bytes := beBytes 16 (ghMul (beNat (xorBytes y x)) (beNat h))

/-- GHASH over `n` blocks of a zero-filled string. -/
def ghashGo (h : Bytes) : Nat → Bytes → Bytes → Bytes
  | 0, y, _ => y
  | n + 1, y, m => ghashGo h n (ghashStep h y (padTo 16 (m.take 16))) (m.drop 16)

/-- The GCM tag (16 bytes) over additional data and ciphertext, with a 12-byte IV. -/
def gcmTag (f : Bytes → Bytes) (iv aad c : Bytes) : Bytes :=
  let h := f (List.replicate 16 0)
  let y1 := ghashGo h (ceilDiv aad.length 16) (List.replicate 16 0) aad
  let y2 := ghashGo h (ceilDiv c.length 16) y1 c
  let y3 := ghashStep h y2 (beBytes 8 (8 * aad.length) ++ beBytes 8 (8 * c.length))
  xorBytes y3 (f (iv ++ [0, 0, 0, 1]))

/-- GCM counter encryption or decryption with a 12-byte IV. -/
def gcmCtr (f : Bytes → Bytes) (iv m : Bytes) : Bytes :=
  xorBytes m (ctrStream f (ceilDiv m.length 16) (iv ++ [0, 0, 0, 2]))

end Sys2Proof.Machine
end

