-- ==== Sys2Proof/Machine/Drbg.lean ====
section
/-! DEFINITION. CTR_DRBG with AES-256 and the derivation function (SP 800-90A, as R308 names it) and the conditioning
register of R306. -/

namespace Sys2Proof.Machine

/-- The next counter block: V + 1 modulo 2^128. -/
def incV (v : Bytes) : Bytes := beBytes 16 ((beNat v + 1) % 2 ^ 128)

/-- `k` output blocks, and the counter after them. -/
def ctrBlocks (key : Bytes) : Nat → Bytes → Bytes × Bytes
  | 0, v => ([], v)
  | k + 1, v =>
      let v' := incV v
      let r := ctrBlocks key k v'
      (aesEnc key v' ++ r.1, r.2)

/-- CTR_DRBG_Update: new key and counter from 48 bytes of provided data. -/
def drbgUpdate (key v data : Bytes) : Bytes × Bytes :=
  let t := xorBytes ((ctrBlocks key 3 v).1) data
  (t.take 32, t.drop 32)

/-- BCC of the derivation function. -/
def bccGo (key : Bytes) : Nat → Bytes → Bytes → Bytes
  | 0, _, c => c
  | k + 1, d, c => bccGo key k (d.drop 16) (aesEnc key (xorBytes c (d.take 16)))

/-- Block_Cipher_df to 48 bytes. -/
def drbgDf (input : Bytes) : Bytes :=
  let s0 := beBytes 4 input.length ++ beBytes 4 48 ++ input ++ [0x80]
  let s := padTo (16 * ceilDiv s0.length 16) s0
  let k0 : Bytes := (List.range 32).map (fun i => BitVec.ofNat 8 i)
  let t := (List.range 3).flatMap (fun i =>
    let d := beBytes 4 i ++ List.replicate 12 0 ++ s
    bccGo k0 (d.length / 16) d (List.replicate 16 0))
  let key := t.take 32
  let x0 := (t.drop 32).take 16
  let x1 := aesEnc key x0
  let x2 := aesEnc key x1
  x1 ++ x2 ++ aesEnc key x2

/-- Instantiate from entropy, nonce and personalisation string. -/
def drbgInstantiate (entropy nonce pers : Bytes) : Bytes × Bytes :=
  drbgUpdate (List.replicate 32 0) (List.replicate 16 0) (drbgDf (entropy ++ nonce ++ pers))

/-- Reseed with empty additional input. -/
def drbgReseed (key v entropy : Bytes) : Bytes × Bytes := drbgUpdate key v (drbgDf entropy)

/-- One generate request with empty additional input: output, new key, new counter. -/
def drbgGenerate (key v : Bytes) (n : Nat) : Bytes × Bytes × Bytes :=
  let r := ctrBlocks key (ceilDiv n 16) v
  let kv := drbgUpdate key r.2 (List.replicate 48 0)
  (r.1.take n, kv.1, kv.2)

/-- One step of the conditioning register with a group of four raw bits (R306). -/
def foldStep (r : BitVec 256) (x : Bool) : BitVec 256 :=
  let f := r.getLsbD 255 ^^ (r.getLsbD 9 ^^ (r.getLsbD 4 ^^ r.getLsbD 1))
  (r <<< 1) ||| (if f ^^ x then 1 else 0)

/-- Bit `k` of a sample string: bit k mod 8 of byte k div 8. -/
def sampleBit (b : Bytes) (k : Nat) : Bool := (b.getD (k / 8) 0).getLsbD (k % 8)

/-- The exclusive or of group `g` of four samples. -/
def groupBit (b : Bytes) (g : Nat) : Bool :=
  sampleBit b (4 * g) ^^ (sampleBit b (4 * g + 1) ^^ (sampleBit b (4 * g + 2) ^^ sampleBit b (4 * g + 3)))

/-- Fold groups into the register: register, count, blocks appended in order. -/
def foldGroups (b : Bytes) : List Nat → BitVec 256 × Nat × List (BitVec 256) → BitVec 256 × Nat × List (BitVec 256)
  | [], st => st
  | g :: gs, (r, n, bl) =>
      let r' := foldStep r (groupBit b g)
      foldGroups b gs (if n + 1 = 256 then (r', 0, bl ++ [r']) else (r', n + 1, bl))

/-- The bits that enter at r[0], one for each group, in order: the register's output in raw-sample mode (R319). -/
def foldBits (b : Bytes) : List Nat → BitVec 256 → List Bool
  | [], _ => []
  | g :: gs, r =>
      let r' := foldStep r (groupBit b g)
      r'.getLsbD 0 :: foldBits b gs r'

/-! The health tests of R303 over a window of 1,024 samples -/

/-- The longest run of identical bits. -/
def longestRun : List Bool → Bool → Nat → Nat → Nat
  | [], _, cur, best => max cur best
  | x :: r, last, cur, best => if x = last then longestRun r last (cur + 1) best else longestRun r x 1 (max cur best)

/-- Occurrences of the window's first bit. -/
def proportion (l : List Bool) : Nat :=
  match l with
  | [] => 0
  | x :: _ => l.countP (fun y => y == x)

/-- The test a window fails first: 0 none, 1 repetition, 2 proportion, 3 alive, 4 pair-lock. -/
def windowTest (bits : List Bool) (alive beat : Nat) : Nat :=
  if 41 ≤ longestRun bits true 0 0 then 1
  else if 794 ≤ proportion bits then 2
  else if alive < 8 then 3
  else if beat < 512 then 4
  else 0

end Sys2Proof.Machine
end

