-- ==== Sys2Proof/Machine/Des.lean ====
section
/-! DEFINITION. DES and TDEA of FIPS 46-3 and SP 800-67: the cipher core under a TDEA key (R213) and the payment
functions (chapter 09). Blocks are byte strings of 8 bytes; bit 1 of the standard is the most significant. -/

namespace Sys2Proof.Machine

/-- Initial permutation. -/
def desIP : List Nat :=
  [58, 50, 42, 34, 26, 18, 10, 2, 60, 52, 44, 36, 28, 20, 12, 4] ++
  [62, 54, 46, 38, 30, 22, 14, 6, 64, 56, 48, 40, 32, 24, 16, 8] ++
  [57, 49, 41, 33, 25, 17, 9, 1, 59, 51, 43, 35, 27, 19, 11, 3] ++
  [61, 53, 45, 37, 29, 21, 13, 5, 63, 55, 47, 39, 31, 23, 15, 7]

/-- Final permutation. -/
def desFP : List Nat :=
  [40, 8, 48, 16, 56, 24, 64, 32, 39, 7, 47, 15, 55, 23, 63, 31] ++
  [38, 6, 46, 14, 54, 22, 62, 30, 37, 5, 45, 13, 53, 21, 61, 29] ++
  [36, 4, 44, 12, 52, 20, 60, 28, 35, 3, 43, 11, 51, 19, 59, 27] ++
  [34, 2, 42, 10, 50, 18, 58, 26, 33, 1, 41, 9, 49, 17, 57, 25]

/-- Expansion. -/
def desE : List Nat :=
  [32, 1, 2, 3, 4, 5, 4, 5, 6, 7, 8, 9, 8, 9, 10, 11] ++
  [12, 13, 12, 13, 14, 15, 16, 17, 16, 17, 18, 19, 20, 21, 20, 21] ++
  [22, 23, 24, 25, 24, 25, 26, 27, 28, 29, 28, 29, 30, 31, 32, 1]

/-- Permutation of the round function. -/
def desP : List Nat :=
  [16, 7, 20, 21, 29, 12, 28, 17, 1, 15, 23, 26, 5, 18, 31, 10] ++
  [2, 8, 24, 14, 32, 27, 3, 9, 19, 13, 30, 6, 22, 11, 4, 25]

/-- Permuted choice 1. -/
def desPC1 : List Nat :=
  [57, 49, 41, 33, 25, 17, 9, 1, 58, 50, 42, 34, 26, 18, 10, 2] ++
  [59, 51, 43, 35, 27, 19, 11, 3, 60, 52, 44, 36, 63, 55, 47, 39] ++
  [31, 23, 15, 7, 62, 54, 46, 38, 30, 22, 14, 6, 61, 53, 45, 37] ++
  [29, 21, 13, 5, 28, 20, 12, 4]

/-- Permuted choice 2. -/
def desPC2 : List Nat :=
  [14, 17, 11, 24, 1, 5, 3, 28, 15, 6, 21, 10, 23, 19, 12, 4] ++
  [26, 8, 16, 7, 27, 20, 13, 2, 41, 52, 31, 37, 47, 55, 30, 40] ++
  [51, 45, 33, 48, 44, 49, 39, 56, 34, 53, 46, 42, 50, 36, 29, 32]

/-- Left shifts of the key halves. -/
def desShifts : List Nat :=
  [1, 1, 2, 2, 2, 2, 2, 2, 1, 2, 2, 2, 2, 2, 2, 1]

/-- The eight S-boxes, 64 entries each, packed four bits to an entry (row-major). -/
def desS : List Nat :=
  [0xD60AE3B5719428CF05A379CFB26D8E148359BC6A1D2E47F07095C6A38BF21D4E,
   0x9E50C76B24F31A8DF2396C851D4AB7E05B96A10CE82F74D3A50CD27943B6E81F,
   0xC25B3EF478960DA17EA5C21B03F8946D1FBCE582A643907D824B7CD15F36E90A,
   0xE27CB5498D1A60F34825E31FD7BC096A9EA1C27430F65B8DF4CB5821A9603ED7,
   0x354A90F6D2E17C8BE0365C9F87DAB1246893AF051D74C2BE9E0DF3586BA714C2,
   0xD80671EBAF59C2346BD1A4073C825FE983B0ED1659C724FAB57E43D08629FA1C,
   0xC32EF0597A418DB6295086FAE73CDB4168F2C53EA1947B0D16A579C3D80FE2B4,
   0xB65309CFD8A47E12853FDA602EC914B729E0B65C473A8DF17C05E39A1BF6482D]

/-- Permute the bits of an `n`-bit number: output bit k (from the most significant) is input bit `tab k`. -/
def desPerm (n : Nat) (tab : List Nat) (v : Nat) : Nat :=
  tab.foldl (fun acc k => 2 * acc + (v >>> (n - k)) % 2) 0

def rotl28 (v n : Nat) : Nat := ((v <<< n) ||| (v >>> (28 - n))) % 2 ^ 28

def desKeysGo : List Nat → Nat → Nat → List Nat
  | [], _, _ => []
  | s :: r, c, d =>
      let c' := rotl28 c s
      let d' := rotl28 d s
      desPerm 56 desPC2 (c' * 2 ^ 28 + d') :: desKeysGo r c' d'

/-- The 16 round keys. -/
def desKeys (key : Nat) : List Nat :=
  let k := desPerm 64 desPC1 key
  desKeysGo desShifts (k / 2 ^ 28) (k % 2 ^ 28)

/-- S-box `i` on six bits. -/
def desSub (i x : Nat) : Nat :=
  let row := 2 * (x / 32) + x % 2
  let col := (x / 2) % 16
  (desS.getD i 0 >>> (4 * (16 * row + col))) % 16

/-- The round function. -/
def desF (r k : Nat) : Nat :=
  let x := desPerm 32 desE r ^^^ k
  desPerm 32 desP ((List.range 8).foldl (fun acc i => 16 * acc + desSub i ((x >>> (42 - 6 * i)) % 64)) 0)

def desRounds (ks : List Nat) (lr : Nat × Nat) : Nat × Nat :=
  ks.foldl (fun p k => (p.2, p.1 ^^^ desF p.2 k)) lr

def desCore (ks : List Nat) (v : Nat) : Nat :=
  let x := desPerm 64 desIP v
  let p := desRounds ks (x / 2 ^ 32, x % 2 ^ 32)
  desPerm 64 desFP (p.2 * 2 ^ 32 + p.1)

def desEnc (key blk : Bytes) : Bytes := beBytes 8 (desCore (desKeys (beNat key)) (beNat blk))
def desDec (key blk : Bytes) : Bytes := beBytes 8 (desCore (desKeys (beNat key)).reverse (beNat blk))

/-- The three component keys: two-key TDEA repeats the first (16-byte key), a single key gives DES. -/
def tdeaParts (key : Bytes) : Bytes × Bytes × Bytes :=
  (key.take 8, if key.length ≥ 16 then (key.drop 8).take 8 else key.take 8,
   if key.length ≥ 24 then (key.drop 16).take 8 else key.take 8)

def tdeaEnc (key blk : Bytes) : Bytes :=
  let k := tdeaParts key
  desEnc k.2.2 (desDec k.2.1 (desEnc k.1 blk))

def tdeaDec (key blk : Bytes) : Bytes :=
  let k := tdeaParts key
  desDec k.1 (desEnc k.2.1 (desDec k.2.2 blk))

/-- Odd parity on every byte of a DES key. -/
def oddParity (b : Bytes) : Bytes :=
  b.map (fun x => if ((List.range 8).filter (fun i => x.getLsbD i)).length % 2 = 1 then x else x ^^^ 1)

end Sys2Proof.Machine
end

