-- ==== Sys2Proof/Machine/Keccak.lean ====
section
/-! DEFINITION. Keccak-f[1600] and the SHA-3 functions of FIPS 202, cSHAKE and KMAC256 of SP 800-185: the
computation of the Keccak cores (R13, R211), of the digest opcodes (chapter 09) and of the authority tag (R97).
A state is 25 lanes of 64 bits, lane x + 5y first. -/

namespace Sys2Proof.Machine

/-- Rotate a number of `w` bits left. -/
def rolW (w v n : Nat) : Nat := ((v <<< (n % w)) ||| (v >>> (w - n % w))) % 2 ^ w

/-- The rotation offsets of ρ, by lane. -/
def rhoOff : List Nat :=
  [0, 1, 62, 28, 27, 36, 44, 6, 55, 20, 3, 10, 43, 25, 39, 41, 45, 15, 21, 8, 18, 2, 61, 56, 14]

/-- The round constants of ι. -/
def iotaRc : List Nat :=
  [0x0000000000000001, 0x0000000000008082, 0x800000000000808A, 0x8000000080008000,
   0x000000000000808B, 0x0000000080000001, 0x8000000080008081, 0x8000000000008009] ++
  [0x000000000000008A, 0x0000000000000088, 0x0000000080008009, 0x000000008000000A,
   0x000000008000808B, 0x800000000000008B, 0x8000000000008089, 0x8000000000008003] ++
  [0x8000000000008002, 0x8000000000000080, 0x000000000000800A, 0x800000008000000A,
   0x8000000080008081, 0x8000000000008080, 0x0000000080000001, 0x8000000080008008]

/-- One round on 25 lanes of `w` bits with round constant `rc`. -/
def keccakRoundW (w : Nat) (a : List Nat) (rc : Nat) : List Nat :=
  let g := fun i => a.getD i 0
  let c := (List.range 5).map (fun x => g x ^^^ g (x + 5) ^^^ g (x + 10) ^^^ g (x + 15) ^^^ g (x + 20))
  let d := (List.range 5).map (fun x => c.getD ((x + 4) % 5) 0 ^^^ rolW w (c.getD ((x + 1) % 5) 0) 1)
  let t := (List.range 25).map (fun i => rolW w (g i ^^^ d.getD (i % 5) 0) (rhoOff.getD i 0))
  -- π: the lane that lands at (x, y) comes from (x + 3y, x)
  let b := (List.range 25).map (fun i => t.getD ((i % 5 + 3 * (i / 5)) % 5 + 5 * (i % 5)) 0)
  let h := fun i => b.getD i 0
  let e := (List.range 25).map (fun i =>
    let x := i % 5
    let y := i / 5
    h i ^^^ ((h ((x + 1) % 5 + 5 * y) ^^^ (2 ^ w - 1)) &&& h ((x + 2) % 5 + 5 * y)))
  match e with
  | [] => []
  | z :: r => (z ^^^ rc) :: r

/-- One round of Keccak-f[1600]. -/
def keccakRound (a : List Nat) (rc : Nat) : List Nat := keccakRoundW 64 a rc

/-- Keccak-p[800, 12] on a 100-byte state: the last 12 of the 22 rounds of Keccak-f[800], on lanes of 32 bits (R168). -/
def keccakP800 (b : Bytes) : Bytes :=
  (((iotaRc.drop 10).take 12).foldl (fun a rc => keccakRoundW 32 a (rc % 2 ^ 32))
    ((List.range 25).map (fun i => leAt b (4 * i) 4))).flatMap (leBytes 4)

/-- Keccak-f[1600]: 24 rounds. -/
def keccakF (a : List Nat) : List Nat := iotaRc.foldl keccakRound a

/-- The 25 lanes of a 200-byte string. -/
def bytesLanes (b : Bytes) : List Nat := (List.range 25).map (fun i => leAt b (8 * i) 8)

/-- The 200 bytes of 25 lanes. -/
def lanesBytes (a : List Nat) : Bytes := a.flatMap (leBytes 8)

/-- Keccak-f on a 200-byte state. -/
def keccakBytes (b : Bytes) : Bytes := lanesBytes (keccakF (bytesLanes b))

/-- Absorb whole blocks of `rate` bytes. -/
def absorb (rate : Nat) : Nat → Bytes → List Nat → List Nat
  | 0, _, a => a
  | n + 1, m, a =>
      let blk := bytesLanes (padTo 200 (m.take rate))
      absorb rate n (m.drop rate) (keccakF (List.zipWith (· ^^^ ·) a blk))

/-- Squeeze `n` further blocks. -/
def squeeze (rate : Nat) : Nat → List Nat → Bytes
  | 0, _ => []
  | n + 1, a => (lanesBytes a).take rate ++ squeeze rate n (keccakF a)

/-- pad10*1 with the domain suffix byte `dom`. -/
def padKeccak (rate dom : Nat) (m : Bytes) : Bytes :=
  let n := rate - m.length % rate
  if n = 1 then m ++ [BitVec.ofNat 8 (dom ||| 0x80)]
  else m ++ [BitVec.ofNat 8 dom] ++ List.replicate (n - 2) 0 ++ [0x80]

/-- The sponge: message, rate in bytes, domain suffix, output length. -/
def sponge (rate dom : Nat) (m : Bytes) (out : Nat) : Bytes :=
  let p := padKeccak rate dom m
  (squeeze rate (ceilDiv out rate) (absorb rate (p.length / rate) p (List.replicate 25 0))).take out

def sha3_224 (m : Bytes) : Bytes := sponge 144 0x06 m 28
def sha3_256 (m : Bytes) : Bytes := sponge 136 0x06 m 32
def sha3_384 (m : Bytes) : Bytes := sponge 104 0x06 m 48
def sha3_512 (m : Bytes) : Bytes := sponge 72 0x06 m 64
def shake128 (m : Bytes) (out : Nat) : Bytes := sponge 168 0x1F m out
def shake256 (m : Bytes) (out : Nat) : Bytes := sponge 136 0x1F m out

/-- Bytes needed for a number, at least one (SP 800-185 encodings). -/
def byteLen (v : Nat) : Nat := if v < 256 then 1 else if v < 65536 then 2 else if v < 2 ^ 24 then 3 else
  if v < 2 ^ 32 then 4 else if v < 2 ^ 40 then 5 else 8

def leftEncode (v : Nat) : Bytes := BitVec.ofNat 8 (byteLen v) :: beBytes (byteLen v) v
def rightEncode (v : Nat) : Bytes := beBytes (byteLen v) v ++ [BitVec.ofNat 8 (byteLen v)]
def encodeString (b : Bytes) : Bytes := leftEncode (8 * b.length) ++ b

/-- bytepad(x, w). -/
def bytepad (w : Nat) (x : Bytes) : Bytes :=
  let y := leftEncode w ++ x
  y ++ List.replicate ((w - y.length % w) % w) 0

/-- cSHAKE with function name and customisation, at the given rate. -/
def cshake (rate : Nat) (m : Bytes) (out : Nat) (fn cust : Bytes) : Bytes :=
  sponge rate 0x04 (bytepad rate (encodeString fn ++ encodeString cust) ++ m) out

/-- KMAC at the given rate (168 for KMAC128, 136 for KMAC256), output length in bytes. -/
def kmac (rate : Nat) (key m cust : Bytes) (out : Nat) : Bytes :=
  cshake rate (bytepad rate (encodeString key) ++ m ++ rightEncode (8 * out)) out (ascii "KMAC") cust

def kmac128 (key m cust : Bytes) (out : Nat) : Bytes := kmac 168 key m cust out
def kmac256 (key m cust : Bytes) (out : Nat) : Bytes := kmac 136 key m cust out

end Sys2Proof.Machine
end

