-- ==== Sys2Proof/Config.lean ====
section
/-! DEFINITION. What an implementation fixes and the free values: opaque constants without a body, applied to the
counter `State.freeCtr` (a fresh value each time) or to the operands an outside standard's function depends on.
Nothing in Lean can evaluate them; a statement about one holds for every value. Each is named in
notes/assumptions. -/

namespace Sys2Proof.Config

/-! Free values of the fountains and the kiln -/

/-- The block of an engine's fountain that its seed and its counter of mask rows give (R168): how the 800 bits hold them is not
stated. -/
opaque fountainBlock : Bytes → Nat → Bytes
/-- A mask share of a secret in an engine (R165): draw number, place, share. -/
opaque maskShare : Nat → Nat → Nat → Row
/-- Sort keys of the order a fountain draws for a shuffled loop (R167, R196): draw number, iteration. -/
opaque shuffleKey : Nat → Nat → Nat
/-- Mask rows a cipher piece draws: its blocks, its profile (R249: the number is not stated). -/
opaque pieceMasks : Nat → Nat → Nat
/-- Mask rows an instruction draws in a masked profile (R165, R168: the number is not stated). -/
opaque maskRows : Nat → Nat → Nat
/-- Byte `i` of the random string of draw `n` from the kiln (R307). -/
opaque randByte : Nat → Nat → Byte

/-! Free values of the sundial -/

/-- The frequency correction the lock loop settles on after an edge, by its frequency source, TIME_REF or SYSCLK (R31, R36: the
loop is not stated). -/
opaque freqAdj : Nat → Bool → Int → Int
/-- The sub-tick of the present instant within its tick (R39). -/
opaque subtick : Nat → Nat

/-! Free values of the policy -/

/-- Does the device policy require an encrypted link once an ADMIN_POLICY_SET has committed (R63: the field is not
stated)? -/
opaque ideRequired : Nat → Bool

/-! Functions of outside standards that the spec names and does not restate. -/

/-- Does an FN-DSA signature verify? Algorithm code (R127), public key, context, message, signature. -/
opaque sigOk : Nat → Bytes → Bytes → Bytes → Bytes → Bool
/-- An FN-DSA signature: draw number, algorithm, secret key, context, message; and what RSASSA-PSS answers where a modulus has no
room for its encoding (R279: no result is stated). -/
opaque sigMake : Nat → Nat → Bytes → Bytes → Bytes → Bytes
/-- The public key of an FN-DSA, HQC or Classic McEliece secret key, in its standard encoding: algorithm, secret key. -/
opaque pubOf : Nat → Bytes → Bytes
/-- The secret key that FN-DSA, HQC or Classic McEliece key generation makes of the random material it draws: material, algorithm,
further parameter. -/
opaque keyGen : Bytes → Nat → Nat → Bytes
/-- The primes of an RSA key of the random material of its generation, and the bytes of the modulus (R294). -/
opaque rsaPrimes : Bytes → Nat → Nat × Nat
/-- HQC and Classic McEliece encapsulation: draw number, algorithm, public key; ciphertext and shared secret. -/
opaque kemEncaps : Nat → Nat → Bytes → Bytes × Bytes
/-- Their decapsulation with implicit rejection: algorithm, secret key, ciphertext. -/
opaque kemDecaps : Nat → Bytes → Bytes → Bytes
/-- Is an imported HQC or Classic McEliece secret key consistent with its specification (R235)? Algorithm, material. -/
opaque privForm : Nat → Bytes → Bool

/-- The value C of a one-time signature of LMS or HSS (R242: made of the seed and the index, the spec does not say how). -/
opaque otsRandom : Bytes → Nat → Bytes
/-- The random fill of a PIN block (R268): draw, place. -/
opaque pinFill : Nat → Nat → Nat
/-- The bytes of a library manifest that the rules leave open, by identifier (R221, R266): its rows, ports, overlays and the
places of its declassify points. -/
opaque libManifest : Nat → Bytes
/-- The rest of a library package, by identifier: its code, constants and signatures, which MEAS[2] is extended with. -/
opaque libImage : Nat → Bytes
/-- KiB that an overlay of a library program takes in a program cache, and the public row from which the material of a PUBLIC
key lands (R182, R227: not stated). -/
opaque libOverlayKib : Nat → Nat → Nat
opaque libKeyRow : Nat → Nat
/-- What an entry of KNOTE says, by draw: its type, its length, the bytes of its payload (R384: not stated). -/
opaque knoteType : Nat → Nat
opaque knoteLen : Nat → Nat
opaque knotePayload : Nat → Nat → Byte
/-- Images of keeper and command firmware in a slot (R444). -/
opaque fwKeeperImage : Bytes → Bytes
opaque fwCommandImage : Bytes → Bytes
/-- The attestation keys of a life-cycle state (R425, R62): ECDSA P-384 and ML-DSA-87 secret keys, by device identity and
state code. -/
opaque attestEcSk : Bytes → Nat → Bytes
opaque attestMlSk : Bytes → Nat → Bytes
/-- The certificate chain of the ECDSA P-384 attestation key of a state (R62), by device identity and state code. -/
opaque attestChain : Bytes → Nat → Bytes
/-- The responder's share of a secp384r1 exchange (R62), by draw. -/
opaque spdmShare : Nat → Bytes
/-- The identity page of R88 beyond the fields the model holds. -/
opaque identityPage : Nat → Byte

/-- What TIME_STATUS returns (R88: its layout is not stated), by draw. -/
opaque timeStatus : Nat → Bytes

/-- The context of a stream in an image (R258, R365: its layout is not stated): parameter set, additional data, nonce, what
has been absorbed; and taken apart again. -/
opaque ctxPack : Nat → Bytes → Bytes → Bytes → Bytes
opaque ctxUnpack : Bytes → Nat × Bytes × Bytes × Bytes

/-- The vendor's keys in the boot ROM (R180, R428): ECDSA P-384 and ML-DSA-65. -/
opaque vendorEc : Bytes
opaque vendorMl : Bytes
/-- What a granted debug access reads behind a target whose layout is not stated: draw, target, address. -/
opaque debugRead : Nat → Nat → Nat → Nat
/-- Which of the free visitor ways a resident partition gets, by draw (R382 states their number alone). -/
opaque wayChoice : Nat → Nat
/-- What the firmware manifest of a slot says, by the slot's digest: ways of partition 0, less one, and the peripheral windows and
interrupt lines of VISITOR (R382, R383). -/
opaque p0Ways : Bytes → Nat
opaque visitorWindows : Bytes → Nat
opaque visitorLines : Bytes → Nat
/-- How long the burn of a mark takes, and how many of its 8 bits an interrupted burn leaves burned, by draw (R430 bounds the
first at 100 µs and does not state the second). -/
opaque burnTime : Nat → Nat
opaque burnBits : Nat → Nat
/-- Boot ROM version and the version of the keeper firmware in a slot (R502), by the slot's digest. -/
opaque romVersion : BitVec 8
opaque fwVersion : Bytes → BitVec 16
/-- How many ticks the test of a part took at a start (R447, R464: not stated): record number, KIND, INDEX. -/
opaque startTestTicks : Nat → Nat → Nat → Nat

end Sys2Proof.Config
end

