-- ==== Sys2Proof/Machine/Crc.lean ====
section
/-! DEFINITION. The checksums of the spec: CRC-16 of the time and console frames (R32, R108), CRC-32C of event records
(R462). -/

namespace Sys2Proof.Machine

/-- One bit of CRC-16 with polynomial 0x1021, most significant bit first. -/
def crc16Bit (c : Nat) : Nat := if c.testBit 15 then ((c <<< 1) ^^^ 0x1021) % 2 ^ 16 else (c <<< 1) % 2 ^ 16

def crc16Byte (c : Nat) (b : Byte) : Nat :=
  (List.range 8).foldl (fun x _ => crc16Bit x) (c ^^^ (b.toNat <<< 8))

/-- CRC-16: polynomial 0x1021, initial value 0xFFFF, no reflection, no final XOR (R32). -/
def crc16 (m : Bytes) : Nat := m.foldl crc16Byte 0xFFFF

/-- One bit of CRC-32C, reflected. -/
def crc32cBit (c : Nat) : Nat := if c % 2 = 1 then (c >>> 1) ^^^ 0x82F63B78 else c >>> 1

def crc32cByte (c : Nat) (b : Byte) : Nat := (List.range 8).foldl (fun x _ => crc32cBit x) (c ^^^ b.toNat)

/-- CRC-32C (Castagnoli). -/
def crc32c (m : Bytes) : Nat := (m.foldl crc32cByte 0xFFFFFFFF) ^^^ 0xFFFFFFFF

end Sys2Proof.Machine
end

