-- ==== Sys2Proof/Machine/StBoot.lean ====
section
/-! DEFINITION. The state of start-up, reset and shutdown and the flash image: 17_start_up_reset.md R441 to R455 and
R508. -/

namespace Sys2Proof.Machine

/-- The phases of GLB_BOOT (R455). -/
inductive Phase where
  | rom | firmware | selftest | service | shut | halted
deriving DecidableEq, Repr

/-- What kind of start runs. -/
inductive StartKind where
  /-- power-up (R444) -/
  | power
  /-- full reset (R447) -/
  | full
  /-- ADMIN_COLD (R508) -/
  | adminCold
deriving DecidableEq, Repr

/-- A start in progress: its kind, the local tick it began at, the steps done so far. -/
structure Start where
  kind : StartKind
  began : Nat
  step : Nat
  /-- also restarts the time core (R40) -/
  time : Bool
deriving DecidableEq, Repr

/-- A full reset requested and not yet begun (R450). -/
structure ResetReq where
  cause : Nat
  /-- local tick at which it begins -/
  due : Nat
  time : Bool
  cold : Bool
deriving DecidableEq, Repr

/-- A cold-start record (R449). -/
structure ColdRec where
  tenant : Nat
  blob : Bytes
deriving DecidableEq, Repr

/-- What an entry of USER_CODE holds (R443). -/
inductive CodeKind where
  | program | applet
deriving DecidableEq, Repr

/-- An entry of the USER_CODE region (R443). -/
structure CodeEntry where
  kind : CodeKind
  ident : Nat
  /-- place and length in bytes, header included -/
  place : Nat
  length : Nat
  /-- the package or image as loaded, that a start reloads -/
  bytes : Bytes
deriving DecidableEq, Repr

structure Boot where
  pwrGood : Bool
  /-- RESET_N is low -/
  resetLow : Bool
  phase : Phase
  start : Option Start
  request : Option ResetReq
  cold : Bool
  coldLoad : Bool
  /-- next record of the COLD region to reload -/
  coldNext : Nat
  /-- the running firmware slot, the slot the directory names, and whether the other slot was booted -/
  slot : Nat
  dirSlot : Nat
  fallback : Bool
  fail : Nat
  resetCause : Nat
  resetCount : Nat
  serviceMs : Nat
  coldLoaded : Nat
  coldFailed : Nat
  /-- the images in firmware slots A and B carry the vendor's signatures -/
  fwA : Bool
  fwB : Bool
  /-- flash size in MiB from the SFDP table; 0 when it cannot be read -/
  flashMib : Nat
  coldRecs : List ColdRec
  code : List CodeEntry
  /-- the image written to the slots by ADMIN_FW_UPDATE, as its SHA3-384 digest -/
  fwDigestA : Bytes
  fwDigestB : Bytes
  /-- the shutdown commands that wait for the drain: function, queue, tag -/
  shutdown : List (Nat × Nat × Nat)
  /-- the KEEPER key that the keeper region is written under; none while it has never been written (R94, R140) -/
  keeperKey : Bytes
  /-- the part powers up with RESET_N low, or a RESET_BALL reset holds at its step 2 (R486, R494) -/
  held : Bool
  /-- quarantined parts that a full reset found, to return if their test passes (R447): KIND and INDEX -/
  retest : List (Nat × Nat)
deriving DecidableEq, Repr

/-- PWR_GOOD not yet risen; registers of R455 at their reset values; the flash as a part comes to the board: both
slots valid, 64 MiB, no user code and no cold record. -/
def bootReset : Boot :=
  { pwrGood := false, resetLow := false, phase := .rom, start := none, request := none, cold := false,
    coldLoad := false, coldNext := 0, slot := 0, dirSlot := 0, fallback := false, fail := 0, resetCause := 0,
    resetCount := 0, serviceMs := 0, coldLoaded := 0, coldFailed := 0, fwA := true, fwB := true, 
    flashMib := 64, coldRecs := [], code := [], fwDigestA := [], fwDigestB := [], shutdown := [],
    keeperKey := [], held := false, retest := [] }

end Sys2Proof.Machine
end

