-- ==== Sys2Proof/Machine/Lanes.lean ====
section
/-! DEFINITION. Rows, lanes, words and the arithmetic modes of the engines (06_engine_model.md R151, R152) and
the per-word computations of 07_isagil_instructions.md R200 to R208. Everything here is pure arithmetic on
recombined (logical) values. -/

namespace Sys2Proof.Machine

/-- Word `j` of width `w` bits of a row. -/
def fieldOf (w : Nat) (r : Row) (j : Nat) : Nat := (r.toNat >>> (w * j)) % 2 ^ w

/-- The number whose words of `w` bits are `f 0`, `f 1`, … `f (n - 1)`. -/
def packNat (w : Nat) (f : Nat → Nat) : Nat → Nat
  | 0 => 0
  | n + 1 => packNat w f n + (f n % 2 ^ w) <<< (w * n)

/-- The row whose words of `w` bits are given by `f`. -/
def rowOf (w n : Nat) (f : Nat → Nat) : Row := BitVec.ofNat 224 (packNat w f n)

/-- Lane `j`: bits [14j + 13 : 14j]. -/
def lane (r : Row) (j : Nat) : Nat := fieldOf 14 r j

/-- The row with lanes `f 0` … `f 15`. -/
def laneRow (f : Nat → Nat) : Row := rowOf 14 16 f

/-- The 28 bytes of a row: byte i is bits [8i + 7 : 8i]. -/
def rowBytes (r : Row) : Bytes := leBytes 28 r.toNat

/-- The row that holds a byte string, zero-filled to 28 bytes. -/
def bytesRow (b : Bytes) : Row := BitVec.ofNat 224 (leNat (b.take 28))

/-- The arithmetic modes of R151. -/
inductive Mode where
  | none | modq | gf2m | pair28 | quad56
deriving DecidableEq, Repr

/-- The value of a mode (R151). -/
def modeOf : Nat → Option Mode
  | 0 => some .none | 1 => some .modq | 2 => some .gf2m | 3 => some .pair28 | 4 => some .quad56
  | _ => Option.none

/-- Word width in bits under a mode; NONE addresses lanes (R151, R210). -/
def wordBits : Mode → Nat
  | .pair28 => 28 | .quad56 => 56 | _ => 14

/-- Words per row under a mode. -/
def wordCount : Mode → Nat
  | .pair28 => 8 | .quad56 => 4 | _ => 16

/-- The predicate bit that governs word `j` (R190). -/
def govBit : Mode → Nat → Nat
  | .pair28, j => 2 * j | .quad56, j => 4 * j | _, j => j

/-- A q register: MODE, PARAM, MODULUS (R152). -/
structure QReg where
  /-- MODE of R151 -/
  mode : Mode
  /-- PARAM: m for GF2M, F for QUAD56 (6 bits) -/
  param : Nat
  /-- MODULUS: q, or the low coefficients of the polynomial (28 bits) -/
  modulus : Nat
deriving DecidableEq, Repr

/-- The q register after job start: MODE NONE (R154). -/
def qNone : QReg := { mode := .none, param := 0, modulus := 0 }

/-- The q register that the 37 bits `v` spell, or none where R152 makes `qset` fault. -/
def qDecode (v : Nat) : Option QReg :=
  let param := bitsOf v 8 3
  let md := bitsOf v 36 9
  match modeOf (bitsOf v 2 0) with
  | Option.none => Option.none
  | some .none => if param = 0 ∧ md = 0 then some qNone else Option.none
  | some .modq => if param = 0 ∧ md % 2 = 1 ∧ 3 ≤ md ∧ md < 2 ^ 14 then some ⟨.modq, 0, md⟩ else Option.none
  | some .gf2m =>
      if 2 ≤ param ∧ param ≤ 14 ∧ md % 2 = 1 ∧ md < 2 ^ param then some ⟨.gf2m, param, md⟩ else Option.none
  | some .pair28 => if param = 0 ∧ md % 2 = 1 ∧ 3 ≤ md then some ⟨.pair28, 0, md⟩ else Option.none
  | some .quad56 => if md = 0 ∧ param ≤ 52 then some ⟨.quad56, param, 0⟩ else Option.none

/-- Word `j` of a row under mode `m`. -/
def word (m : Mode) (r : Row) (j : Nat) : Nat := fieldOf (wordBits m) r j

/-- The row whose words under mode `m` are `f`. -/
def wordRow (m : Mode) (f : Nat → Nat) : Row := rowOf (wordBits m) (wordCount m) f

/-- Masked write of R190: word `j` is the new one where its governing bit is 1, else the old one. -/
def maskRow (m : Mode) (p : BitVec 16) (old new : Row) : Row :=
  wordRow m (fun j => if p.getLsbD (govBit m j) then word m new j else word m old j)

/-- A predicate with the governing bits of the words where `f` holds, other bits 0 (R200). -/
def govPred (m : Mode) (f : Nat → Bool) : BitVec 16 :=
  BitVec.ofNat 16 (packNat 1 (fun b =>
    b2n ((List.range (wordCount m)).any (fun j => govBit m j == b && f j))) 16)

/-! Integers mod q -/

def addM (q x y : Nat) : Nat := (x % q + y % q) % q
def subM (q x y : Nat) : Nat := (x % q + (q - y % q)) % q
def negM (q x : Nat) : Nat := (q - x % q) % q
def mulM (q x y : Nat) : Nat := (x % q) * (y % q) % q

/-! GF(2^m) with the polynomial x^m + low -/

/-- Multiply by x and reduce. -/
def gfDouble (m low a : Nat) : Nat :=
  let d := a <<< 1
  if d.testBit m then (d ^^^ low) % 2 ^ m else d % 2 ^ m

/-- Product by the bits of `b` from the least; `n` bits. -/
def gfMulGo (m low : Nat) : Nat → Nat → Nat → Nat → Nat
  | 0, _, _, acc => acc
  | n + 1, a, b, acc =>
      gfMulGo m low n (gfDouble m low a) (b >>> 1) (if b % 2 = 1 then acc ^^^ a else acc)

/-- Product in GF(2^m): lane bits above m − 1 read as zero and are written as zero (R151). -/
def gfMul (m low a b : Nat) : Nat := gfMulGo m low m (a % 2 ^ m) (b % 2 ^ m) 0

/-- a raised to 2^(n+1) − 2 by the chain of squarings and products. -/
def gfInvGo (m low : Nat) : Nat → Nat → Nat → Nat
  | 0, _, acc => acc
  | n + 1, a, acc =>
      let s := gfMul m low a a
      gfInvGo m low n s (gfMul m low acc s)

/-- Inverse: a^(2^m − 2); 0 maps to 0 (R206). -/
def gfInv (m low a : Nat) : Nat := if a % 2 ^ m = 0 then 0 else gfInvGo m low (m - 1) (a % 2 ^ m) 1

/-- Carry-less product of two 32-bit words (R206). -/
def clmulGo : Nat → Nat → Nat → Nat → Nat
  | 0, _, _, acc => acc
  | n + 1, a, b, acc => clmulGo n (a <<< 1) (b >>> 1) (if b % 2 = 1 then acc ^^^ a else acc)

def clmul (a b : Nat) : Nat := clmulGo 32 a b 0

/-! QUAD56: signed two's-complement fixed point -/

/-- The signed value of the low `w` bits. -/
def signedOf (w v : Nat) : Int := if v % 2 ^ w < 2 ^ (w - 1) then (v % 2 ^ w : Int) else (v % 2 ^ w : Int) - 2 ^ w

/-- The low `w` bits of an integer. -/
def wrapTo (w : Nat) (x : Int) : Nat := (x % (2 ^ w : Int)).toNat

/-- x / 2^f rounded to nearest, ties to even (R151). -/
def roundShift (f : Nat) (x : Int) : Int :=
  let d : Int := 2 ^ f
  let q := x / d
  let r := x % d
  if 2 * r < d then q else if 2 * r > d then q + 1 else if q % 2 = 0 then q else q + 1

def fxAdd (x y : Nat) : Nat := (x + y) % 2 ^ 56
def fxSub (x y : Nat) : Nat := (x + (2 ^ 56 - y % 2 ^ 56)) % 2 ^ 56
/-- Product with F fraction bits, rounded to nearest even, wrapped to 56 bits. -/
def fxMul (f x y : Nat) : Nat := wrapTo 56 (roundShift f (signedOf 56 x * signedOf 56 y))
/-- Real part of a complex product: each product rounds, the difference wraps. -/
def fxMulRe (f ar ai br bi : Nat) : Nat := fxSub (fxMul f ar br) (fxMul f ai bi)
def fxMulIm (f ar ai br bi : Nat) : Nat := fxAdd (fxMul f ar bi) (fxMul f ai br)

/-! FIPS 204 rounding (R207), q = 8,380,417 -/

/-- The centred residue of x mod m, in (−m/2, m/2]. -/
def centred (m : Nat) (x : Nat) : Int :=
  let r := x % m
  if 2 * r ≤ m then (r : Int) else (r : Int) - m

def qDsa : Nat := 8380417
def gammaN : Nat := (qDsa - 1) / 88
def gammaW : Nat := (qDsa - 1) / 32

/-- An integer reduced mod q. -/
def intM (q : Nat) (x : Int) : Nat := (x % (q : Int)).toNat

/-- Power2Round with d = 13: (r1, r0). -/
def power2Round (r : Nat) : Nat × Int :=
  let rp := r % qDsa
  let r0 := centred (2 ^ 13) rp
  (((rp - r0) / 2 ^ 13).toNat, r0)

/-- Decompose with γ2 = g: (r1, r0). -/
def decompose (g r : Nat) : Nat × Int :=
  let rp := r % qDsa
  let r0 := centred (2 * g) rp
  if (rp : Int) - r0 = qDsa - 1 then (0, r0 - 1) else (((rp - r0) / (2 * g : Nat)).toNat, r0)

def highBits (g r : Nat) : Nat := (decompose g r).1

/-- MakeHint(z, r): 1 where adding z changes the high bits. -/
def makeHint (g z r : Nat) : Nat := b2n (highBits g r != highBits g (addM qDsa r z))

/-- UseHint(h, r). -/
def useHint (g h r : Nat) : Nat :=
  let m := (qDsa - 1) / (2 * g)
  let d := decompose g r
  if h = 1 then (if d.2 > 0 then (d.1 + 1) % m else (d.1 + m - 1) % m) else d.1

/-- The magnitude of the centred value of x mod q. -/
def centredMag (q x : Nat) : Nat := (centred q x).natAbs

/-! Windows, sampling and packing (R203 to R205) -/

/-- The 56-byte window of two rows. -/
def window (lo hi : Row) : Bytes := rowBytes lo ++ rowBytes hi

/-- Value `i` of width `d` bits of a little-endian bit string held in a number. -/
def bitField (v d i : Nat) : Nat := (v >>> (d * i)) % 2 ^ d

/-- The number of ones of the `n` low bits. -/
def popBits : Nat → Nat → Nat
  | 0, _ => 0
  | n + 1, v => v % 2 + popBits n (v / 2)

/-- Centred binomial coefficient `i` with parameter `e` from the bit string `v` (FIPS 203). -/
def cbd (q e v i : Nat) : Nat :=
  let b := v >>> (2 * e * i)
  subM q (popBits e b) (popBits e (b >>> e))

/-- The accepted candidates of `vsamp.rej`: those below q. -/
def rejCands (m : Mode) (q v : Nat) : List Nat :=
  match m with
  | .modq => ((List.range 16).map (bitField v 12)).filter (· < q)
  | _ => ((List.range 8).map (fun i => bitField v 24 i % 2 ^ 23)).filter (· < q)

/-- `vsamp.eta.lo`: nibbles below 15 give 2 − (b mod 5). -/
def etaLo (q v : Nat) : List Nat :=
  (((List.range 8).map (bitField v 4)).filter (· < 15)).map (fun b => subM q 2 (b % 5))

/-- `vsamp.eta.hi`: nibbles below 9 give 4 − b. -/
def etaHi (q v : Nat) : List Nat :=
  (((List.range 8).map (bitField v 4)).filter (· < 9)).map (fun b => subM q 4 b)

/-- `round(2^d / q × x) mod 2^d` (R205). -/
def compress (q d x : Nat) : Nat := ((2 * 2 ^ d * x + q) / (2 * q)) % 2 ^ d

/-- `round(q / 2^d × y)`, canonical (R205, R151). -/
def decompress (q d y : Nat) : Nat := ((2 * q * y + 2 ^ d) / (2 * 2 ^ d)) % q

/-- Replace `n` bits of `v` from bit `o` by the low bits of `x`. -/
def putBits (v o n x : Nat) : Nat :=
  (v % 2 ^ o) + (x % 2 ^ n) <<< o + (v >>> (o + n)) <<< (o + n)

end Sys2Proof.Machine
end

