-- ==== Sys2Proof/Machine/StEngine.lean ====
section
/-! DEFINITION. The state of an engine: 06_engine_model.md R151 to R184, 07_isagil_instructions.md R195 to R218,
09 (cipher core) and the manifest of R178 that a running job copies. -/

namespace Sys2Proof.Machine

/-- The sharing kind of a secret value (R191). `any` is the kind of a secret row not yet written in the job, which
reads as zero of whatever kind the instruction needs. -/
inductive Kind where
  | none | any | bool
  | arith (mode modulus : Nat)
deriving DecidableEq, Repr

/-- SECRET bit, sharing kind and SEALED (R153, R164, R191). -/
structure Tag where
  secret : Bool
  kind : Kind
  sealed : Bool
deriving DecidableEq, Repr

/-- A public value. -/
def pubTag : Tag := { secret := false, kind := .none, sealed := false }

/-- A vector register. -/
structure VReg where
  val : Row
  tag : Tag
deriving DecidableEq, Repr

/-- A scalar register. -/
structure SReg where
  val : Scalar
  tag : Tag
deriving DecidableEq, Repr

/-- A predicate register. -/
structure PReg where
  val : BitVec 16
  tag : Tag
deriving DecidableEq, Repr

/-- A logical row: data, sharing kind, SEALED (R155, R191). -/
structure LRow where
  val : Row
  kind : Kind
  sealed : Bool
deriving DecidableEq, Repr

/-- One entry of a manifest's KEY table (R178). -/
structure KeyEntry where
  usage : Nat
  alg : Nat
  firstRow : Nat
  rows : Nat
deriving DecidableEq, Repr

/-- A manifest (R178). -/
structure Manifest where
  progId : Nat
  idempotent : Bool
  ladder : Bool
  inSecret : Bool
  auxSecret : Bool
  usesOts : Bool
  /-- PROFILES, bits 0 to 2 -/
  profiles : Nat
  overlays : Nat
  pubRows : Nat
  secRows : Nat
  ports : Nat
  isScoped : Bool
  tenant : Nat
  maxOut : Nat
  inFixed : Nat
  /-- ALLOT[0..2], 32 bits each -/
  allot : List Nat
  key0 : KeyEntry
  key1 : KeyEntry
  /-- DECL: (overlay, PC) pairs -/
  decl : List (Nat × Nat)
deriving DecidableEq, Repr

def noKeyEntry : KeyEntry := { usage := 0, alg := 0, firstRow := 0, rows := 0 }

def noManifest : Manifest :=
  { progId := 0, idempotent := false, ladder := false, inSecret := false, auxSecret := false, usesOts := false,
    profiles := 0, overlays := 0, pubRows := 0, secRows := 0, ports := 0, isScoped := false, tenant := 0,
    maxOut := 0, inFixed := 0, allot := [], key0 := noKeyEntry, key1 := noKeyEntry, decl := [] }

/-- The states of an engine (R171) and of a big-number engine (R297). -/
inductive EngState where
  | idle | loading | running | clearing | scrubbing | quarantined | testing | absent
deriving DecidableEq, Repr

/-- An open loop (R195, R196). -/
structure Frame where
  /-- PC of the first body instruction -/
  first : Nat
  /-- END -/
  last : Nat
  /-- iterations completed -/
  idx : Nat
  /-- number of iterations -/
  count : Nat
  shuffled : Bool
  /-- the order drawn from the fountain; empty for the natural order -/
  order : List Nat
  /-- a registers written by `aset.li` in a shuffled body -/
  aWritten : List Nat
  /-- depth of the call stack when the loop opened -/
  depth : Nat
deriving DecidableEq, Repr

/-- A key position of the running job: its material on the key path (R146, R214). -/
structure KeyPort where
  /-- the descriptor's handle is not zero -/
  present : Bool
  alg : Nat
  material : Bytes
  /-- a `kld` has started the delivery -/
  requested : Bool
  /-- the delivery ended and the object's tag matched (R146) -/
  valid : Bool
  /-- rows landed so far -/
  landed : Nat
deriving DecidableEq, Repr

def noKeyPort : KeyPort :=
  { present := false, alg := 0, material := [], requested := false, valid := false, landed := 0 }

/-- The cipher core of an engine: key register and the GHASH key (R213). -/
structure CipherCore where
  alg : Nat
  key : Bytes
  hash : Option Bytes
deriving DecidableEq, Repr

/-- The fountain of an engine (R168). -/
structure Fountain where
  /-- holds a current seed -/
  seeded : Bool
  /-- the seed in force (256 bits) -/
  seed : Bytes
  /-- mask rows drawn under the seed -/
  rowsDrawn : Nat
  /-- grid tick at which the seed arrived -/
  seedTick : Nat
  /-- a new seed has been requested -/
  requested : Bool
  /-- stopped at its limit -/
  stopped : Bool
deriving DecidableEq, Repr

def noFountain : Fountain :=
  { seeded := false, seed := [], rowsDrawn := 0, seedTick := 0, requested := false, stopped := false }

/-- A port request that waits for a core (R13, R169). -/
inductive CoreWant where
  | none | keccak | sha2
deriving DecidableEq, Repr

/-- The core of its pavilion an engine has been granted (R13): `core` is its number within the pavilion, 0 to 3 a Keccak
core, 4 and 5 a SHA-2 core. `fresh`: granted, and its permutation or block not yet made. A core is held until the engine's
next instruction; that a permutation lasts as long is the model's choice. -/
structure CoreGrant where
  core : Nat
  fresh : Bool
deriving DecidableEq, Repr

/-- One physical engine (R9, R153 to R172, R183). -/
structure Eng where
  st : EngState
  /-- ENG_STATUS.IN_SERVICE, SPARE, POSITION -/
  inService : Bool
  spare : Bool
  position : Nat
  /-- ENG_STATUS.PROFILE: 0 OPEN, 1 HEDGE, 2 WALLED -/
  profile : Nat
  /-- ENG_JOB.PROGRAM_ID -/
  progId : Nat
  /-- ENG_FAULT.DETAIL and COUNT -/
  faultDetail : Nat
  faultCount : Nat
  /-- corrected operand-memory errors (R158) -/
  eccCorrected : Nat
  /-- FORCE_SCRUB in progress (R183) -/
  forceScrub : Bool
  /-- the job that runs here, by its number -/
  job : Option Nat
  /-- the next scrub's read-back was reached with quarantine requested (R472) -/
  quarAfter : Bool
  /-- the test in progress is TEST_ONLY (R475) -/
  testOnly : Bool
  fnt : Fountain
  man : Manifest
  /-- instruction memory: the current overlay's words (R172) -/
  imem : List (BitVec 32)
  overlay : Nat
  /-- the overlays of the package that runs, as it was when the job was loaded (R180) -/
  package : List (List (BitVec 32))
  /-- the physical tags of the backing rows, written when the row map is built (R158): bit 0 SECRET, bit 1 GROUP -/
  rowTags : KMap Nat
  /-- what debug has written into the memories of an engine without a job, by byte address of target 20 (R12) -/
  probed : KMap Nat
  pc : Nat
  v : KMap VReg
  sc : KMap SReg
  a : KMap Nat
  /-- the a registers as the natural iteration order would have them (R196) -/
  aNat : KMap Nat
  q : KMap QReg
  p : KMap PReg
  rows : KMap LRow
  /-- the mask shares of the secrets held, by place (R165) -/
  masks : KMap (List Row)
  loops : List Frame
  calls : List Nat
  keyA : KeyPort
  keyB : KeyPort
  core : Option CipherCore
  want : CoreWant
  /-- place of the waiting request in its pavilion's order of requests (R169) -/
  wantSeq : Nat
  grant : Option CoreGrant
  /-- bytes returned over the key path, and the length the key store expects (none: no key is created) -/
  returned : Bytes
  returnLen : Option Nat
  input : Bytes
  aux : Bytes
  inPtr : Nat
  auxPtr : Nat
  /-- IN_LEN and AUX_LEN as they were placed in s0 and s2 at job start (R154), and the output limit of s1 -/
  inLen : Nat
  auxLen : Nat
  outLimit : Nat
  /-- the half of the output staging that fills (R170) -/
  staging : Bytes
  /-- output of the job that has drained to the gatehouse's release staging -/
  drained : Bytes
  cmpOk : BitVec 32
  cmpOkn : BitVec 32
  /-- some register or row of the job has held a secret (R219) -/
  everSecret : Bool
  /-- engine cycles the job has used (R189) -/
  cycles : Nat
deriving DecidableEq, Repr

/-- The match values of the compare pair (R86). -/
def cmpMatchOk : BitVec 32 := 0x5A5AC3C3
def cmpMatchOkn : BitVec 32 := 0xA5A53C3C
/-- The mismatch values (R86). -/
def cmpMissOk : BitVec 32 := 0
def cmpMissOkn : BitVec 32 := 0xFFFFFFFF

/-- An idle engine with every register, row and buffer zero (R171, R176), serving a position or spare. -/
def engIdle (inService spare : Bool) (position : Nat) : Eng :=
  { st := .idle, inService := inService, spare := spare, position := position, profile := 0, progId := 0,
    faultDetail := 0, faultCount := 0, eccCorrected := 0, forceScrub := false, job := none, quarAfter := false,
    testOnly := false, fnt := noFountain, man := noManifest, imem := [], overlay := 0, package := [], rowTags := [],
    probed := [], pc := 0, v := [], sc := [],
    a := [], aNat := [], q := [], p := [], rows := [], masks := [], loops := [], calls := [], keyA := noKeyPort,
    keyB := noKeyPort, core := none, want := .none, wantSeq := 0, grant := none, returned := [], returnLen := none, input := [], aux := [],
    inPtr := 0, auxPtr := 0, inLen := 0, auxLen := 0, outLimit := 0, staging := [], drained := [], cmpOk := 0, cmpOkn := 0,
    everSecret := false, cycles := 0 }

/-- Physical engine `e` after reset: slots 0 to 15 of a pavilion serve positions 0 to 15, slot 16 is the spare
(R9, R183). -/
def engReset (e : Nat) : Eng :=
  if e % 17 = 16 then engIdle false true 0 else engIdle true false (e % 17)

/-- The registers and memories of an engine read as zero after CLEARING or SCRUBBING (R171, R176); what the
registers of R183 show and the fountain's seed stay. -/
def engWipe (g : Eng) : Eng :=
  { engIdle g.inService g.spare g.position with
    st := g.st, profile := g.profile, progId := g.progId, faultDetail := g.faultDetail,
    faultCount := g.faultCount, eccCorrected := g.eccCorrected, fnt := g.fnt, quarAfter := g.quarAfter,
    testOnly := g.testOnly }

end Sys2Proof.Machine
end

