-- ==== Sys2Proof/Machine/StCrypto.lean ====
section
/-! DEFINITION. The program store and publishers (06_engine_model.md R177 to R181), measurement registers and cipher
and digest counters (09_cipher_digest_payment.md R257 to R266, R275), the big-number pool (10_public_key_engines.md
R276 to R301). -/

namespace Sys2Proof.Machine

/-- A loaded program, listed under its identifier (R177 to R180). -/
structure Program where
  man : Manifest
  manBytes : Bytes
  overlays : List (List (BitVec 32))
  const : Bytes
  /-- bytes of program store it takes -/
  size : Nat
  /-- a library package: it returns at the next full reset -/
  vendor : Bool
  /-- removed, its space held until the last command accepted before has finished LOADING (R180) -/
  removed : Bool
deriving DecidableEq, Repr

/-- A registered customer publisher (R181). -/
structure Publisher where
  isScoped : Bool
  scope : Nat
  pkEc : Bytes
  pkMl : Bytes
deriving DecidableEq, Repr

structure Lib where
  programs : KMap Program
  /-- library programs that are not loaded: removed since the last full reset, or not signed by the vendor (R180, R222) -/
  removedLib : List Nat
  publishers : KMap Publisher
deriving DecidableEq, Repr

def libReset : Lib := { programs := [], removedLib := [], publishers := [] }

/-- A measurement register: value and extend count (R265). -/
structure Meas where
  value : Bytes
  count : Nat
deriving DecidableEq, Repr

def measReset : Meas := { value := List.replicate 48 0, count := 0 }

/-- A chaining context in the context store: in the clear, or wrapped as nonce, ciphertext and tag (R258). -/
structure SavedCtx where
  wrapped : Bool
  nonce : Bytes
  body : Bytes
  tag : Bytes
deriving DecidableEq, Repr

/-- Measurement registers, the context store and the counters of R275. -/
structure Dgs where
  meas : KMap Meas
  /-- the context store, by the number of the job, or of the stream for a segment (R258) -/
  store : KMap SavedCtx
  /-- the per-boot context key (R258) -/
  ctxKey : Bytes
  ctxKeyValid : Bool
  ctxClear : Nat
  ctxWrap : Nat
  ctxRestore : Nat
  nonces : Nat
  tagFail : Nat
  streamClosed : Nat
  cmpFault : Nat
deriving DecidableEq, Repr

def dgsReset : Dgs :=
  { meas := [], store := [], ctxKey := [], ctxKeyValid := false, ctxClear := 0, ctxWrap := 0, ctxRestore := 0, nonces := 0, tagFail := 0,
    streamClosed := 0, cmpFault := 0 }

/-- The states of a big-number engine (R297). -/
inductive BneState where
  | idle | busy | clearing | scrubbing | quarantined | testing | absent
deriving DecidableEq, Repr

/-- A big-number engine (R297, R301). -/
structure BnEng where
  st : BneState
  profile : Nat
  dual : Bool
  alg : Nat
  faultDetail : Nat
  faultCount : Nat
  forceScrub : Bool
  job : Option Nat
  /-- the scrub under way ends in quarantine (R472) -/
  quarAfter : Bool
  /-- what debug has written into the operand memory of an engine without a job, by byte address (R12, R431) -/
  probed : KMap Nat
deriving DecidableEq, Repr

def bnReset : BnEng :=
  { st := .idle, profile := 0, dual := false, alg := 0, faultDetail := 0, faultCount := 0, forceScrub := false, job := none,
    quarAfter := false, probed := [] }

structure Bne where
  eng : KMap BnEng
  /-- issue slot of the current 64 (R28) -/
  issued : Nat
deriving DecidableEq, Repr

def bneReset : Bne := { eng := [], issued := 0 }

end Sys2Proof.Machine
end

