-- ==== Sys2Proof/Machine/StGate.lean ====
section
/-! DEFINITION. The state of the host port and the gatehouse: 03_gatehouse.md R54 to R93, the command path and jobs of
01_organisation.md R18 to R23 and 02_sundial.md R41 to R45. -/

namespace Sys2Proof.Machine

/-- A queue pair (R64 to R68). -/
structure QPair where
  sqBase : Nat
  cqBase : Nat
  depthM1 : Nat
  enable : Bool
  vector : Nat
  intEn : Bool
  weight : Nat
  error : Bool
  sqTail : Nat
  sqHead : Nat
  cqTail : Nat
  cqHead : Nat
  /-- commands fetched and not yet consumed as counted by CQ_HEAD (R65) -/
  fetched : Nat
  /-- commands accepted and not yet released: BUSY while above zero (R66) -/
  inFlight : Nat
  /-- SQ_HEAD has moved since the last tail record, written at tick `tailTick` (R64) -/
  headMoved : Bool
  tailTick : Nat
  /-- the tick of the last MSI-X message of the queue, if any (R69) -/
  msiTick : Option Nat
  /-- completions of this tick have been written: the tail record, and the message if INT_EN, follow them (R64, R69) -/
  tailDue : Bool
  msiDue : Bool
deriving DecidableEq, Repr

/-- A queue pair after reset. -/
def qpReset : QPair :=
  { sqBase := 0, cqBase := 0, depthM1 := 0, enable := false, vector := 0, intEn := false, weight := 1, error := false,
    sqTail := 0, sqHead := 0, cqTail := 0, cqHead := 0, fetched := 0, inFlight := 0, headMoved := false, tailTick := 0,
    msiTick := none, tailDue := false, msiDue := false }

/-- Why a fetched command is held in the gatehouse before its acceptance. -/
inductive HoldWhy where
  /-- FENCE: an earlier command of the queue is not yet released (R84) -/
  | fence
  /-- its release-staging reservation does not fit (R91) -/
  | stage
  /-- check 9 waits for the kiln (R18) -/
  | rng
  /-- the meter path is stalled (R136) -/
  | ots
  /-- acceptance is paused by the pavilion horizon (R92) or the pool horizon (R285) -/
  | horizon
  | poolHorizon
  /-- an earlier command of its queue is held: commands of a queue are accepted in submission order (R84) -/
  | order
  /-- its host data cannot be read while the IDE stream must be Secure and is not (R63) -/
  | ide
deriving DecidableEq, Repr

/-- What executes a job. -/
inductive JobKind where
  /-- a loaded program package on an engine -/
  | program
  /-- a library program on an engine (chapter 08, payment functions of chapter 09) -/
  | library
  /-- a cipher or digest job in pieces (R257) -/
  | cipher
  /-- an operation of the big-number pool: one engine, or two for a dual job (R291) -/
  | pool (dual : Bool)
deriving DecidableEq, Repr

/-- The release class of a job (R41). -/
inductive RelClass where
  | immediate
  | grid
  | ladder
deriving DecidableEq, Repr

/-- Where a job stands. -/
inductive JobPhase where
  /-- accepted, waiting for an engine -/
  | queued
  /-- on an engine, big-number engine or engine position -/
  | running
  /-- its part ended with a result, waiting for release -/
  | done
  /-- aborted: released when its scrub has ended -/
  | scrubWait
deriving DecidableEq, Repr

/-- A job: a command, or one item of a batch, passed to a scheduler (R18 step 4, R81). -/
structure Job where
  /-- the command, its input and auxiliary data cut to the item's part -/
  cmd : Cmd
  /-- item index within a batch, and the batch -/
  item : Option Nat
  batch : Option Nat
  kind : JobKind
  /-- program identifier, or the algorithm of a pool job -/
  prog : Nat
  profile : Nat
  rel : RelClass
  /-- the allotment is a ladder: `allot` is its first step L and `steps` its step count n (R44) -/
  ladder : Bool
  /-- acceptance tick, release base B, allotment A (grid time) -/
  accepted : Nat
  base : Nat
  allot : Nat
  steps : Nat
  /-- the load counted in W: the allotment, or the planning step (R42), times the engines used -/
  load : Nat
  /-- pavilion the job is planned onto -/
  pav : Nat
  /-- core cycles in which an engine executed it (R457) -/
  spent : Nat := 0
  phase : JobPhase
  /-- engine, big-number engine or position that runs it, and the second one of a dual job -/
  part : Option Nat
  part2 : Option Nat
  /-- grid time of the start, and ticks run before the present piece -/
  started : Nat
  status : Nat
  detail : Nat
  output : Bytes
  /-- output written as produced, before the release (R91) -/
  direct : Bool
  /-- length asked for with OUTPUT_TOO_SMALL -/
  required : Nat
  /-- the compare pair the job ended with (R218) -/
  pair : Nat
  /-- released no earlier than this tick -/
  due : Nat
  /-- held beyond B + A (R43) -/
  late : Bool
  /-- bytes of release staging reserved (R91) -/
  staged : Nat
  /-- the stream a segment was accepted for -/
  stream : Nat
  /-- pieces done and pieces in all, for a cipher job (R257) -/
  pieces : Nat
  piecesAll : Nat
  /-- key-store objects the job uses: base units of KEY_A and KEY_B whose material it has not yet loaded (R20) -/
  useA : Option Nat
  useB : Option Nat
  /-- the attributes of the keys at acceptance (R20), and their material once it has been delivered -/
  attrA : Option Attr
  attrB : Option Attr
  matA : Bytes
  matB : Bytes
  /-- the one-time-signature index of R136, and whether its advance is still to be confirmed -/
  index : Nat
  waitOts : Bool
  /-- the job of a critical command: its end lets the keeper commit -/
  crit : Bool
deriving DecidableEq, Repr

/-- A held command. -/
structure Held where
  cmd : Cmd
  why : HoldWhy
  /-- local tick at which the hold began -/
  since : Nat
  /-- grid tick of acceptance, for a command held after the checks of R18 began -/
  tick : Nat
  /-- the job that checks 3 to 8 planned, for a command held at check 9 or by the meter path -/
  plan : Option Job
deriving DecidableEq, Repr

/-- A batch in progress (R81), or the share of a spread batch that another unit sent (R345). -/
structure Batch where
  /-- the plan of its items, cut to one item as each is planned -/
  plan : Job
  /-- items not yet planned: index, and place of its input in the command's input -/
  todo : List (Nat × Nat)
  count : Nat
  /-- items not yet released, items that ended OK -/
  left : Nat
  ok : Nat
  spread : Bool
deriving DecidableEq, Repr

/-- An open stream (R82, R258). -/
structure Stream where
  fn : Nat
  number : Nat
  /-- which stream of its number this is: a segment accepted for an earlier one finds its stream closed (R82, R260) -/
  ident : Nat
  queue : Nat
  opcode : Nat
  paramSet : Nat
  keyA : Nat
  /-- declared total, none for undeclared -/
  declared : Option Nat
  /-- bytes of the segments accepted, and of the segments processed -/
  total : Nat
  processed : Nat
  /-- text bytes of the segments accepted, which R255 limits -/
  text : Nat
  /-- bytes absorbed so far and not yet finished, the additional data and the nonce -/
  context : Bytes
  aad : Bytes
  nonce : Bytes
  /-- segments of the stream accepted and not released -/
  busy : Nat
  /-- its last segment has been accepted: it takes no further segment and closes at that segment's release -/
  ended : Bool
deriving DecidableEq, Repr

/-- An entry of an MSI-X table: address, data, the mask of its vector control (R58). -/
structure MsixEntry where
  addr : Nat
  data : Nat
  masked : Bool
deriving DecidableEq, Repr

def msixReset : MsixEntry := { addr := 0, data := 0, masked := true }

/-- The fields of configuration space that the host programs or the part logs into (R54, R56, R57). -/
structure PciCfg where
  /-- the Command register of the PF: memory space and bus master enables -/
  command : Nat
  /-- codes of the maximum payload and read request sizes, 128 B × 2^code -/
  payload : Nat
  readRequest : Nat
  /-- base addresses as written, by configuration offset -/
  bars : KMap Nat
  numVfs : Nat
  /-- System Page Size: bit 0 for 4 KiB, bit 4 for 64 KiB -/
  pageSize : Nat
  /-- AER status and mask by function: correctable and uncorrectable -/
  aerCor : KMap Nat
  aerUncor : KMap Nat
  aerCorMask : KMap Nat
  /-- MSI-X Enable and Function Mask by function, as bits 1 and 0 -/
  msixCtl : KMap Nat
deriving DecidableEq, Repr

/-- Configuration space after its reset. -/
def pciReset : PciCfg :=
  { command := 0, payload := 0, readRequest := 2, bars := [], numVfs := 0, pageSize := 1, aerCor := [], aerUncor := [], aerCorMask := [],
    msixCtl := [] }

/-- The gatehouse and the host port. -/
structure Gth where
  /-- queue pairs, by function × 16 + queue -/
  qp : KMap QPair
  held : List Held
  jobs : KMap Job
  nextJob : Nat
  batches : KMap Batch
  streams : List Stream
  fetchEn : Bool
  ideRequired : Bool
  ideSecure : Bool
  /-- completions held while the IDE stream is not Secure (R63), and then written in order -/
  ideHeld : List Output
  /-- a queue passed over for 1,024 ticks is served first (R91): function × 16 + queue -/
  starved : Option Nat
  linkWidth : Nat
  linkSpeed : Nat
  linkUp : Bool
  d3hot : Bool
  vfEnable : Bool
  /-- configuration space is resetting until this tick (R60) -/
  cfgReset : Option Nat
  qerr : Nat
  qerrFn : Nat
  qerrQueue : Nat
  qerrCause : Nat
  intStatus : Nat
  intEnable : Nat
  /-- the arbiter's position: the last function served, and of each function the last queue served and the credit its
  weight leaves it (R93) -/
  arbFn : Nat
  arbPos : KMap (Nat × Nat)
  /-- per-VF error registers VF_QERR: bits, first queue, first cause -/
  vfErr : KMap (Nat × Nat × Nat)
  /-- SPDM sessions open at the DOE mailbox (R62) -/
  spdm : Nat
  /-- queues the arbiter has passed over because of the command at their head: a critical one while the keeper mailbox is
  full, or (with the Boolean) a pool command while the pool is paused (R26, R93, R285) -/
  passed : List (Nat × Bool)
  pci : PciCfg
  /-- MSI-X tables, by function × 64 + vector -/
  msix : KMap MsixEntry
  /-- the pending bits of the PBA, by function × 64 + vector -/
  pba : KMap Bool
deriving DecidableEq, Repr

/-- The gatehouse after reset (R72). -/
def gthReset : Gth :=
  { qp := [], held := [], jobs := [], nextJob := 1, batches := [], streams := [], fetchEn := true, ideRequired := false,
    ideSecure := false, ideHeld := [], starved := none, linkWidth := 0,
    linkSpeed := 0, linkUp := false, d3hot := false, vfEnable := false, cfgReset := none, qerr := 0, qerrFn := 0,
    qerrQueue := 0, qerrCause := 0, intStatus := 0, intEnable := 0, arbFn := 0, arbPos := [],
    vfErr := [], spdm := 0, passed := [], pci := pciReset, msix := [], pba := [] }

end Sys2Proof.Machine
end

