-- ==== Sys2Proof/Machine/StLife.lean ====
section
/-! DEFINITION. The state of the life cycle, of debug and of the test access port: 16_life_cycle_debug.md R422 to
R440, 19_electrical_package.md R494 and R499. -/

namespace Sys2Proof.Machine

/-- The life cycle (R422 to R430). -/
structure Lcs where
  /-- the state in force, 0 RAW to 5 SCRAP -/
  state : Nat
  target : Nat
  /-- burned bits, of 8, of the progress marks BEGIN, ROOT and DONE of each target state t: 3 t, 3 t + 1, 3 t + 2 -/
  fuse : KMap Nat
  /-- a transition runs: the step of R430 it is at (1, 2, 3, 5 or 6), none when no transition is under way -/
  step : Option Nat
  history : Nat
  deviceId : Bytes
  /-- the OTP device secret is intact -/
  secret : Bool
  lastTime : Nat
  /-- local tick at which the burn under way ends -/
  burnEnd : Nat
  /-- local tick of DONE, from which the 1,048 ticks of step 6 count -/
  doneTick : Nat
  intStatus : Nat
  intEnable : Nat
deriving DecidableEq, Repr

/-- Does mark `k` of target state `t` read as burned: at least 5 of its 8 bits (R430)? -/
def markBurned (l : Lcs) (t k : Nat) : Bool := decide (5 ≤ kget (fun _ => 0) l.fuse (3 * t + k))

/-- The progress marks of the target state: BEGIN, ROOT, DONE as bits 0 to 2 (R440). -/
def lcsMarks (l : Lcs) : Nat :=
  b2n (markBurned l l.target 0) + 2 * b2n (markBurned l l.target 1) + 4 * b2n (markBurned l l.target 2)

/-- OTP as shipped: SEALED (R499), with RAW, TEST and SEALED entered. -/
def lcsReset : Lcs :=
  { state := 2, target := 0, fuse := (List.range 6).map (fun i => (3 + i, 8)), step := none, history := 7,
    deviceId := List.replicate 16 0, secret := true, lastTime := 0, burnEnd := 0, doneTick := 0, intStatus := 0, intEnable := 0 }

/-- Debug (R431 to R436). -/
structure Dbg where
  isOpen : Bool
  suspending : Bool
  resetPending : Bool
  rights : Nat
  regions : List Nat
  endTick : Nat
  opens : Nat
  /-- the MPU regions installed for the session: (MPU, region) -/
  installed : List (Nat × Nat)
  /-- words that debug has written into memories whose contents the spec does not give, by 2^32 × target + address -/
  probed : KMap Nat
deriving DecidableEq, Repr

def dbgReset : Dbg :=
  { isOpen := false, suspending := false, resetPending := false, rights := 0, regions := [], endTick := 0, opens := 0,
    installed := [], probed := [] }

/-- The instructions of the test access port. -/
inductive TapInstr where
  | bypass | idcode | status | samplePreload | extest | scan
deriving DecidableEq, Repr

/-- The test access port (R431, R494): its instruction and its 32-bit data register. -/
structure Tap where
  instr : TapInstr
  data : Nat
  /-- the boundary register as EXTEST or SAMPLE left it, and the core halted by a probe -/
  boundary : Bytes
  extest : Bool
  halted : List Nat
deriving DecidableEq, Repr

def tapReset : Tap := { instr := .idcode, data := 0x1025655B, boundary := [], extest := false, halted := [] }

end Sys2Proof.Machine
end

