-- ==== Sys2Proof/Machine/StLodge.lean ====
section
/-! DEFINITION. The state of the Lodge, the memory protection units and the power manager: 14_lodge_protection.md R374
to R398, 01_organisation.md R28 to R30. -/

namespace Sys2Proof.Machine

/-- A running call of an applet partition (R379). -/
structure Call where
  cmd : Cmd
  /-- local tick at which it started -/
  since : Nat
  /-- the applet has returned this status and output and waits for its gate commands (R380) -/
  ret : Option (Nat × Bytes)
deriving DecidableEq, Repr

/-- An applet partition, listed under its number 1 to 63 (R376 to R381). -/
structure Applet where
  ident : Nat
  isScoped : Bool
  tenant : Nat
  granules : List Nat
  memKib : Nat
  /-- the visitor ways it holds, numbered from way 4 of the L2 (R382) -/
  ways : List Nat
  budget : Nat
  entry : Nat
  queue : List Cmd
  running : Option Call
  /-- calls started so far: the number of the running one, which its gate commands carry -/
  calls : Nat
  /-- gate commands of the running call not yet completed (R380) -/
  gateOut : Nat
  faulted : Bool
  /-- the removal that waits for the running call to end (R378) -/
  removing : Option Cmd
deriving DecidableEq, Repr

structure Ldg where
  keeperUp : Bool
  visitorUp : Bool
  assignLock : Bool
  parts : KMap Applet
  /-- partitions that cores 4 to 7 serve, by core; the last partition served (R375) -/
  cores : KMap Nat
  lastPart : Nat
  sliceTick : Nat
  /-- ways of partition 0, as many as the firmware manifest names (R382) -/
  p0Ways : List Nat
  /-- peripheral windows and interrupt lines that the firmware manifest gives to VISITOR, as bit masks (R383) -/
  visitorWindows : Nat
  visitorLines : Nat
  /-- the inter-world rings, oldest entry first, and the SEQ of the next entry of each (R384) -/
  kreq : List Bytes
  knote : List Bytes
  kreqSeq : Nat
  knoteSeq : Nat
  discards : Nat
  intStatus : Nat
  intEnable : Nat
deriving DecidableEq, Repr

def ldgReset : Ldg :=
  { keeperUp := false, visitorUp := false, assignLock := false, parts := [], cores := [], lastPart := 0, sliceTick := 0,
    p0Ways := [], visitorWindows := 0, visitorLines := 0, kreq := [], knote := [], kreqSeq := 0, knoteSeq := 0, discards := 0, intStatus := 0,
    intEnable := 0 }

/-- A region of a protection unit (R388). -/
structure Region where
  base : Nat
  sizeLog2 : Nat
  perm : Nat
  master : Nat
  mask : Nat
deriving DecidableEq, Repr

def regionReset : Region := { base := 0, sizeLog2 := 0, perm := 0, master := 0, mask := 0 }

/-- What MPU_FAULT_ADDR and MPU_FAULT_INFO hold of the last denial (R391, R398). -/
structure MpuFault where
  addr : Nat
  master : Nat
  write : Bool
  noMatch : Bool
  locked : Bool
  epoch : Nat
  count : Nat
deriving DecidableEq, Repr

def mpuFaultReset : MpuFault :=
  { addr := 0, master := 0, write := false, noMatch := false, locked := false, epoch := 0, count := 0 }

/-- The protection units: regions by MPU × 16 + region, active and staged (R388, R392). -/
structure Mpu where
  active : KMap Region
  staged : KMap Region
  /-- staging writes made while a commit drains (R392) -/
  heldWrites : List (Nat × Region)
  fault : KMap MpuFault
  epoch : Nat
  committing : Bool
  /-- old-epoch accesses that have not retired, and the local tick of the commit edge -/
  draining : Nat
  drainTick : Nat
  drainTimeout : Bool
  lockedWrite : Bool
  denied : Nat
  commits : Nat
deriving DecidableEq, Repr

def mpuReset : Mpu :=
  { active := [], staged := [], heldWrites := [], fault := [], epoch := 0, committing := false, draining := 0,
    drainTick := 0, drainTimeout := false, lockedWrite := false, denied := 0, commits := 0 }

/-- The power manager (R28 to R30, R395). -/
structure Pwr where
  capW : Nat
  /-- the cap written, taken from the next window -/
  capNext : Nat
  capErr : Bool
  duty : Nat
  estW : Nat
  windowTick : Nat
  /-- activity of the window so far: demand summed over its ticks, in 1/256 mW (R28) -/
  activity : Nat
  hold : Nat
  holdTimeout : Nat
  /-- pending gating requests by domain: the local tick at which they time out -/
  pendingGate : KMap Nat
  gated : Nat
  /-- the VDD_CORE setpoint in millivolts, the one it moves to, and the local tick of its last step (R482) -/
  vcore : Nat
  vcoreWant : Nat
  vcoreTick : Nat
deriving DecidableEq, Repr

def pwrReset : Pwr :=
  { capW := 110, capNext := 110, capErr := false, duty := 64, estW := 0, windowTick := 0, activity := 0, hold := 0, holdTimeout := 0x0400,
    pendingGate := [], gated := 0, vcore := 750, vcoreWant := 750, vcoreTick := 0 }

end Sys2Proof.Machine
end

