-- ==== Sys2Proof/Machine/StPeat.lean ====
section
/-! DEFINITION. The peat domain (R94, R133, R139, R310, R405 to R413, R421) and the tamper unit (R399 to R406, R420). -/

namespace Sys2Proof.Machine

/-- The tamper latch of R408. -/
structure TLatch where
  cause : Nat
  source : Nat
  response : Nat
  onCell : Bool
  hours : Nat
  cycles : Nat
deriving DecidableEq, Repr

/-- An entry of the cell log (R413). -/
structure CellEntry where
  source : Nat
  hours : Nat
deriving DecidableEq, Repr

/-- The battery-backed domain. -/
structure Peat where
  /-- main power present -/
  main : Bool
  cellLow : Bool
  latch : Option TLatch
  hours : Nat
  cycles : Nat
  /-- channel counters (R94) and meter words (R133) -/
  chan : KMap Nat
  meters : KMap Nat
  /-- the 8 root slots: ROOT_TEST, ROOT_SEALED, ROOT_FIELD, ROOT_RETURN, and four reserved (R139) -/
  roots : KMap Bytes
  ember : Bytes
  vbat : Nat
  hold : Nat
  recom : Nat
  cellLog : List CellEntry
  cellOverflow : Nat
  eccCorr : Nat
  eccUncorr : Nat
  meterWr : Nat
  chanWr : Nat
  quenchOutLow : Bool
  /-- local tick at which QUENCH_OUT_N fell -/
  quenchOutTick : Nat
  /-- the 31-bit LFSR states of the four mesh loops as last seeded, and whether this power-up has seeded them (R411) -/
  meshSeed : List Nat
  meshSeeded : Bool
  /-- local tick from which the next 1/1,024 hour counts (R410) -/
  hoursAt : Nat
deriving DecidableEq, Repr

def peatReset : Peat :=
  { main := true, cellLow := false, latch := none, hours := 0, cycles := 0, chan := [], meters := [],
    roots := [], ember := [], vbat := 0, hold := 0, recom := 0, cellLog := [], cellOverflow := 0, eccCorr := 0,
    eccUncorr := 0, meterWr := 0, chanWr := 0, quenchOutLow := false, quenchOutTick := 0, meshSeed := [0, 0, 0, 0],
    meshSeeded := false,
    hoursAt := 0 }

/-- The configuration of a tamper source (R399, R414). -/
structure SrcCfg where
  resp : Nat
  cellQuench : Bool
  n : Nat
  w : Nat
deriving DecidableEq, Repr

/-- The defaults of R399. -/
def srcCfgDefault (i : Nat) : SrcCfg :=
  if i = 0 ∨ i = 2 ∨ i = 4 ∨ i = 15 then { resp := 3, cellQuench := false, n := 1, w := 1 }
  else if i = 8 ∨ i = 9 then { resp := 2, cellQuench := false, n := 4, w := 1024 }
  else if 10 ≤ i ∧ i ≤ 14 then { resp := 4, cellQuench := false, n := 1, w := 1 }
  else { resp := 1, cellQuench := false, n := 1, w := 1 }

/-- The window defaults of R400: steps below and above the reference. -/
def winDefault (v : Nat) : Nat × Nat :=
  if v = 0 then (16, 16) else if v = 3 then (30, 40) else (10, 10)

/-- The counters of a tamper source (R401, R420). -/
structure SrcCount where
  fired : Bool
  events : Nat
  /-- ticks of the events counted toward N, oldest first -/
  recent : List Nat
  /-- tick of the last event -/
  last : Option Nat
  /-- consecutive failing samples on the cell (R401) -/
  cellRun : Nat
deriving DecidableEq, Repr

def srcCountReset : SrcCount := { fired := false, events := 0, recent := [], last := none, cellRun := 0 }

/-- A quench with main power in progress (R405): the tick of its firing, and whether it ends in a halt. -/
structure Quench where
  since : Nat
  halt : Bool
deriving DecidableEq, Repr

/-- The tamper unit (R399 to R420). -/
structure Tmp where
  /-- no LIFE_TAMPER_SET has committed since the defaults were taken -/
  defaults : Bool
  cfg : KMap SrcCfg
  win : KMap (Nat × Nat)
  tempLow : Int
  tempHigh : Int
  cellTempLow : Int
  cellTempHigh : Int
  meshEn : Nat
  throttleDuty : Nat
  cnt : KMap SrcCount
  /-- TMP_RESPONSE: LEVEL and SOURCE -/
  level : Nat
  source : Nat
  /-- sources whose THROTTLE has not ended -/
  throttling : List Nat
  quench : Option Quench
  /-- halted by QUENCH_HALT until main power is removed (R406) -/
  halted : Bool
  temp : KMap Int
  volt : KMap Nat
  meshOk : Nat
  meshMiss : KMap Nat
  fired : KMap Nat
  lastSource : Nat
  lastResp : Nat
  lastTime : Nat
  cfgSeq : Nat
  /-- PLL_LOCK, SYSCLK_OK, FREQ_OK -/
  clockOk : Nat
  clearNs : Nat
  scrubUs : Nat
  events : Nat
  intStatus : Nat
  intEnable : Nat
deriving DecidableEq, Repr

def tmpReset : Tmp :=
  { defaults := true, cfg := [], win := [], tempLow := -45, tempHigh := 115, cellTempLow := -45, cellTempHigh := 115,
    meshEn := 0, throttleDuty := 32, cnt := [], level := 0, source := 0, throttling := [], quench := none, halted := false, temp := [],
    volt := [], meshOk := 0, meshMiss := [], fired := [], lastSource := 0, lastResp := 0, lastTime := 0, cfgSeq := 0,
    clockOk := 0, clearNs := 0, scrubUs := 0, events := 0, intStatus := 0, intEnable := 0 }

end Sys2Proof.Machine
end

