-- ==== Sys2Proof/Machine/StRecord.lean ====
section
/-! DEFINITION. The state of the performance counters, the event recorder and the repair machinery:
18_counters_recorder_service.md R456 to R479. -/

namespace Sys2Proof.Machine

/-- An event record (R462); its CRC is computed when it is read. -/
structure EvtRec where
  type : Nat
  source : Nat
  severity : Nat
  flags : Nat
  repeats : Nat
  firstHours : Nat
  lastHours : Nat
  cycles : Nat
  unit : Nat
  tenant : Nat
  grid : Nat
  seq : Nat
  payload : Bytes
  /-- the record has been written to the history (R466) -/
  flushed : Bool
deriving DecidableEq, Repr

/-- The event recorder (R465 to R469). -/
structure Evt where
  /-- the ring, oldest first -/
  ring : List EvtRec
  /-- the history in flash, oldest first, in pages of 64 with the padding of a final flush (TYPE 0) -/
  history : List EvtRec
  historyCap : Nat
  nextSeq : Nat
  oldestSeq : Nat
  erasing : Bool
  /-- history pages still to erase after a clear, and pages erased (R468, R503) -/
  erasePages : Nat
  pagesErased : Nat
  /-- events dropped since the last DROPPED record (R466) -/
  dropPending : Nat
  written : Nat
  merged : Nat
  dropped : Nat
  flushes : Nat
  pageFail : Nat
  recordFail : Nat
  clears : Nat
  faults : Nat
  alarms : Nat
  lastType : Nat
  lastSeverity : Nat
  lastSeq : Nat
  untraceable : Nat
  intStatus : Nat
  intEnable : Nat
deriving DecidableEq, Repr

def evtReset : Evt :=
  { ring := [], history := [], historyCap := 0, nextSeq := 0, oldestSeq := 0, erasing := false,
    erasePages := 0, pagesErased := 0, dropPending := 0, written := 0, merged := 0, dropped := 0, flushes := 0,
    pageFail := 0, recordFail := 0, clears := 0, faults := 0, alarms := 0, lastType := 0, lastSeverity := 0, lastSeq := 0,
    untraceable := 0, intStatus := 0, intEnable := 0 }

/-- The performance counters (R456 to R461): counters 0–383 of the pavilions, 384–607 device-wide. -/
structure Pmc where
  count : KMap Nat
  /-- w_i of the ten bandwidth meters, bytes of the current window, and whether the window is to be discarded -/
  window : KMap Nat
  moved : KMap Nat
  fresh : KMap Bool
  /-- grid tick at which the last window ended -/
  ended : KMap Nat
  intStatus : Nat
  intEnable : Nat
deriving DecidableEq, Repr

def pmcReset : Pmc := { count := [], window := [], moved := [], fresh := [], ended := [], intStatus := 0, intEnable := 0 }

/-- What repair work runs on a part. -/
inductive RepairWork where
  /-- an orderly quarantine drains -/
  | draining
  /-- a forced quarantine waits for its scrubs; the tick from which the wedge time counts -/
  | forcing (since : Nat)
  /-- a test runs -/
  | testing
deriving DecidableEq, Repr

/-- Repair work in progress on a part, with the command that waits for it. -/
structure Repair where
  kind : Nat
  index : Nat
  work : RepairWork
  testOnly : Bool
  /-- CAUSE: 1 orderly, 2 forced, 3 AUTO, 4 SELFTEST, 5 boot test -/
  cause : Nat
  started : Nat
  /-- function, queue and tag of each waiting command -/
  waiters : List (Nat × Nat × Nat)
  /-- a SELFTEST schedule action returns the part after its test -/
  thenReturn : Bool
deriving DecidableEq, Repr

/-- The repair registers and states of parts other than engines (R470 to R479). -/
structure Rep where
  work : List Repair
  /-- quarantined pavilions, big-number engines, Keccak cores, SHA-2 cores, peer ports (by index) -/
  pavs : List Nat
  bnes : List Nat
  kecs : List Nat
  shas : List Nat
  peers : List Nat
  /-- ticks of the last FAULT_DETECTED on a part (kind × 512 + index), newest first -/
  faultTicks : KMap (List Nat)
  intStatus : Nat
  intEnable : Nat
  lastKind : Nat
  lastIndex : Nat
  lastEvent : Nat
deriving DecidableEq, Repr

def repReset : Rep :=
  { work := [], pavs := [], bnes := [], kecs := [], shas := [], peers := [], faultTicks := [], intStatus := 0,
    intEnable := 0, lastKind := 0, lastIndex := 0, lastEvent := 0 }

/-- A pavilion (R184, R478): registers, and its program cache and queue. -/
structure Pav where
  cacheUsed : Nat
  cacheHit : Nat
  cacheMiss : Nat
  coreWait : Nat
  scrubs : Nat
  intStatus : Nat
  intEnable : Nat
  /-- overlays held in the program cache, newest first: (program, overlay, KiB) (R182) -/
  cache : List (Nat × Nat × Nat)
  /-- the slot held as spare, if any -/
  spare : Option Nat
  /-- PAV_TEST: state, kind, local number, code of the first failing vector -/
  testState : Nat
  testKind : Nat
  testLocal : Nat
  failCode : Nat
  substCount : Nat
  tests : Nat
  testFails : Nat
  quarCount : Nat
  testTime : Nat
  lastCause : Nat
  /-- issue slots used of the current 64 (R28) -/
  issued : Nat
  gated : Bool
  /-- the state in each of the pavilion's cores, 0 to 3 Keccak, 4 and 5 SHA-2 (R13) -/
  coreState : KMap Bytes
  /-- number of the next core request that waits (R169) -/
  wantNext : Nat
deriving DecidableEq, Repr

def pavReset : Pav :=
  { cacheUsed := 0, cacheHit := 0, cacheMiss := 0, coreWait := 0, scrubs := 0, intStatus := 0, intEnable := 0, cache := [],
    spare := some 16, testState := 0, testKind := 0, testLocal := 0, failCode := 0, substCount := 0, tests := 0,
    testFails := 0, quarCount := 0, testTime := 0, lastCause := 0, issued := 0, gated := false,
    coreState := [], wantNext := 0 }

end Sys2Proof.Machine
end

