-- ==== Sys2Proof/Machine/StRng.lean ====
section
/-! DEFINITION. The state of the kiln: 11_random.md R302 to R322. -/

namespace Sys2Proof.Machine

/-- The kiln's states (R311). -/
inductive KilnState where
  | off | warming | running | degraded | failed | raw
deriving DecidableEq, Repr

/-- The states of a source (R322): passing, excluded, quarantined, absent. -/
inductive SrcState where
  | passing | excluded | quarantined | absent
deriving DecidableEq, Repr

/-- A noise source (R302 to R305). -/
structure Src where
  st : SrcState
  /-- its next window is the start-up test -/
  test : Bool
  /-- the start-up test is of an ADMIN_SERVICE_RETURN with TEST_ONLY (R305, R475) -/
  testOnly : Bool
  lastFail : Nat
  fails : Nat
  /-- a run of the window under way has already been counted, in RAW (R303, R318) -/
  runSeen : Bool
  beat : Nat
  aliveLow : Nat
deriving DecidableEq, Repr

def srcReset : Src :=
  { st := .passing, test := false, testOnly := false, lastFail := 0, fails := 0, runSeen := false, beat := 0, aliveLow := 0 }

/-- A DRBG instance (R307 to R309): CTR_DRBG key and counter block. -/
structure Inst where
  seeded : Bool
  stalled : Bool
  key : Bytes
  v : Bytes
  requests : Nat
  /-- local tick of the last seed -/
  seedTick : Nat
deriving DecidableEq, Repr

def instReset : Inst := { seeded := false, stalled := false, key := [], v := [], requests := 0, seedTick := 0 }

/-- An RNG_READ in progress (R316): its command and the local tick from which its bytes count. -/
structure PortRead where
  cmd : Cmd
  since : Nat
deriving DecidableEq, Repr

/-- An RNG_RAW_READ in progress (R319): samples gathered, one bit each, oldest first. -/
structure RawRead where
  cmd : Cmd
  source : Nat
  conditioned : Bool
  bits : List Bool
deriving DecidableEq, Repr

structure Rng where
  st : KilnState
  srcs : KMap Src
  /-- the conditioning register r, its count n, and the block queue (R306) -/
  reg : BitVec 256
  n : Nat
  blocks : List (BitVec 256)
  inst : KMap Inst
  /-- cause of the stop: 0x01E2 SOURCES_LOW or 0x01E4 DRBG_KAT -/
  cause : Nat
  /-- local tick of the last enable -/
  enabled : Nat
  warmTime : Nat
  emberZero : Bool
  emberWrites : Nat
  emberTick : Nat
  rawSource : Nat
  rawCond : Bool
  ports : List PortRead
  rawReads : List RawRead
  /-- RNG_RESTART waits for the kiln to leave WARMING (R317) -/
  restart : Option Cmd
  intStatus : Nat
  intEnable : Nat
  rawBits : Nat
  blockCount : Nat
  reseeds : Nat
  portBytes : Nat
  rctFail : Nat
  aptFail : Nat
  aliveFail : Nat
  lockFail : Nat
  stalls : Nat
deriving DecidableEq, Repr

/-- The kiln after reset: OFF (R311, R322). -/
def rngReset : Rng :=
  { st := .off, srcs := [], reg := 0, n := 0, blocks := [], inst := [], cause := 0, enabled := 0, warmTime := 0,
    emberZero := false, emberWrites := 0, emberTick := 0, rawSource := 0, rawCond := false, ports := [], rawReads := [],
    restart := none, intStatus := 0, intEnable := 0, rawBits := 0, blockCount := 0, reseeds := 0, portBytes := 0,
    rctFail := 0, aptFail := 0, aliveFail := 0, lockFail := 0, stalls := 0 }

end Sys2Proof.Machine
end

