-- ==== Sys2Proof/Machine/StTenant.lean ====
section
/-! DEFINITION. The state of tenants and virtual functions: 13_tenancy.md R351 to R373. -/

namespace Sys2Proof.Machine

/-- A tenant's quota record (R352). -/
structure Quota where
  unitsMax : Nat
  metersMax : Nat
  streamsMax : Nat
  vfsMax : Nat
  schedMax : Nat
  programKib : Nat
deriving DecidableEq, Repr

/-- The states of a VF (R358). -/
inductive VfState where
  | unbound | serving | draining | quiesced | frozen
deriving DecidableEq, Repr

/-- A virtual function. -/
structure Vf where
  st : VfState
  tenant : Nat
  perfRead : Bool
  /-- FLR_BUSY, and the local tick F at which the reset was written (R361) -/
  flrBusy : Bool
  flrTick : Nat
  /-- the reset found the VF QUIESCED or FROZEN and has nothing to drain (R363) -/
  flrPlain : Bool
  /-- the quiesce commands that wait for the drain or the end of a reset: function, queue and tag (R359, R372) -/
  quiescer : List (Nat × Nat × Nat)
  /-- counters 0 to 12 of the tenant view (R369); 13 to 15 are gauges -/
  view : KMap Nat
deriving DecidableEq, Repr

def vfReset : Vf :=
  { st := .unbound, tenant := 0, perfRead := false, flrBusy := false, flrTick := 0, flrPlain := false, quiescer := [],
    view := [] }

/-- Tenants and VFs; tenant 0x000 always exists and is not listed unless its quotas were set (R351, R352). -/
structure Ten where
  tenants : KMap Quota
  vf : KMap Vf
deriving DecidableEq, Repr

/-- The maxima of the quota record. -/
def quotaMax : Quota :=
  { unitsMax := 196352, metersMax := 4096, streamsMax := 16384, vfsMax := 1023, schedMax := 256, programKib := 4096 }

def tenReset : Ten := { tenants := [], vf := [] }

end Sys2Proof.Machine
end

