-- ==== Sys2Proof/Machine/State.lean ====
section
/-! DEFINITION. The state of the part: one field per block, plain data throughout, and the queue of commands that
wait. -/

namespace Sys2Proof.Machine

open Sys2Proof

/-- The whole part. -/
structure State where
  /-- local ticks since power-up: durations are counted in them (the model's own clock; one tick passes when the queue is empty) -/
  tick : Nat
  /-- the sundial (R31–R53) -/
  sdl : Sdl
  /-- the host port and the gatehouse (R54–R93) -/
  gth : Gth
  /-- the key store (R116–R150) -/
  kst : Kst
  /-- command authority and the operator port (R94–R115) -/
  aut : Aut
  /-- the peat domain (R94, R133, R139, R405–R421) -/
  peat : Peat
  /-- the 272 engines, by physical index (R9, R153–R183) -/
  eng : KMap Eng
  /-- the pavilions (R182, R184, R478) -/
  pav : KMap Pav
  /-- the program store and the publishers (R177–R181) -/
  lib : Lib
  /-- the big-number pool (R276–R301) -/
  bne : Bne
  /-- measurement registers and the cipher and digest counters (R249–R275) -/
  dgs : Dgs
  /-- the kiln (R302–R322) -/
  rng : Rng
  /-- the park (R323–R350) -/
  prk : Prk
  /-- tenants and virtual functions (R351–R373) -/
  ten : Ten
  /-- the Lodge (R374–R385) -/
  ldg : Ldg
  /-- the memory protection units (R386–R394) -/
  mpu : Mpu
  /-- the power manager (R28–R30, R395) -/
  pwr : Pwr
  /-- the tamper unit (R399–R420) -/
  tmp : Tmp
  /-- the life cycle (R422–R430) -/
  lcs : Lcs
  /-- debug (R431–R440) -/
  dbg : Dbg
  /-- the test access port (R431, R494) -/
  tap : Tap
  /-- start-up, reset and flash (R441–R455) -/
  boot : Boot
  /-- the event recorder (R462–R469) -/
  evt : Evt
  /-- the performance counters and meters (R456–R461) -/
  pmc : Pmc
  /-- in-service repair (R470–R479) -/
  rep : Rep
  /-- the latched high parts, one for each register pair and master: 3 × pair + master (R507) -/
  latch : KMap Nat
  /-- the model's own counter that free values are applied to -/
  freeCtr : Nat
  /-- what the part has sent, oldest first (the model's own record) -/
  out : List Output
  /-- the commands that wait, first in, first out -/
  pending : List Instr
deriving DecidableEq, Repr

/-- Why the part stops with a fault. -/
inductive Fault where
  /-- A command names a unit that the part does not have (for example a port that is no port). Raised by no meaning:
  every index of a command is of a bounded type. Safe: nothing runs past it. -/
  | noSuchUnit
deriving DecidableEq, Repr

/-- Why a command has no meaning. -/
inductive Refusal where
  /-- The command has no meaning yet in this model. Safe. -/
  | notModelled (mnemonic : String)
deriving DecidableEq, Repr

/-- The machine after reset: every block at its reset values, nothing pending (R447, R455, and the Reset columns). -/
def State.reset : State :=
  { tick := 0,
    sdl := sdlReset,
    gth := gthReset,
    kst := kstReset,
    aut := autReset,
    peat := peatReset,
    eng := [],
    pav := [],
    lib := libReset,
    bne := bneReset,
    dgs := dgsReset,
    rng := rngReset,
    prk := prkReset,
    ten := tenReset,
    ldg := ldgReset,
    mpu := mpuReset,
    pwr := pwrReset,
    tmp := tmpReset,
    lcs := lcsReset,
    dbg := dbgReset,
    tap := tapReset,
    boot := bootReset,
    evt := evtReset,
    pmc := pmcReset,
    rep := repReset,
    latch := [],
    freeCtr := 0,
    out := [],
    pending := [] }

end Sys2Proof.Machine
end

