-- ==== Sys2Proof/Machine/Ops.lean ====
section
/-! DEFINITION. The named operations every block uses: engines and queue pairs by index, counters, interrupts, event
records (R462 to R466), completions (R22, R64, R69, R85), free values. -/

namespace Sys2Proof.Machine

/-! Time -/

/-- Grid time now. -/
def now (s : State) : Nat := s.sdl.grid

/-- No traceable time: UNTRACEABLE or ACQUIRE (R35, R38). -/
def untraceable (s : State) : Bool := s.sdl.state == .untraceable || s.sdl.state == .acquire

/-! Tables by index -/

def getEng (s : State) (e : Nat) : Eng := kget engReset s.eng e
def setEng (s : State) (e : Nat) (g : Eng) : State := { s with eng := kset engReset s.eng e g }
def getPav (s : State) (p : Nat) : Pav := kget (fun _ => pavReset) s.pav p
def setPav (s : State) (p : Nat) (v : Pav) : State := { s with pav := kset (fun _ => pavReset) s.pav p v }
def getQp (s : State) (k : Nat) : QPair := kget (fun _ => qpReset) s.gth.qp k
def setQp (s : State) (k : Nat) (q : QPair) : State :=
  { s with gth := { s.gth with qp := kset (fun _ => qpReset) s.gth.qp k q } }

/-- The index of a queue pair: function × 16 + queue. -/
def qpIx (fn queue : Nat) : Nat := 16 * fn + queue

/-- Put on the part's output. -/
def emit (s : State) (o : Output) : State := { s with out := s.out ++ [o] }
def emitAll (s : State) (os : List Output) : State := { s with out := s.out ++ os }

/-- The counter of free values, and the state with it advanced. -/
def freshCtr (s : State) : Nat := s.freeCtr
def bumpCtr (s : State) : State := { s with freeCtr := s.freeCtr + 1 }

/-- The answer of a command: the state it leaves, but for the queue of waiting commands, which no command touches. -/
def answer (s t : State) : Host.Outcome State Fault Refusal := .next { t with pending := s.pending }

/-- A quench runs, or the part was halted by one: everything but the peat domain and the tamper unit stands still. -/
def stopped (s : State) : Bool := s.tmp.quench.isSome || s.tmp.halted

/-- The part is powered and no quench has stopped it: its ports take part in what happens around it (R405, R485). -/
def live (s : State) : Bool := s.boot.pwrGood && !stopped s

/-- What reaches a port of a part that is not live has no effect (R405, R485). -/
def answerLive (s t : State) : Host.Outcome State Fault Refusal := answer s (if live s then t else s)

/-- A number with bit `b` cleared. -/
def bitClear (n b : Nat) : Nat := if n.testBit b then n - 2 ^ b else n

/-! Interrupts -/

/-! MSI-X (R54, R58) -/

def getMsix (s : State) (fn v : Nat) : MsixEntry := kget (fun _ => msixReset) s.gth.msix (64 * fn + v)
def setMsix (s : State) (fn v : Nat) (e : MsixEntry) : State :=
  { s with gth := { s.gth with msix := kset (fun _ => msixReset) s.gth.msix (64 * fn + v) e } }

/-- The pending bit of a vector in the PBA. -/
def msixPending (s : State) (fn v : Nat) : Bool := kget (fun _ => false) s.gth.pba (64 * fn + v)
def setPending (s : State) (fn v : Nat) (b : Bool) : State :=
  { s with gth := { s.gth with pba := kset (fun _ => false) s.gth.pba (64 * fn + v) b } }

/-- MSI-X Enable and Function Mask of a function. -/
def msixCtl (s : State) (fn : Nat) : Nat := kget (fun _ => 0) s.gth.pci.msixCtl fn

/-- A message of a vector can be sent: MSI-X is enabled, and neither the function nor the vector is masked. -/
def msixOpen (s : State) (fn v : Nat) : Bool :=
  (msixCtl s fn).testBit 1 && !(msixCtl s fn).testBit 0 && !(getMsix s fn v).masked

/-- One more message sent: MSIX_SENT, 48 bits; its wrap sets WRAP (R456, R458). -/
def countMsix (s : State) : State :=
  let n := kget (fun _ => 0) s.pmc.count 546 + 1
  { s with pmc := { s.pmc with count := kset (fun _ => 0) s.pmc.count 546 (n % 2 ^ 48),
                               intStatus := if n < 2 ^ 48 then s.pmc.intStatus else s.pmc.intStatus ||| 1 } }

/-- Send the message of a vector; a masked one is kept in its pending bit, and a function whose MSI-X is not enabled sends
none. -/
def sendMsix (s : State) (fn v : Nat) : State :=
  if msixOpen s fn v then emit (countMsix s) (.msix fn v)
  else if (msixCtl s fn).testBit 1 then setPending s fn v true
  else s

/-- The IDE stream must be Secure and is not: no DMA, no fetch, no completion (R63). -/
def ideBlocked (s : State) : Bool := s.gth.ideRequired && !s.gth.ideSecure

/-- Set bits of an interrupt status register. -/
def orBits (v b : Nat) : Nat := v ||| b

/-- Bit `b` as a mask when the status register does not hold it yet: a bit that is already set raises no new message. -/
def newBit (status b : Nat) : Nat := if status.testBit b then 0 else 2 ^ b

/-- The message of a PF block vector, sent when an enabled bit becomes set (R69). -/
def vectorFor (s : State) (status enable vector : Nat) : State :=
  if status &&& enable = 0 then s else sendMsix s 0 vector

def sdlInt (s : State) (b : Nat) : State :=
  let d := { s.sdl with intStatus := s.sdl.intStatus ||| 2 ^ b }
  vectorFor { s with sdl := d } (newBit s.sdl.intStatus b) d.intEnable 49

def gthInt (s : State) (b : Nat) : State :=
  let d := { s.gth with intStatus := s.gth.intStatus ||| 2 ^ b }
  vectorFor { s with gth := d } (newBit s.gth.intStatus b) d.intEnable 48

def evtInt (s : State) (b : Nat) : State :=
  let d := { s.evt with intStatus := s.evt.intStatus ||| 2 ^ b }
  vectorFor { s with evt := d } (newBit s.evt.intStatus b) d.intEnable 56

def pmcInt (s : State) (b : Nat) : State :=
  let d := { s.pmc with intStatus := s.pmc.intStatus ||| 2 ^ b }
  vectorFor { s with pmc := d } (newBit s.pmc.intStatus b) d.intEnable 57

def repInt (s : State) (b : Nat) : State :=
  let d := { s.rep with intStatus := s.rep.intStatus ||| 2 ^ b }
  vectorFor { s with rep := d } (newBit s.rep.intStatus b) d.intEnable 58

def pavInt (s : State) (p b : Nat) : State :=
  let d := { getPav s p with intStatus := (getPav s p).intStatus ||| 2 ^ b }
  vectorFor (setPav s p d) (newBit (getPav s p).intStatus b) d.intEnable 58

/-! Performance counters (R456): 48 bits, wrapping, each wrap sets WRAP -/

def pmcGet (s : State) (i : Nat) : Nat := kget (fun _ => 0) s.pmc.count i

def pmcAdd (s : State) (i n : Nat) : State :=
  if n = 0 then s else
  let v := pmcGet s i + n
  let s' := { s with pmc := { s.pmc with count := kset (fun _ => 0) s.pmc.count i (v % 2 ^ 48) } }
  if v < 2 ^ 48 then s' else pmcInt s' 0

/-- Device-wide counter d (R458). -/
def pmcDev (s : State) (d n : Nat) : State := pmcAdd s (384 + d) n
/-- Counter j of pavilion p (R458). -/
def pmcPav (s : State) (p j n : Nat) : State := pmcAdd s (24 * p + j) n

/-! Bandwidth meters (R459): bytes moved in the current window -/

def meterAdd (s : State) (i n : Nat) : State :=
  { s with pmc := { s.pmc with moved := kmod (fun _ => 0) s.pmc.moved i (· + n) } }

/-! Event records (R462 to R466) -/

/-- Severities of R462. -/
def sevInfo : Nat := 0
def sevNotice : Nat := 1
def sevWarning : Nat := 2
def sevFault : Nat := 3
def sevAlarm : Nat := 4

/-- The three payload layouts of R464. -/
def payCommand (opcode fn tag status detail keyA select accepted : Nat) : Bytes :=
  leBytes 2 opcode ++ leBytes 2 fn ++ leBytes 4 tag ++ leBytes 2 status ++ leBytes 2 detail ++ leBytes 4 keyA
    ++ leBytes 4 select ++ leBytes 4 accepted
def payPart (kind index code core v0 v1 : Nat) : Bytes :=
  leBytes 1 kind ++ [0] ++ leBytes 2 index ++ leBytes 2 code ++ leBytes 2 core ++ leBytes 8 v0 ++ leBytes 8 v1
def payState (old new cause v0 v1 : Nat) : Bytes :=
  leBytes 1 old ++ leBytes 1 new ++ leBytes 2 cause ++ leBytes 8 v0 ++ leBytes 8 v1 ++ List.replicate 4 0

/-- The 64 bytes of a record, CRC included (R462). -/
def recBytes (r : EvtRec) : Bytes :=
  let b := leBytes 2 r.type ++ leBytes 2 r.source ++ leBytes 1 r.severity ++ leBytes 1 r.flags ++ leBytes 2 r.repeats
    ++ leBytes 4 r.firstHours ++ leBytes 4 r.lastHours ++ leBytes 3 r.cycles ++ leBytes 1 r.unit ++ leBytes 2 r.tenant
    ++ [0, 0] ++ leBytes 8 r.grid ++ leBytes 4 r.seq ++ padTo 24 r.payload
  b ++ leBytes 4 (crc32c b)

/-- Unflushed records of the ring. -/
def unflushed (s : State) : Nat := (s.evt.ring.filter (fun r => !r.flushed)).length

/-- Does an event merge into record `r` (R465)? -/
def mergesInto (r : EvtRec) (type source sev : Nat) (tenant : Option Nat) (payload : Bytes) : Bool :=
  !r.flushed && r.type == type && r.source == source && r.severity == sev && r.payload == payload
    && (match tenant with
        | none => r.flags % 2 == 0
        | some t => r.flags % 2 == 1 && r.tenant == t)

/-- Append a new record of an event at an hours count, `cell` for one of the cell log; a flushed oldest record gives its place
once the ring is full. -/
def newRecordAt (s : State) (type source sev : Nat) (tenant : Option Nat) (payload : Bytes) (grid hours : Nat) (cell : Bool) :
    State :=
  let fl := (match tenant with
    | none => 0
    | some _ => 1) + (if grid = 0 then 2 else 0) + 4 * b2n cell
  let r : EvtRec :=
    { type := type, source := source, severity := sev, flags := fl, repeats := 1, firstHours := hours,
      lastHours := hours, cycles := s.peat.cycles, unit := if s.prk.addressed then s.prk.address else 0xFF,
      tenant := tenant.getD 0, grid := grid, seq := s.evt.nextSeq, payload := payload, flushed := false }
  let ring := s.evt.ring ++ [r]
  let ring' := if 4096 < ring.length then ring.drop 1 else ring
  let e := { s.evt with
    ring := ring', nextSeq := (s.evt.nextSeq + 1) % 2 ^ 32,
    oldestSeq := if s.evt.ring = [] ∧ s.evt.history = [] then s.evt.nextSeq else s.evt.oldestSeq,
    written := satInc 32 s.evt.written,
    faults := if sev = sevFault then satInc 32 s.evt.faults else s.evt.faults,
    alarms := if sev = sevAlarm then satInc 32 s.evt.alarms else s.evt.alarms,
    lastType := type, lastSeverity := sev, lastSeq := s.evt.nextSeq,
    untraceable := if grid = 0 then satInc 32 s.evt.untraceable else s.evt.untraceable }
  let s1 := pmcDev { s with evt := e } 203 1
  let s2 := evtInt s1 0
  if sev = sevFault ∨ sev = sevAlarm then evtInt s2 1 else s2

/-- A record of an event that happens now. -/
def newRecord (s : State) (type source sev : Nat) (tenant : Option Nat) (payload : Bytes) (grid : Nat) : State :=
  newRecordAt s type source sev tenant payload grid s.peat.hours false

/-- The grid field of a record: zero in the UNTRACEABLE and ACQUIRE states (R39, R462). -/
def recGrid (s : State) : Nat := if untraceable s then 0 else now s

/-- Record an event: merge, drop while the ring is full of unflushed records, or write a new record; a pending count
of dropped events is written first when space has returned (R465, R466). -/
def record (s : State) (type source sev : Nat) (tenant : Option Nat) (payload : Bytes) : State :=
  match s.evt.ring.getLast? with
  | some r =>
      if mergesInto r type source sev tenant payload then
        let r' := { r with repeats := if r.repeats < 0xFFFF then r.repeats + 1 else r.repeats, lastHours := s.peat.hours }
        pmcDev { s with evt := { s.evt with ring := (s.evt.ring.dropLast ++ [r']), merged := satInc 32 s.evt.merged } } 204 1
      else if 4096 ≤ unflushed s then
        let e := { s.evt with
          dropPending := s.evt.dropPending + 1, dropped := satInc 32 s.evt.dropped }
        pmcDev (evtInt { s with evt := e } 2) 205 1
      else
        let s1 := if s.evt.dropPending = 0 then s
          else newRecord { s with evt := { s.evt with dropPending := 0 } } 0x0002 0 sevNotice none
            (payState 0 0 0 s.evt.dropPending 0) (recGrid s)
        newRecord s1 type source sev tenant payload (recGrid s)
  | none => newRecord s type source sev tenant payload (recGrid s)

/-! Completions (R22, R45, R64, R69, R85) -/

/-- The unit byte of a completion: the park address, or 0xFF outside a park (R85). -/
def unitByte (s : State) : Nat := if s.prk.addressed then s.prk.address else 0xFF

/-- Channels from 1,024 on are custodians at the console: they have no queue (R94, R113); nor have the shares of
other units, from 2,048 on (R345). -/
def hasQueue (fn : Nat) : Bool := decide (fn < 1024)

/-! The tenant view (R369) -/

/-- Add to a counter of the view of a VF; views are kept for bound VFs. 48 bits. -/
def viewAdd (s : State) (fn i n : Nat) : State :=
  if 1 ≤ fn ∧ fn < 1024 then
    let v := kget (fun _ => vfReset) s.ten.vf fn
    if v.st = .unbound then s
    else
      let v' := { v with view := kset (fun _ => 0) v.view i ((kget (fun _ => 0) v.view i + n) % 2 ^ 48) }
      { s with ten := { s.ten with vf := kset (fun _ => vfReset) s.ten.vf fn v' } }
  else s

/-- The counters a completion moves: its status, LATE, ABORTED, KEY_EXHAUSTED, and `class` (1 OK, 2 rejected at once,
3 other). -/
def viewComplete (s : State) (fn status detail cls : Nat) : State :=
  let s1 := viewAdd s fn cls 1
  let s2 := if detail = 1 then viewAdd s1 fn 4 1 else s1
  let s3 := if status = 0x0601 then viewAdd s2 fn 5 1 else s2
  if status = 0x0203 then viewAdd s3 fn 7 1 else s3

/-! The console link (R109, R110) -/

/-- The bytes of a console frame. -/
def conFrame (type seq : Nat) (payload : Bytes) : Bytes :=
  let b := [0x3C] ++ leBytes 1 type ++ leBytes 2 payload.length ++ leBytes 2 seq ++ payload
  b ++ leBytes 4 (crc32c b)

/-- Send a frame to the console; every frame but an ACK waits for its acknowledgement and is resent after 104,858
ticks. -/
def conSend (s : State) (type : Nat) (payload : Bytes) : State :=
  let f := conFrame type s.aut.conSeq payload
  let q := if type = 0x07 then s.aut.conOut
           else s.aut.conOut ++ [{ seq := s.aut.conSeq, bytes := f, resent := 0, due := s.tick + 104858 }]
  emit { s with aut := { s.aut with conSeq := (s.aut.conSeq + 1) % 65536, conOut := q } } (.port .console f)

/-- The 32 bytes of a completion (R85). -/
def completionBytes (c : Completion) : Bytes :=
  leBytes 4 c.tag ++ leBytes 2 c.status ++ leBytes 2 c.detail ++ leBytes 4 c.written ++ leBytes 8 c.time
    ++ leBytes 8 c.pair ++ leBytes 1 c.unit ++ [0, 0, 0]

/-- A gate command of an applet partition completes in the partition's own memory (R380): queue 256 + 64 times the number of its
call + partition. After its call has ended, the completion is discarded. -/
def gateDone (s : State) (gate fn : Nat) (c : Completion) (out : Bytes) : State :=
  let part := gate % 64
  match kfind s.ldg.parts part with
  | none => s
  | some a =>
      if a.gateOut = 0 ∨ a.calls ≠ gate / 64 then s
      else
        let s1 := { s with ldg := { s.ldg with parts := kins s.ldg.parts part { a with gateOut := a.gateOut - 1 } } }
        emitAll s1 ((if out = [] then [] else [.data fn (256 + gate) c.tag 0 out]) ++ [.completion fn (256 + gate) c])

/-- Write a completion entry behind its output: the queue's CQ_TAIL moves, and the tail record and the MSI-X message of the
tick are due. -/
def postEntry (s : State) (fn queue : Nat) (w : List Output) (bytes : Nat) (c : Completion) : State :=
  let k := qpIx fn queue
  let q := getQp s k
  let q' := { q with cqTail := (q.cqTail + 1) % (q.depthM1 + 1), inFlight := q.inFlight - 1, tailDue := true,
                     msiDue := q.msiDue || q.intEn }
  meterAdd (viewAdd (emitAll (setQp s k q') (w ++ [.completion fn queue c])) fn 9 bytes) 1 (32 + bytes)

/-- Write the tail record of a queue (R64). -/
def tailWrite (s : State) (k : Nat) : State :=
  let q := getQp s k
  meterAdd (pmcDev (emit (setQp s k { q with tailDue := false, headMoved := false, tailTick := s.tick })
    (.tailRecord (k / 16) (k % 16) q.cqTail q.sqHead)) 163 1) 1 32

/-- What follows the completions of a tick on one queue: its tail record (R64), then its MSI-X message, at most one in a
tick (R69). -/
def queueTail (s : State) (k : Nat) : State :=
  let q := getQp s k
  let s1 := if q.tailDue then tailWrite s k else s
  if q.msiDue && q.msiTick != some s.tick then
    sendMsix (setQp s1 k { getQp s1 k with msiDue := false, msiTick := some s.tick }) (k / 16) q.vector
  else s1

/-- The completions of a tick have been written: the tail records and messages that are due. -/
def flushTick (s : State) : State :=
  if ideBlocked s then s
  else ((s.gth.qp.filter (fun e => e.2.tailDue || e.2.msiDue)).map (fun e => e.1)).foldl queueTail s

/-- What was held for the IDE stream leaves in order; a completion holds the tick at which it left. -/
def ideRelease (s : State) : State :=
  s.gth.ideHeld.foldl (fun s o => match o with
    | .completion fn q c => postEntry s fn q [] 0 { c with time := now s }
    | .data fn _ _ _ b => meterAdd (viewAdd (emit s o) fn 9 b.length) 1 b.length
    | o => emit s o) { s with gth := { s.gth with ideHeld := [] } }

/-- IDE_REQUIRED as ADMIN_POLICY_SET leaves it: the spec gives the policy no field for it, so it is a free value (R63).
Where nothing is held any longer, what was held leaves. -/
def ideChosen (s : State) : State :=
  let b := Sys2Proof.Config.ideRequired s.freeCtr
  let s1 := { bumpCtr s with gth := { s.gth with ideRequired := b } }
  if b && !s.gth.ideSecure then s1 else ideRelease s1

/-- Complete a command. While the link must be encrypted and is not, the completion is held (R63). A console-started
command gets its completion and output in a RESULT frame (R113). `cls` is the class of the tenant view. -/
def completeAs (cls : Nat) (s : State) (fn queue tag status detail written pair : Nat) (out : Bytes) : State :=
  let c : Completion := { tag := tag, status := status, detail := detail, written := written, time := now s,
                          pair := pair, unit := unitByte s }
  let s := viewComplete (pmcDev (pmcDev s 161 1) (16 + status / 256 % 16) 1) fn status detail cls
  if !hasQueue fn then conSend (emit s (.completion fn queue c)) 0x06 (completionBytes c ++ out)
  else if 256 ≤ queue then gateDone s (queue - 256) fn c out
  else
    let w := if out = [] then [] else [Output.data fn queue tag 0 out]
    if ideBlocked s then
      { s with gth := { s.gth with ideHeld := s.gth.ideHeld ++ w ++ [.completion fn queue c] } }
    else postEntry s fn queue w out.length c

/-- The view class of a released status. -/
def viewClass (status : Nat) : Nat := if status ≤ 1 then 1 else 3

def complete (s : State) (fn queue tag status detail written pair : Nat) : State :=
  completeAs (viewClass status) s fn queue tag status detail written pair []

/-- Complete a command with no output. -/
def completeCmd (s : State) (c : Cmd) (status detail : Nat) : State :=
  complete s c.fn c.queue c.desc.tag status detail 0 0

/-- Complete a command that fails an acceptance check, at once (R19): counted as rejected. -/
def completeReject (s : State) (c : Cmd) (status detail : Nat) : State :=
  completeAs 2 (pmcDev s 169 1) c.fn c.queue c.desc.tag status detail 0 0 []

/-- The output room of a command: OUT_LEN, or 992 bytes at the console (R22, R113). -/
def outRoom (c : Cmd) : Nat := if hasQueue c.fn || decide (2048 ≤ c.fn) then c.desc.outLen else min c.desc.outLen 992

/-- Write a command's output and then its completion; an output that does not fit is not written (R22). -/
def completeOut (s : State) (c : Cmd) (out : Bytes) : State :=
  if outRoom c < out.length then complete s c.fn c.queue c.desc.tag 0x0104 0 out.length 0
  else completeAs 1 s c.fn c.queue c.desc.tag 0 0 out.length 0 out

/-- The same, with a unit bitmap in bytes 20 to 27 (R86) and a status. -/
def completeOutAs (s : State) (c : Cmd) (status pair : Nat) (out : Bytes) : State :=
  completeAs (viewClass status) s c.fn c.queue c.desc.tag status 0 out.length pair out

/-- The tenant of a function: the PF is tenant 0, a VF its bound tenant. -/
def cmdRecordPayload (c : Cmd) (status detail : Nat) : Bytes :=
  payCommand c.desc.opcode c.fn c.desc.tag status detail c.desc.keyA c.desc.select (c.entered % 2 ^ 32)

/-! Asking for a full reset (R450, R453) -/

/-- Request a full reset after `delay` ticks. While one is pending or running there is one reset: the further cause is
recorded, and ADMIN_TIME and ADMIN_COLD widen a pending one. -/
def requestReset (s : State) (cause delay : Nat) (time cold : Bool) : State :=
  let running : Bool := match s.boot.start with
    | some x => x.kind != .power
    | none => false
  let note := record s 0x0E02 cause sevNotice none (payState 0 0 cause 0 0)
  match s.boot.request with
  | some r =>
      { note with boot := { note.boot with request := some { r with time := r.time || time, cold := r.cold || cold } } }
  | none =>
      if running then note
      else
        let r : ResetReq := { cause := cause, due := s.tick + delay, time := time, cold := cold }
        { s with boot := { s.boot with request := some r } }

/-- The sender of what the keeper world asks of itself, and its close of a debug session (R436). -/
def fnKeeper : Nat := 1100
def keeperClose : Cmd :=
  { fn := fnKeeper, queue := 0,
    desc := { opcode := 0xA012, flags := 0, cls := 0, tag := 0, keyA := 0, keyB := 0, select := 0, inLen := 0, inAddr := 0,
              outLen := 0, outAddr := 0, auxLen := 0, auxAddr := 0, authAddr := 0 },
    inSgl := [], outSgl := [], input := [], aux := [], auth := [], tokens := [], dma := .good }

/-- Commands in the keeper mailbox (R26): those that wait and the one the keeper world is executing. -/
def critPending (s : State) : Nat :=
  s.aut.mailbox.length + (if s.aut.wait.isSome || s.aut.busy.isSome then 1 else 0)

/-- The keeper mailbox is full (R26). -/
def critFull (s : State) : Bool := decide (256 ≤ critPending s)

end Sys2Proof.Machine
end

