-- ==== Sys2Proof/Machine/Codes.lean ====
section
/-! DEFINITION. Status codes (R89), detail values (R87, R122 and the details of the other chapters), usage numbers and
algorithm codes (R127) by name. -/

namespace Sys2Proof.Machine

/-! Status codes of R89 -/
def stOk : Nat := 0x0000
def stPartial : Nat := 0x0001
def stParam : Nat := 0x0101
def stLength : Nat := 0x0102
def stOverrun : Nat := 0x0103
def stOutSmall : Nat := 0x0104
def stMismatch : Nat := 0x0105
def stDma : Nat := 0x0106
def stNotFound : Nat := 0x0201
def stUsage : Nat := 0x0202
def stExhausted : Nat := 0x0203
def stWindow : Nat := 0x0204
def stFloor : Nat := 0x0205
def stKeyInvalid : Nat := 0x0206
def stAuth : Nat := 0x0301
def stReplay : Nat := 0x0302
def stQuorum : Nat := 0x0303
def stSig : Nat := 0x0401
def stPoint : Nat := 0x0402
def stRange : Nat := 0x0403
def stDerive : Nat := 0x0404
def stMac : Nat := 0x0405
def stWarming : Nat := 0x0501
def stRngFailed : Nat := 0x0502
def stRawMode : Nat := 0x0503
def stAborted : Nat := 0x0601
def stSquashed : Nat := 0x0602
def stUnitLost : Nat := 0x0603
def stSuspended : Nat := 0x0604
def stNotReady : Nat := 0x0605
def stDenied : Nat := 0x0606
def stProgram : Nat := 0x0701
def stDeclassify : Nat := 0x0702
def stFault : Nat := 0x0801
def stTime : Nat := 0x0901

/-! Details used in more than one place -/
def dReserved : Nat := 0x0023
def dParamSet : Nat := 0x002A
def dStoreFull : Nat := 0x0110
def dQuotaUnits : Nat := 0x0111
def dHandleInUse : Nat := 0x0112
def dNotExportable : Nat := 0x0113
def dWeakWrap : Nat := 0x0114
def dMeterInUse : Nat := 0x0115
def dMeterUnbound : Nat := 0x0116
def dMetersFull : Nat := 0x0117
def dParkKey : Nat := 0x0118
def dRootMismatch : Nat := 0x0119
def dBlobTag : Nat := 0x011A
def dBlobForm : Nat := 0x011B
def dZeroKey : Nat := 0x011C
def dKcvMismatch : Nat := 0x011D
def dDamaged : Nat := 0x011E
def dAttrFixed : Nat := 0x011F
def dOtsLower : Nat := 0x0120
def dAttrForm : Nat := 0x0121
def dMaterialLen : Nat := 0x0122
def dTenantUnknown : Nat := 0x0222
def dVfState : Nat := 0x0224
def dQuotaMeters : Nat := 0x0227
def dQuotaStreams : Nat := 0x0228
def dQuotaVfs : Nat := 0x0229
def dQuotaSchedule : Nat := 0x022A
def dQuotaProgram : Nat := 0x022B

/-! Usages (R127 names them; the numbers are the model's, in the order of R128) -/
def usEncrypt : Nat := 1
def usDecrypt : Nat := 2
def usWrap : Nat := 3
def usUnwrap : Nat := 4
def usDerive : Nat := 5
def usMacGen : Nat := 6
def usMacVerify : Nat := 7
def usSign : Nat := 8
def usVerify : Nat := 9
def usEncaps : Nat := 10
def usDecaps : Nat := 11
def usPinIn : Nat := 12
def usPinOut : Nat := 13
def usCard : Nat := 14
def usDukpt : Nat := 15

/-! Families of algorithm codes (R127) -/
def isAes (a : Nat) : Bool := a == 0x0101 || a == 0x0102 || a == 0x0103
def isTdea (a : Nat) : Bool := a == 0x0111 || a == 0x0112
def isMacAlg (a : Nat) : Bool := a == 0x0121 || a == 0x0122
def isSecretAlg (a : Nat) : Bool := isAes a || isTdea a || isMacAlg a
def isKem (a : Nat) : Bool := (decide (0x0201 ≤ a) && decide (a ≤ 0x0203)) || a == 0x0251
def isMceliece (a : Nat) : Bool := a == 0x0261 || a == 0x0262
def isMldsa (a : Nat) : Bool := decide (0x0211 ≤ a) && decide (a ≤ 0x0213)
def isSlhdsa (a : Nat) : Bool := decide (0x0221 ≤ a) && decide (a ≤ 0x0224)
/-- LMS, HSS and XMSS -/
def isStateful (a : Nat) : Bool := a == 0x0231 || a == 0x0232 || a == 0x0233
def isRsa (a : Nat) : Bool := a == 0x0301
def isEcdsa (a : Nat) : Bool := a == 0x0311 || a == 0x0312 || a == 0x0313
def isEddsa (a : Nat) : Bool := a == 0x0321 || a == 0x0322
def isXdh (a : Nat) : Bool := a == 0x0331 || a == 0x0332
/-- Algorithms that the big-number pool serves (R277). -/
def isClassical (a : Nat) : Bool := isRsa a || isEcdsa a || isEddsa a || isXdh a
def isPq (a : Nat) : Bool := isKem a || isMceliece a || isMldsa a || isSlhdsa a || isStateful a || a == 0x0241
def knownAlg (a : Nat) : Bool := isSecretAlg a || isClassical a || isPq a

/-- Classes of key objects (R123). -/
def clsSecret : Nat := 0
def clsPrivate : Nat := 1
def clsPublic : Nat := 2

/-- The usages permitted for an algorithm and class (R127). -/
def permitted (alg cls : Nat) : List Nat :=
  let aes := [usEncrypt, usDecrypt, usWrap, usUnwrap, usDerive, usMacGen, usMacVerify, usPinIn, usPinOut, usCard]
  if isAes alg && cls == clsSecret then aes ++ [usDukpt]
  else if isTdea alg && cls == clsSecret then aes
  else if isMacAlg alg && cls == clsSecret then [usMacGen, usMacVerify, usDerive]
  else if isKem alg && cls == clsPrivate then if alg = 0x0203 then [usDecaps, usUnwrap] else [usDecaps]
  else if isKem alg && cls == clsPublic then if alg = 0x0203 then [usEncaps, usWrap] else [usEncaps]
  else if isMceliece alg && cls == clsPrivate then [usDecaps]
  else if (isMldsa alg || isSlhdsa alg || isStateful alg || isEddsa alg || alg == 0x0241) && cls == clsPrivate then
    [usSign]
  else if (isMldsa alg || isSlhdsa alg || isStateful alg || isEddsa alg || isEcdsa alg || alg == 0x0241)
      && cls == clsPublic then [usVerify]
  else if isRsa alg && cls == clsPrivate then [usSign, usDecrypt, usUnwrap]
  else if isRsa alg && cls == clsPublic then [usVerify, usEncrypt, usWrap]
  else if isEcdsa alg && cls == clsPrivate then [usSign, usDerive]
  else if isXdh alg && cls == clsPrivate then [usDerive]
  else []

/-- The class of a key of an algorithm with a usage: the one that lists the usage. -/
def classOf (alg usage : Nat) : Option Nat :=
  if (permitted alg clsSecret).contains usage then some clsSecret
  else if (permitted alg clsPrivate).contains usage then some clsPrivate
  else if (permitted alg clsPublic).contains usage then some clsPublic
  else none

/-- The usage paired with a secret key's usage (R129). -/
def pairedUsage (u : Nat) : Nat :=
  if u = usSign then usVerify else if u = usDecaps then usEncaps else if u = usDecrypt then usEncrypt
  else if u = usUnwrap then usWrap else 0

/-- The highest profile an algorithm is offered in (R132). -/
def topProfile (alg : Nat) : Nat := if alg = 0x0262 then 0 else if alg = 0x0241 then 1 else 2

end Sys2Proof.Machine
end

