-- ==== Sys2Proof/Machine/Curves.lean ====
section
/-! DEFINITION. The checks of the big-number engines on encoded points and on RSA keys (10_public_key_engines.md R279, R287,
R295). The curves are those of FIPS 186-5 and RFC 8032, which the rules name and do not restate. -/

namespace Sys2Proof.Machine

/-- `b` to the power `e` modulo `n`, over the `k` lowest bits of `e`. -/
def powGo (n : Nat) : Nat → Nat → Nat → Nat → Nat
  | 0, _, _, acc => acc
  | k + 1, b, e, acc => powGo n k (b * b % n) (e / 2) (if e % 2 = 1 then acc * b % n else acc)

def powMod (k b e n : Nat) : Nat := powGo n k (b % n) e (1 % n)

/-- Lengths of classical keys and signatures (R280, R281): scalar or seed, public key, signature, shared secret. -/
def ecScalar (alg : Nat) : Nat := match alg with
  | 0x0311 => 32 | 0x0312 => 48 | 0x0313 => 66 | 0x0321 => 32 | 0x0322 => 57 | 0x0331 => 32 | 0x0332 => 56 | _ => 0
def ecPub (alg : Nat) : Nat := match alg with
  | 0x0311 => 65 | 0x0312 => 97 | 0x0313 => 133 | 0x0321 => 32 | 0x0322 => 57 | 0x0331 => 32 | 0x0332 => 56 | _ => 0
def ecSig (alg : Nat) : Nat := match alg with
  | 0x0311 => 64 | 0x0312 => 96 | 0x0313 => 132 | 0x0321 => 64 | 0x0322 => 114 | _ => 0

/-- The orders of the curves (FIPS 186-5, RFC 8032), for the range checks of R287 and R295. -/
def curveOrder (alg : Nat) : Nat := match alg with
  | 0x0311 => 0xFFFFFFFF00000000FFFFFFFFFFFFFFFFBCE6FAADA7179E84F3B9CAC2FC632551
  | 0x0312 => 0xFFFFFFFFFFFFFFFFFFFFFFFFFFFFFFFFFFFFFFFFFFFFFFFFC7634D81F4372DDF581A0DB248B0A77AECEC196ACCC52973
  | 0x0313 => (2 ^ 257 - 1) * 2 ^ 264 + 0xFA51868783BF2F966B7FCC0148F709A5D03BB5C9B8899C47AEBB6FB71E91386409
  | 0x0321 => 2 ^ 252 + 27742317777372353535851937790883648493
  | 0x0322 => 2 ^ 446 - 13818066809895115352007386748515426880336692474882178609894547503885
  | _ => 0

/-- HASH of R278 and its length. -/
def hashLen (h : Nat) : Nat := if h = 0 then 32 else if h = 1 then 48 else 64

/-! P-256, P-384 and P-521 -/

def wPrime (alg : Nat) : Nat :=
  if alg = 0x0311 then 2 ^ 256 - 2 ^ 224 + 2 ^ 192 + 2 ^ 96 - 1
  else if alg = 0x0312 then 2 ^ 384 - 2 ^ 128 - 2 ^ 96 + 2 ^ 32 - 1
  else 2 ^ 521 - 1

def wCoeff (alg : Nat) : Nat :=
  if alg = 0x0311 then 0x5AC635D8AA3A93E7B3EBBD55769886BC651D06B0CC53B0F63BCE3C3E27D2604B
  else if alg = 0x0312 then
    0xB3312FA7E23EE7E4988E056BE3F82D19181D9C6EFE8141120314088F5013875AC656398D8A2ED19D2A85C8EDD3EC2AEF
  else 0x0051953EB9618E1C9A1F929A21A0B68540EEA2DA725B99B315F3B8B489918EF109E156193951EC7E937B1652C0BD3BB1BF073573DF883D2C34F1EF451FD46B503F00

/-- An uncompressed point 0x04 ‖ X ‖ Y lies on its curve, its coordinates reduced. The identity has no such encoding. -/
def wOnCurve (alg : Nat) (pt : Bytes) : Bool :=
  let h := (pt.length - 1) / 2
  let p := wPrime alg
  let x := beAt pt 1 h
  let y := beAt pt (1 + h) h
  decide (x < p ∧ y < p) && y * y % p == (x * x * x + (p - 3) * x + wCoeff alg) % p

/-! Ed25519 and Ed448 -/

def ePrime (alg : Nat) : Nat := if alg = 0x0321 then 2 ^ 255 - 19 else 2 ^ 448 - 2 ^ 224 - 1

/-- The numerator and the denominator of x² for a coordinate y. -/
def eSquare (alg y : Nat) : Nat × Nat :=
  let p := ePrime alg
  if alg = 0x0321 then
    -- −x² + y² = 1 − (121665 / 121666) x² y²
    ((121666 * (y * y + p - 1)) % p, ((p - 121665) * (y * y) + 121666) % p)
  else
    -- x² + y² = 1 − 39081 x² y²
    ((y * y + p - 1) % p, ((p - 39081) * (y * y) + p - 1) % p)

/-- An encoded point decodes, its encoding canonical: y is reduced, x² is a square, and an x of zero has no sign. -/
def ePointOk (alg : Nat) (pt : Bytes) : Bool :=
  let p := ePrime alg
  let top := if alg = 0x0321 then 2 ^ 255 else 2 ^ 455
  let y := leNat pt % top
  let r := eSquare alg y
  decide (y < p) && (if r.1 = 0 then decide (leNat pt < top) else powMod 448 (r.1 * r.2) ((p - 1) / 2) p == 1)

/-- The identity: y is 1. -/
def eIdentity (alg : Nat) (pt : Bytes) : Bool := leNat pt % (if alg = 0x0321 then 2 ^ 255 else 2 ^ 455) == 1

/-! RSA private keys (R280, R295) -/

/-- n = p q with halves of k / 2 bits, the exponents consistent with one another, and a pairwise test. The spec names no value
for the pairwise test: DESIGN CHOICE, 2 (log 141). -/
def rsaPrivOk (kb : Nat) (m : Bytes) : Bool :=
  let h := kb / 2
  let n := beAt m 0 kb
  let e := beAt m kb 4
  let d := beAt m (kb + 4) kb
  let p := beAt m (2 * kb + 4) h
  let q := beAt m (2 * kb + 4 + h) h
  let dp := beAt m (2 * kb + 4 + 2 * h) h
  let dq := beAt m (2 * kb + 4 + 3 * h) h
  let qi := beAt m (2 * kb + 4 + 4 * h) h
  n == p * q && p.testBit (8 * h - 1) && q.testBit (8 * h - 1) && e * dp % (p - 1) == 1 && e * dq % (q - 1) == 1
    && qi * q % p == 1 && d % (p - 1) == dp && d % (q - 1) == dq
    && powMod (8 * kb) (powMod 32 2 e n) d n == 2

end Sys2Proof.Machine
end

