-- ==== Sys2Proof/Machine/Sha2.lean ====
section
/-! DEFINITION. SHA-224, SHA-256, SHA-384, SHA-512 of FIPS 180-4 and HMAC of FIPS 198-1: the computation of the
SHA-2 cores (R13, R212) and of the digest opcodes (chapter 09). -/

namespace Sys2Proof.Machine

/-- The constants of SHA-256. -/
def k256 : List Nat :=
  [0x428A2F98, 0x71374491, 0xB5C0FBCF, 0xE9B5DBA5, 0x3956C25B, 0x59F111F1, 0x923F82A4, 0xAB1C5ED5] ++
  [0xD807AA98, 0x12835B01, 0x243185BE, 0x550C7DC3, 0x72BE5D74, 0x80DEB1FE, 0x9BDC06A7, 0xC19BF174] ++
  [0xE49B69C1, 0xEFBE4786, 0x0FC19DC6, 0x240CA1CC, 0x2DE92C6F, 0x4A7484AA, 0x5CB0A9DC, 0x76F988DA] ++
  [0x983E5152, 0xA831C66D, 0xB00327C8, 0xBF597FC7, 0xC6E00BF3, 0xD5A79147, 0x06CA6351, 0x14292967] ++
  [0x27B70A85, 0x2E1B2138, 0x4D2C6DFC, 0x53380D13, 0x650A7354, 0x766A0ABB, 0x81C2C92E, 0x92722C85] ++
  [0xA2BFE8A1, 0xA81A664B, 0xC24B8B70, 0xC76C51A3, 0xD192E819, 0xD6990624, 0xF40E3585, 0x106AA070] ++
  [0x19A4C116, 0x1E376C08, 0x2748774C, 0x34B0BCB5, 0x391C0CB3, 0x4ED8AA4A, 0x5B9CCA4F, 0x682E6FF3] ++
  [0x748F82EE, 0x78A5636F, 0x84C87814, 0x8CC70208, 0x90BEFFFA, 0xA4506CEB, 0xBEF9A3F7, 0xC67178F2]

/-- The constants of SHA-512. -/
def k512 : List Nat :=
  [0x428A2F98D728AE22, 0x7137449123EF65CD, 0xB5C0FBCFEC4D3B2F, 0xE9B5DBA58189DBBC, 0x3956C25BF348B538, 0x59F111F1B605D019, 0x923F82A4AF194F9B, 0xAB1C5ED5DA6D8118] ++
  [0xD807AA98A3030242, 0x12835B0145706FBE, 0x243185BE4EE4B28C, 0x550C7DC3D5FFB4E2, 0x72BE5D74F27B896F, 0x80DEB1FE3B1696B1, 0x9BDC06A725C71235, 0xC19BF174CF692694] ++
  [0xE49B69C19EF14AD2, 0xEFBE4786384F25E3, 0x0FC19DC68B8CD5B5, 0x240CA1CC77AC9C65, 0x2DE92C6F592B0275, 0x4A7484AA6EA6E483, 0x5CB0A9DCBD41FBD4, 0x76F988DA831153B5] ++
  [0x983E5152EE66DFAB, 0xA831C66D2DB43210, 0xB00327C898FB213F, 0xBF597FC7BEEF0EE4, 0xC6E00BF33DA88FC2, 0xD5A79147930AA725, 0x06CA6351E003826F, 0x142929670A0E6E70] ++
  [0x27B70A8546D22FFC, 0x2E1B21385C26C926, 0x4D2C6DFC5AC42AED, 0x53380D139D95B3DF, 0x650A73548BAF63DE, 0x766A0ABB3C77B2A8, 0x81C2C92E47EDAEE6, 0x92722C851482353B] ++
  [0xA2BFE8A14CF10364, 0xA81A664BBC423001, 0xC24B8B70D0F89791, 0xC76C51A30654BE30, 0xD192E819D6EF5218, 0xD69906245565A910, 0xF40E35855771202A, 0x106AA07032BBD1B8] ++
  [0x19A4C116B8D2D0C8, 0x1E376C085141AB53, 0x2748774CDF8EEB99, 0x34B0BCB5E19B48A8, 0x391C0CB3C5C95A63, 0x4ED8AA4AE3418ACB, 0x5B9CCA4F7763E373, 0x682E6FF3D6B2B8A3] ++
  [0x748F82EE5DEFB2FC, 0x78A5636F43172F60, 0x84C87814A1F0AB72, 0x8CC702081A6439EC, 0x90BEFFFA23631E28, 0xA4506CEBDE82BDE9, 0xBEF9A3F7B2C67915, 0xC67178F2E372532B] ++
  [0xCA273ECEEA26619C, 0xD186B8C721C0C207, 0xEADA7DD6CDE0EB1E, 0xF57D4F7FEE6ED178, 0x06F067AA72176FBA, 0x0A637DC5A2C898A6, 0x113F9804BEF90DAE, 0x1B710B35131C471B] ++
  [0x28DB77F523047D84, 0x32CAAB7B40C72493, 0x3C9EBE0A15C9BEBC, 0x431D67C49C100D4C, 0x4CC5D4BECB3E42B6, 0x597F299CFC657E2A, 0x5FCB6FAB3AD6FAEC, 0x6C44198C4A475817]

/-- Initial value of SHA-256. -/
def h256 : List Nat :=
  [0x6A09E667, 0xBB67AE85, 0x3C6EF372, 0xA54FF53A, 0x510E527F, 0x9B05688C, 0x1F83D9AB, 0x5BE0CD19]

/-- Initial value of SHA-224. -/
def h224 : List Nat :=
  [0xC1059ED8, 0x367CD507, 0x3070DD17, 0xF70E5939, 0xFFC00B31, 0x68581511, 0x64F98FA7, 0xBEFA4FA4]

/-- Initial value of SHA-512. -/
def h512 : List Nat :=
  [0x6A09E667F3BCC908, 0xBB67AE8584CAA73B, 0x3C6EF372FE94F82B, 0xA54FF53A5F1D36F1, 0x510E527FADE682D1, 0x9B05688C2B3E6C1F, 0x1F83D9ABFB41BD6B, 0x5BE0CD19137E2179]

/-- Initial value of SHA-384. -/
def h384 : List Nat :=
  [0xCBBB9D5DC1059ED8, 0x629A292A367CD507, 0x9159015A3070DD17, 0x152FECD8F70E5939, 0x67332667FFC00B31, 0x8EB44A8768581511, 0xDB0C2E0D64F98FA7, 0x47B5481DBEFA4FA4]

/-- Rotate a `w`-bit number right. -/
def rorW (w v n : Nat) : Nat := ((v >>> n) ||| (v <<< (w - n))) % 2 ^ w

/-- The rotation amounts of one width: Σ0, Σ1, σ0, σ1 (the last of a σ triple is a shift). -/
structure ShaRot where
  w : Nat
  s0 : Nat × Nat × Nat
  s1 : Nat × Nat × Nat
  l0 : Nat × Nat × Nat
  l1 : Nat × Nat × Nat

def rot256 : ShaRot := ⟨32, (2, 13, 22), (6, 11, 25), (7, 18, 3), (17, 19, 10)⟩
def rot512 : ShaRot := ⟨64, (28, 34, 39), (14, 18, 41), (1, 8, 7), (19, 61, 6)⟩

def bigSigma (w : Nat) (r : Nat × Nat × Nat) (x : Nat) : Nat :=
  rorW w x r.1 ^^^ rorW w x r.2.1 ^^^ rorW w x r.2.2
def smallSigma (w : Nat) (r : Nat × Nat × Nat) (x : Nat) : Nat :=
  rorW w x r.1 ^^^ rorW w x r.2.1 ^^^ (x >>> r.2.2)

/-- Extend the message schedule by `n` words; the list is held newest first. -/
def schedGo (r : ShaRot) : Nat → List Nat → List Nat
  | 0, ws => ws
  | n + 1, ws =>
      let x := (smallSigma r.w r.l1 (ws.getD 1 0) + ws.getD 6 0 + smallSigma r.w r.l0 (ws.getD 14 0)
        + ws.getD 15 0) % 2 ^ r.w
      schedGo r n (x :: ws)

/-- One round: state words a..h, round constant plus schedule word. -/
def shaRound (r : ShaRot) (s : List Nat) (kw : Nat × Nat) : List Nat :=
  match s with
  | [a, b, c, d, e, f, g, h] =>
      let ch := (e &&& f) ^^^ ((e ^^^ (2 ^ r.w - 1)) &&& g)
      let maj := (a &&& b) ^^^ (a &&& c) ^^^ (b &&& c)
      let t1 := h + bigSigma r.w r.s1 e + ch + kw.1 + kw.2
      let t2 := bigSigma r.w r.s0 a + maj
      [(t1 + t2) % 2 ^ r.w, a, b, c, (d + t1) % 2 ^ r.w, e, f, g]
  | _ => s

/-- The compression function: state words and the 16 words of a block. -/
def shaCompress (r : ShaRot) (ks : List Nat) (s blk : List Nat) : List Nat :=
  let ws := (schedGo r (ks.length - 16) blk.reverse).reverse
  let t := (List.zip ks ws).foldl (shaRound r) s
  List.zipWith (fun x y => (x + y) % 2 ^ r.w) s t

/-- The big-endian words of a byte string, `n` words of `k` bytes. -/
def beWords (k n : Nat) (b : Bytes) : List Nat := (List.range n).map (fun i => beAt b (k * i) k)

/-- One SHA-256 compression on byte strings (32-byte state, 64-byte block). -/
def sha256Block (st blk : Bytes) : Bytes :=
  (shaCompress rot256 k256 (beWords 4 8 st) (beWords 4 16 blk)).flatMap (beBytes 4)

/-- One SHA-512 compression on byte strings (64-byte state, 128-byte block). -/
def sha512Block (st blk : Bytes) : Bytes :=
  (shaCompress rot512 k512 (beWords 8 8 st) (beWords 8 16 blk)).flatMap (beBytes 8)

/-- Compress `n` blocks. -/
def shaBlocks (r : ShaRot) (ks : List Nat) : Nat → Bytes → List Nat → List Nat
  | 0, _, s => s
  | n + 1, m, s =>
      let k := r.w / 8
      shaBlocks r ks n (m.drop (16 * k)) (shaCompress r ks s (beWords k 16 m))

/-- Padding of FIPS 180-4: 0x80, zeros, the length in bits. -/
def shaPad (blk : Nat) (m : Bytes) : Bytes :=
  let l := blk / 8
  let z := (blk - (m.length + 1 + l) % blk) % blk
  m ++ [0x80] ++ List.replicate z 0 ++ beBytes l (8 * m.length)

/-- A whole SHA-2 hash. -/
def sha2 (r : ShaRot) (ks iv : List Nat) (m : Bytes) (out : Nat) : Bytes :=
  let p := shaPad (2 * r.w) m
  ((shaBlocks r ks (p.length / (2 * r.w)) p iv).flatMap (beBytes (r.w / 8))).take out

def sha224 (m : Bytes) : Bytes := sha2 rot256 k256 h224 m 28
def sha256 (m : Bytes) : Bytes := sha2 rot256 k256 h256 m 32
def sha384 (m : Bytes) : Bytes := sha2 rot512 k512 h384 m 48
def sha512 (m : Bytes) : Bytes := sha2 rot512 k512 h512 m 64

/-- HMAC over a hash with block size `blk`. -/
def hmac (h : Bytes → Bytes) (blk : Nat) (key m : Bytes) : Bytes :=
  let k := padTo blk (if key.length ≤ blk then key else h key)
  h (k.map (· ^^^ 0x5C) ++ h (k.map (· ^^^ 0x36) ++ m))

end Sys2Proof.Machine
end

