-- ==== Sys2Proof/Machine/Stateful.lean ====
section
/-! DEFINITION. Stateful hash-based signatures: LMS, HSS with two levels, and XMSS (08_pq_library.md R226, R242 to R244; RFC
8554, RFC 8391, SP 800-208, which the rules name and do not restate). -/

namespace Sys2Proof.Machine

/-- The 32-byte strings that follow one another in `b`. -/
def blocks32 (n : Nat) (b : Bytes) : List Bytes := (List.range n).map (fun i => (b.drop (32 * i)).take 32)

/-- The nibbles of a 32-byte digest, the high one of each byte first, then the three nibbles of their checksum (w = 16). -/
def wDigits (q : Bytes) : List Nat :=
  let a := q.flatMap (fun b => [b.toNat / 16, b.toNat % 16])
  let c := a.foldl (fun n d => n + (15 - d)) 0
  a ++ [c / 256 % 16, c / 16 % 16, c % 16]

/-! LM-OTS and LMS (LMOTS_SHA256_N32_W4, LMS_SHA256_M32_H10 and _H20) -/

def lmOtsType : Nat := 3
/-- The type code of a tree of height 10 or 20. -/
def lmType (h : Nat) : Nat := if h = 10 then 6 else 8

/-- One chain of a one-time key: `n` steps from step `j`. -/
def lmChain (iden : Bytes) (q i : Nat) : Nat → Nat → Bytes → Bytes
  | 0, _, x => x
  | n + 1, j, x => lmChain iden q i n (j + 1) (sha256 (iden ++ beBytes 4 q ++ beBytes 2 i ++ beBytes 1 j ++ x))

/-- The start of chain `i` of one-time key `q` (RFC 8554 Appendix A). -/
def lmStart (iden seed : Bytes) (q i : Nat) : Bytes := sha256 (iden ++ beBytes 4 q ++ beBytes 2 i ++ [0xFF] ++ seed)

/-- The one-time public key of its chain ends. -/
def lmEnds (iden : Bytes) (q : Nat) (ys : List Bytes) : Bytes := sha256 (iden ++ beBytes 4 q ++ beBytes 2 0x8080 ++ ys.flatten)

def lmDigits (iden : Bytes) (q : Nat) (c msg : Bytes) : List Nat :=
  wDigits (sha256 (iden ++ beBytes 4 q ++ beBytes 2 0x8181 ++ c ++ msg))

def lmOtsPub (iden seed : Bytes) (q : Nat) : Bytes :=
  lmEnds iden q ((List.range 67).map (fun i => lmChain iden q i 15 0 (lmStart iden seed q i)))

/-- A one-time signature; C comes from the seed and the index (R242). -/
def lmOtsSign (iden seed : Bytes) (q : Nat) (msg : Bytes) : Bytes :=
  let c := padTo 32 (Sys2Proof.Config.otsRandom seed q)
  beBytes 4 lmOtsType ++ c
    ++ ((lmDigits iden q c msg).zip (List.range 67)).flatMap (fun d => lmChain iden q d.2 d.1 0 (lmStart iden seed q d.2))

/-- The one-time public key that a signature leads to. -/
def lmOtsFrom (iden : Bytes) (q : Nat) (sig msg : Bytes) : Bytes :=
  let c := (sig.drop 4).take 32
  let ys := blocks32 67 (sig.drop 36)
  lmEnds iden q (((lmDigits iden q c msg).zip (List.range 67)).map (fun d => lmChain iden q d.2 (15 - d.1) d.1 (ys.getD d.2 [])))

/-- Node `r` of a tree of height `h` over the one-time key of its leaf. -/
def lmLeaf (iden : Bytes) (h q : Nat) (k : Bytes) : Bytes := sha256 (iden ++ beBytes 4 (2 ^ h + q) ++ beBytes 2 0x8282 ++ k)
def lmNode (iden : Bytes) (r : Nat) (a b : Bytes) : Bytes := sha256 (iden ++ beBytes 4 r ++ beBytes 2 0x8383 ++ a ++ b)

/-- Leaf `q` of the tree of a seed. -/
def lmLeafOf (iden seed : Bytes) (h q : Nat) : Bytes := lmLeaf iden h q (lmOtsPub iden seed q)

/-- Node `r`, `k` levels above the leaves of the tree of a seed. -/
def lmTree (iden seed : Bytes) (h : Nat) : Nat → Nat → Bytes
  | 0, r => lmLeafOf iden seed h (r - 2 ^ h)
  | k + 1, r => lmNode iden r (lmTree iden seed h k (2 * r)) (lmTree iden seed h k (2 * r + 1))

/-- The root T[1]. -/
def lmRoot (iden seed : Bytes) (h : Nat) : Bytes := lmTree iden seed h h 1

/-- The root that a leaf and its authentication path lead to. -/
def lmClimb (iden : Bytes) (h q : Nat) (leaf path : Bytes) : Bytes :=
  ((blocks32 h path).foldl (fun (x : Nat × Bytes) p =>
    (x.1 / 2, if x.1 % 2 = 1 then lmNode iden (x.1 / 2) p x.2 else lmNode iden (x.1 / 2) x.2 p)) (2 ^ h + q, leaf)).2

def lmSign (iden seed : Bytes) (h q : Nat) (path msg : Bytes) : Bytes :=
  beBytes 4 q ++ lmOtsSign iden seed q msg ++ beBytes 4 (lmType h) ++ path

/-- The public key of a tree: types, identifier, root (56 bytes). -/
def lmPub (iden : Bytes) (h : Nat) (root : Bytes) : Bytes := beBytes 4 (lmType h) ++ beBytes 4 lmOtsType ++ iden ++ root

/-- The type fields and the index of a signature fit a tree of height `h` (R232). -/
def lmSigForm (h : Nat) (sig : Bytes) : Bool :=
  decide (beAt sig 0 4 < 2 ^ h) && beAt sig 4 4 == lmOtsType && beAt sig (4 + 2180) 4 == lmType h

def lmPubForm (h : Nat) (pub : Bytes) : Bool := beAt pub 0 4 == lmType h && beAt pub 4 4 == lmOtsType

def lmVerify (h : Nat) (pub sig msg : Bytes) : Bool :=
  let iden := (pub.drop 8).take 16
  let q := beAt sig 0 4
  let k := lmOtsFrom iden q ((sig.drop 4).take 2180) msg
  lmClimb iden h q (lmLeaf iden h q k) (sig.drop 2188) == pub.drop 24

/-! XMSS-SHA2_20_256 -/

def xmssOid : Nat := 3
def xHash (kind : Nat) (key m : Bytes) : Bytes := sha256 (beBytes 32 kind ++ key ++ m)
def xPrf (key m : Bytes) : Bytes := xHash 3 key m

/-- The address of a hash call: type, then its four words. -/
def xAdrs (type a b c d : Nat) : Bytes :=
  List.replicate 12 0 ++ beBytes 4 type ++ beBytes 4 a ++ beBytes 4 b ++ beBytes 4 c ++ beBytes 4 d

/-- `n` steps of chain `i` of one-time key `q` from step `j`. -/
def xChain (seed : Bytes) (q i : Nat) : Nat → Nat → Bytes → Bytes
  | 0, _, x => x
  | n + 1, j, x =>
      let key := xPrf seed (xAdrs 0 q i j 0)
      let mask := xPrf seed (xAdrs 0 q i j 1)
      xChain seed q i n (j + 1) (xHash 0 key (xorBytes x mask))

/-- The start of a chain (SP 800-208). -/
def xStart (sk seed : Bytes) (q i : Nat) : Bytes := xHash 4 sk (seed ++ xAdrs 0 q i 0 0)

/-- Two nodes hashed into one; `adrs` gives the address for a word of key and masks. -/
def xPair (seed : Bytes) (adrs : Nat → Bytes) (a b : Bytes) : Bytes :=
  xHash 1 (xPrf seed (adrs 0)) (xorBytes a (xPrf seed (adrs 1)) ++ xorBytes b (xPrf seed (adrs 2)))

/-- One level of the tree over the chain ends: pairs are hashed, an odd last one goes up as it is. -/
def xLevel (seed : Bytes) (q height : Nat) : Nat → List Bytes → List Bytes
  | i, a :: b :: r => xPair seed (xAdrs 1 q height i) a b :: xLevel seed q height (i + 1) r
  | _, r => r

/-- The leaf of a one-time public key: 67 chain ends are one after seven levels. -/
def xLeaf (seed : Bytes) (q : Nat) (ends : List Bytes) : Bytes :=
  ((List.range 7).foldl (fun l height => xLevel seed q height 0 l) ends).headD []

def xLeafOf (sk seed : Bytes) (q : Nat) : Bytes :=
  xLeaf seed q ((List.range 67).map (fun i => xChain seed q i 15 0 (xStart sk seed q i)))

/-- Node `r` of height `k` in the tree of a key. -/
def xTree (sk seed : Bytes) : Nat → Nat → Bytes
  | 0, r => xLeafOf sk seed r
  | k + 1, r => xPair seed (xAdrs 2 0 k r) (xTree sk seed k (2 * r)) (xTree sk seed k (2 * r + 1))

def xRoot (sk seed : Bytes) : Bytes := xTree sk seed 20 0

def xClimb (seed : Bytes) (q : Nat) (leaf path : Bytes) : Bytes :=
  (((blocks32 20 path).zip (List.range 20)).foldl (fun (x : Nat × Bytes) p =>
    (x.1 / 2, if x.1 % 2 = 1 then xPair seed (xAdrs 2 0 p.2 (x.1 / 2)) p.1 x.2
      else xPair seed (xAdrs 2 0 p.2 (x.1 / 2)) x.2 p.1)) (q, leaf)).2

def xDigits (r root : Bytes) (q : Nat) (msg : Bytes) : List Nat := wDigits (xHash 2 (r ++ root ++ beBytes 32 q) msg)

def xSign (sk prf root seed : Bytes) (q : Nat) (path msg : Bytes) : Bytes :=
  let r := xPrf prf (beBytes 32 q)
  beBytes 4 q ++ r
    ++ ((xDigits r root q msg).zip (List.range 67)).flatMap (fun d => xChain seed q d.2 d.1 0 (xStart sk seed q d.2)) ++ path

def xVerify (pub sig msg : Bytes) : Bool :=
  let root := (pub.drop 4).take 32
  let seed := pub.drop 36
  let q := beAt sig 0 4
  let ys := blocks32 67 (sig.drop 36)
  let ends := ((xDigits ((sig.drop 4).take 32) root q msg).zip (List.range 67)).map (fun d =>
    xChain seed q d.2 (15 - d.1) d.1 (ys.getD d.2 []))
  xClimb seed q (xLeaf seed q ends) (sig.drop 2180) == root

/-! The private material and what is made of it (R242) -/

/-- The identifier and the seed of HSS bottom tree `j`. -/
def hssBottom (seed : Bytes) (j : Nat) : Bytes × Bytes :=
  let d := sha256 (seed ++ beBytes 8 j ++ [1]) ++ sha256 (seed ++ beBytes 8 j ++ [2])
  (d.take 16, (d.drop 16).take 32)

/-- The LMS part of the material of an LMS or HSS key: types, identifier, seed, root. -/
def lmsPart (alg : Nat) (m : Bytes) : Bytes := if alg = 0x0232 then (m.drop 4).take 88 else m
def lmsIden (m : Bytes) : Bytes := (m.drop 8).take 16
def lmsSeed (m : Bytes) : Bytes := (m.drop 24).take 32
def lmsRootOf (m : Bytes) : Bytes := (m.drop 56).take 32

/-- The material of a key generated from random bytes: the whole tree is built to find its root (R245). -/
def statefulGen (alg : Nat) (b : Bytes) : Bytes :=
  let lms := beBytes 4 (lmType 20) ++ beBytes 4 lmOtsType ++ b.take 16 ++ (b.drop 16).take 32
    ++ lmRoot (b.take 16) ((b.drop 16).take 32) 20
  if alg = 0x0231 then lms
  else if alg = 0x0232 then beBytes 4 2 ++ lms ++ beBytes 4 (lmType 10) ++ beBytes 4 lmOtsType
  else beBytes 4 xmssOid ++ b.take 64 ++ xRoot (b.take 32) ((b.drop 64).take 32) ++ (b.drop 64).take 32

/-- The public key of the material. -/
def statefulPub (alg : Nat) (m : Bytes) : Bytes :=
  let l := lmsPart alg m
  if alg = 0x0233 then m.take 4 ++ (m.drop 68).take 32 ++ (m.drop 100).take 32
  else (if alg = 0x0232 then m.take 4 else []) ++ l.take 24 ++ lmsRootOf l

/-- Bytes of the authentication path in the auxiliary part of a signature. -/
def pathLen (alg : Nat) : Nat := if alg = 0x0232 then 320 else 640

/-- A signature, and whether the leaf and the path lead to the root of the key, or of the bottom tree in the link: the work of
PK_SIGN after the expected index. `aux`: expected index, path, and for HSS the link. -/
def statefulSign (alg : Nat) (m : Bytes) (index : Nat) (aux msg : Bytes) : Bool × Bytes :=
  let path := (aux.drop 8).take (pathLen alg)
  let l := lmsPart alg m
  if alg = 0x0231 then
    (lmClimb (lmsIden l) 20 index (lmLeafOf (lmsIden l) (lmsSeed l) 20 index) path == lmsRootOf l,
      lmSign (lmsIden l) (lmsSeed l) 20 index path msg)
  else if alg = 0x0232 then
    let t := hssBottom (lmsSeed l) (index / 1024)
    let link := aux.drop (8 + 320)
    (lmClimb t.1 10 (index % 1024) (lmLeafOf t.1 t.2 10 (index % 1024)) path == (link.drop 24).take 32,
      beBytes 4 1 ++ (link.drop 56).take 2828 ++ link.take 56 ++ lmSign t.1 t.2 10 (index % 1024) path msg)
  else
    let sk := (m.drop 4).take 32
    let root := (m.drop 68).take 32
    let seed := (m.drop 100).take 32
    (xClimb seed index (xLeafOf sk seed index) path == root, xSign sk ((m.drop 36).take 32) root seed index path msg)

/-- A type field, the level count or the index fits the parameter set (R232). -/
def statefulForm (alg : Nat) (pub sig : Bytes) : Bool :=
  if alg = 0x0231 then lmPubForm 20 pub && lmSigForm 20 sig
  else if alg = 0x0232 then
    beAt pub 0 4 == 2 && lmPubForm 20 (pub.drop 4) && beAt sig 0 4 == 1 && lmSigForm 20 (sig.drop 4)
      && lmPubForm 10 (sig.drop 2832) && lmSigForm 10 (sig.drop 2888)
  else beAt pub 0 4 == xmssOid && decide (beAt sig 0 4 < 2 ^ 20)

def statefulVerify (alg : Nat) (pub sig msg : Bytes) : Bool :=
  if alg = 0x0231 then lmVerify 20 pub sig msg
  else if alg = 0x0232 then
    let bottom := (sig.drop 2832).take 56
    lmVerify 20 (pub.drop 4) ((sig.drop 4).take 2828) bottom && lmVerify 10 bottom (sig.drop 2888) msg
  else xVerify pub sig msg

/-- The 64 leaves from `first` (R243). -/
def statefulLeaves (alg : Nat) (m : Bytes) (first : Nat) : Bytes :=
  let l := lmsPart alg m
  (List.range 64).flatMap (fun i =>
    if alg = 0x0233 then xLeafOf ((m.drop 4).take 32) ((m.drop 100).take 32) (first + i)
    else lmLeafOf (lmsIden l) (lmsSeed l) 20 (first + i))

/-- LINK of bottom tree `j` (R244): whether the top path leads to the root; the bottom public key, the top signature over it,
the 1,024 bottom leaves. -/
def hssLink (m : Bytes) (j : Nat) (path : Bytes) : Bool × Bytes :=
  let l := lmsPart 0x0232 m
  let t := hssBottom (lmsSeed l) j
  let pub := lmPub t.1 10 (lmRoot t.1 t.2 10)
  (lmClimb (lmsIden l) 20 j (lmLeafOf (lmsIden l) (lmsSeed l) 20 j) path == lmsRootOf l,
    pub ++ lmSign (lmsIden l) (lmsSeed l) 20 j path pub ++ (List.range 1024).flatMap (fun q => lmLeafOf t.1 t.2 10 q))

end Sys2Proof.Machine
end

