-- ==== Sys2Proof/Machine/Forms.lean ====
section
/-! DEFINITION. The checks that the post-quantum library makes on encoded keys and signatures (08_pq_library.md R232, R235):
the encodings are those of FIPS 203, FIPS 204, FN-DSA and Classic McEliece, which the rules name and do not restate. -/

namespace Sys2Proof.Machine

/-- Field `i` of `w` bits of a string whose first field has its lowest bit first. -/
def leField (b : Bytes) (w i : Nat) : Nat :=
  leAt b (w * i / 8) ((w * i % 8 + w + 7) / 8) / 2 ^ (w * i % 8) % 2 ^ w
/-- Field `i` of `w` bits of a string whose first field has its highest bit first. -/
def beField (b : Bytes) (w i : Nat) : Nat :=
  let k := (w * i % 8 + w + 7) / 8
  beAt b (w * i / 8) k / 2 ^ (8 * k - w * i % 8 - w) % 2 ^ w

/-! ML-KEM (FIPS 203) -/

def kemK (alg : Nat) : Nat := if alg = 0x0201 then 2 else if alg = 0x0202 then 3 else 4

/-- A 12-bit coefficient of an encoded ML-KEM key is 3,329 or more (the modulus check). -/
def kemModulusBad (alg : Nat) (pk : Bytes) : Bool :=
  (List.range (256 * kemK alg)).any (fun i => decide (3329 ≤ leField pk 12 i))

/-- The decapsulation key: 384 k bytes, the encapsulation key, its hash, 32 bytes. -/
def kemPrivOk (alg : Nat) (m : Bytes) : Bool :=
  let n := 384 * kemK alg
  let ek := (m.drop n).take (n + 32)
  !kemModulusBad alg ek && sha3_256 ek == (m.drop (2 * n + 32)).take 32

/-! ML-DSA (FIPS 204) -/

/-- Rows k and columns l of the matrix, η, ω. -/
def dsaK (alg : Nat) : Nat := if alg = 0x0211 then 4 else if alg = 0x0212 then 6 else 8
def dsaL (alg : Nat) : Nat := if alg = 0x0211 then 4 else if alg = 0x0212 then 5 else 7
def dsaEta (alg : Nat) : Nat := if alg = 0x0212 then 4 else 2
def dsaOmega (alg : Nat) : Nat := if alg = 0x0211 then 80 else if alg = 0x0212 then 55 else 75

/-- The coefficients of s1 and s2 lie within ±η; 13 bits hold no value outside the range of t0. -/
def dsaPrivOk (alg : Nat) (m : Bytes) : Bool :=
  let w := if dsaEta alg = 4 then 4 else 3
  (List.range (256 * (dsaK alg + dsaL alg))).all (fun i => decide (leField (m.drop 128) w i ≤ 2 * dsaEta alg))

def rising : List Nat → Bool
  | a :: b :: r => decide (a < b) && rising (b :: r)
  | _ => true

/-- The hints of one polynomial after another: each part of the index list rises, and what is left over is zero. -/
def hintGo (idx : List Nat) : Nat → List Nat → Bool
  | at_, [] => (idx.drop at_).all (fun x => x == 0)
  | at_, e :: r => decide (at_ ≤ e ∧ e ≤ idx.length) && rising ((idx.drop at_).take (e - at_)) && hintGo idx e r

/-- The hint encoding at the end of a signature is well formed and has at most ω hints. -/
def hintOk (alg : Nat) (sig : Bytes) : Bool :=
  let h := (sig.drop (sig.length - dsaOmega alg - dsaK alg)).map (fun b => b.toNat)
  hintGo (h.take (dsaOmega alg)) 0 (h.drop (dsaOmega alg))

/-! FN-DSA-512 -/

/-- The 512 public coefficients of 14 bits, after the header byte, are below 12,289. -/
def fnPubOk (pk : Bytes) : Bool := (List.range 512).all (fun i => decide (beField (pk.drop 1) 14 i < 12289))

/-- f and g in 6 bits, F in 8 bits, after the header byte: the most negative value of each width is no coefficient. -/
def fnPrivOk (m : Bytes) : Bool :=
  (List.range 1024).all (fun i => beField (m.drop 1) 6 i != 32) && ((m.drop 769).take 512).all (fun b => b != 0x80)

def bitsBe (b : Bytes) : List Bool := b.flatMap (fun x => (List.range 8).map (fun i => x.toNat.testBit (7 - i)))

/-- The high part of a compressed coefficient: `k` zeros more at most, then a one; what follows it, and its value. -/
def unary : Nat → List Bool → Option (List Bool × Nat)
  | _, true :: r => some (r, 0)
  | k + 1, false :: r => (unary k r).map (fun x => (x.1, x.2 + 1))
  | _, _ => none

/-- `n` compressed coefficients: a sign, seven low bits, the high part; no negative zero. What is left over is zero. -/
def compressedOk : Nat → List Bool → Bool
  | 0, l => l.all (fun b => !b)
  | n + 1, s :: l => match unary 15 (l.drop 7) with
      | none => false
      | some (r, h) => decide (7 ≤ l.length) && !(s && h == 0 && (l.take 7).all (fun b => !b)) && compressedOk n r
  | _ + 1, [] => false

/-- Header byte, 40 bytes, 512 compressed coefficients. -/
def fnSigOk (sig : Bytes) : Bool := sig.headD 0 == 0x39 && compressedOk 512 (bitsBe (sig.drop 41))

/-! Classic McEliece -/

/-- The coefficients of the Goppa polynomial, two bytes each after 40 bytes, are field elements of 12 or 13 bits. -/
def mcePrivOk (alg : Nat) (m : Bytes) : Bool :=
  let t := if alg = 0x0261 then 64 else 119
  let w := if alg = 0x0261 then 12 else 13
  (List.range t).all (fun i => decide (leAt m (40 + 2 * i) 2 < 2 ^ w))

/-! Keys and signatures of the library -/

/-- CHECK of a public key held or offered as an object. -/
def pqPubOk (alg : Nat) (pk : Bytes) : Bool :=
  if alg = 0x0201 ∨ alg = 0x0202 ∨ alg = 0x0203 then !kemModulusBad alg pk else if alg = 0x0241 then fnPubOk pk else true

/-- CHECK of a private key. What the specification of HQC or Classic McEliece asks beyond it is a function of its own. -/
def pqPrivOk (alg : Nat) (m : Bytes) : Bool :=
  if alg = 0x0201 ∨ alg = 0x0202 ∨ alg = 0x0203 then kemPrivOk alg m
  else if alg = 0x0211 ∨ alg = 0x0212 ∨ alg = 0x0213 then dsaPrivOk alg m
  else if alg = 0x0241 then fnPrivOk m
  else if alg = 0x0261 ∨ alg = 0x0262 then mcePrivOk alg m && Sys2Proof.Config.privForm alg m
  else if alg = 0x0251 then Sys2Proof.Config.privForm alg m
  else true

/-- The early check of a signature (R232). -/
def pqSigOk (alg : Nat) (pub sig : Bytes) : Bool :=
  if alg = 0x0211 ∨ alg = 0x0212 ∨ alg = 0x0213 then hintOk alg sig
  else if alg = 0x0241 then fnSigOk sig
  else if alg = 0x0231 ∨ alg = 0x0232 ∨ alg = 0x0233 then statefulForm alg pub sig
  else true

end Sys2Proof.Machine
end

