-- ==== Sys2Proof/Machine/Mlkem.lean ====
section
/-! DEFINITION. ML-KEM of FIPS 203, which the rules name and do not restate (08_pq_library.md R226; PRESUMED, log 143). A
polynomial is the list of its 256 coefficients. -/

namespace Sys2Proof.Machine

abbrev Poly := List Nat

def kemQ : Nat := 3329

/-- The lowest `n` bits of a number in reverse order. -/
def bitRev : Nat → Nat → Nat
  | 0, _ => 0
  | n + 1, v => v % 2 * 2 ^ n + bitRev n (v / 2)

def polyAdd (q : Nat) (a b : Poly) : Poly := List.zipWith (fun x y => (x + y) % q) a b
def polySub (q : Nat) (a b : Poly) : Poly := List.zipWith (fun x y => (x + q - y) % q) a b

/-- The number-theoretic transform from node `k` of a tree of roots, over `f` levels, and back, not yet scaled. -/
def nttGo (q : Nat) (root : Nat → Nat) : Nat → Nat → Poly → Poly
  | 0, _, l => l
  | f + 1, k, l =>
      let a := l.take (l.length / 2)
      let z := root k
      let b := (l.drop (l.length / 2)).map (fun x => x * z % q)
      nttGo q root f (2 * k) (polyAdd q a b) ++ nttGo q root f (2 * k + 1) (polySub q a b)

def nttBack (q : Nat) (root : Nat → Nat) : Nat → Nat → Poly → Poly
  | 0, _, l => l
  | f + 1, k, l =>
      let a := nttBack q root f (2 * k) (l.take (l.length / 2))
      let b := nttBack q root f (2 * k + 1) (l.drop (l.length / 2))
      let z := root k
      polyAdd q a b ++ (polySub q a b).map (fun x => x * z % q)

/-- Powers of 17 modulo 3,329. -/
def kemRoot (e : Nat) : Nat := powMod 9 17 e kemQ

def kemNtt (l : Poly) : Poly := nttGo kemQ (fun k => kemRoot (bitRev 7 k)) 7 1 l
def kemInv (l : Poly) : Poly := (nttBack kemQ (fun k => kemRoot (256 - bitRev 7 k)) 7 1 l).map (fun x => x * 3303 % kemQ)

/-- Products of the pairs of two transforms. -/
def kemMulGo : Nat → Poly → Poly → Poly
  | i, a0 :: a1 :: ra, b0 :: b1 :: rb =>
      (a0 * b0 + a1 * b1 * kemRoot (2 * bitRev 7 i + 1)) % kemQ :: (a0 * b1 + a1 * b0) % kemQ :: kemMulGo (i + 1) ra rb
  | _, _, _ => []

def kemZero : Poly := List.replicate 256 0
def kemDot (a b : List Poly) : Poly :=
  (List.zipWith (kemMulGo 0) a b).foldl (polyAdd kemQ) kemZero

/-! Coefficients and bytes -/

/-- Coefficients of `w` bits as bytes. -/
def packLe (w : Nat) (l : Poly) : Bytes := leBytes (l.length * w / 8) (l.foldr (fun x n => x % 2 ^ w + 2 ^ w * n) 0)
def unpackLe (w n : Nat) (b : Bytes) : Poly := (List.range n).map (leField b w)

def kemCompress (d x : Nat) : Nat := (2 * 2 ^ d * x + kemQ) / (2 * kemQ) % 2 ^ d
def kemDecompress (d y : Nat) : Nat := (2 * kemQ * y + 2 ^ d) / (2 * 2 ^ d)

/-- Rejection sampling of a row of three bytes after another. -/
def kemReject : Bytes → Poly
  | a :: b :: c :: r =>
      let x := a.toNat + 256 * (b.toNat % 16)
      let y := b.toNat / 16 + 16 * c.toNat
      (if x < kemQ then [x] else []) ++ (if y < kemQ then [y] else []) ++ kemReject r
  | _ => []

/-- An entry of the matrix. The bytes drawn give 256 coefficients but with negligible probability. -/
def kemEntry (rho : Bytes) (i j : Nat) : Poly :=
  (kemReject (shake128 (rho ++ leBytes 1 j ++ leBytes 1 i) 1344) ++ kemZero).take 256

/-- The centred binomial distribution. -/
def kemNoise (eta : Nat) (seed : Bytes) (n : Nat) : Poly :=
  let b := leNat (shake256 (seed ++ leBytes 1 n) (64 * eta))
  let ones (at_ : Nat) := ((List.range eta).map (fun i => b / 2 ^ (at_ + i) % 2)).sum
  (List.range 256).map (fun i => (ones (2 * eta * i) + kemQ - ones (2 * eta * i + eta)) % kemQ)

def kemEta1 (alg : Nat) : Nat := if alg = 0x0201 then 3 else 2
def kemDu (alg : Nat) : Nat := if alg = 0x0203 then 11 else 10
def kemDv (alg : Nat) : Nat := if alg = 0x0203 then 5 else 4

/-- A vector of k polynomials in an encoding of 12 bits. -/
def kemVec (alg : Nat) (b : Bytes) : List Poly := (List.range (kemK alg)).map (fun i => unpackLe 12 256 (b.drop (384 * i)))

/-! Keys, encapsulation and decapsulation -/

/-- The decapsulation key of the seeds d and z. -/
def mlkemGen (alg : Nat) (d z : Bytes) : Bytes :=
  let k := kemK alg
  let g := sha3_512 (d ++ leBytes 1 k)
  let rho := g.take 32
  let s := (List.range k).map (fun i => kemNtt (kemNoise (kemEta1 alg) (g.drop 32) i))
  let t := (List.range k).map (fun i =>
    polyAdd kemQ (kemDot ((List.range k).map (kemEntry rho i)) s) (kemNtt (kemNoise (kemEta1 alg) (g.drop 32) (k + i))))
  let ek := t.flatMap (packLe 12) ++ rho
  s.flatMap (packLe 12) ++ ek ++ sha3_256 ek ++ z

/-- The encapsulation key within a decapsulation key. -/
def mlkemPub (alg : Nat) (dk : Bytes) : Bytes := (dk.drop (384 * kemK alg)).take (384 * kemK alg + 32)

/-- K-PKE encryption of 32 bytes. -/
def kemEncrypt (alg : Nat) (ek m r : Bytes) : Bytes :=
  let k := kemK alg
  let rho := (ek.drop (384 * k)).take 32
  let y := (List.range k).map (fun i => kemNtt (kemNoise (kemEta1 alg) r i))
  let u := (List.range k).map (fun i =>
    polyAdd kemQ (kemInv (kemDot ((List.range k).map (fun j => kemEntry rho j i)) y)) (kemNoise 2 r (k + i)))
  let mu := (unpackLe 1 256 m).map (kemDecompress 1)
  let v := polyAdd kemQ (polyAdd kemQ (kemInv (kemDot (kemVec alg ek) y)) (kemNoise 2 r (2 * k))) mu
  u.flatMap (fun p => packLe (kemDu alg) (p.map (kemCompress (kemDu alg)))) ++ packLe (kemDv alg) (v.map (kemCompress (kemDv alg)))

def kemDecrypt (alg : Nat) (dk c : Bytes) : Bytes :=
  let k := kemK alg
  let n := 32 * kemDu alg
  let u := (List.range k).map (fun i => kemNtt ((unpackLe (kemDu alg) 256 (c.drop (n * i))).map (kemDecompress (kemDu alg))))
  let v := (unpackLe (kemDv alg) 256 (c.drop (n * k))).map (kemDecompress (kemDv alg))
  packLe 1 ((polySub kemQ v (kemInv (kemDot (kemVec alg dk) u))).map (kemCompress 1))

/-- Ciphertext and shared secret, of 32 random bytes. -/
def mlkemEncaps (alg : Nat) (ek m : Bytes) : Bytes × Bytes :=
  let g := sha3_512 (m ++ sha3_256 ek)
  (kemEncrypt alg ek m (g.drop 32), g.take 32)

/-- The shared secret; of a ciphertext that is none, implicit rejection. -/
def mlkemDecaps (alg : Nat) (dk c : Bytes) : Bytes :=
  let k := kemK alg
  let m := kemDecrypt alg dk c
  let g := sha3_512 (m ++ (dk.drop (768 * k + 32)).take 32)
  if kemEncrypt alg (mlkemPub alg dk) m (g.drop 32) = c then g.take 32
  else shake256 ((dk.drop (768 * k + 64)).take 32 ++ c) 32

end Sys2Proof.Machine
end

