-- ==== Sys2Proof/Machine/Mldsa.lean ====
section
/-! DEFINITION. ML-DSA of FIPS 204, which the rules name and do not restate (08_pq_library.md R223, R226, R232, R233;
PRESUMED, log 143). -/

namespace Sys2Proof.Machine

def dsaQ : Nat := 8380417
def dsaRoot (e : Nat) : Nat := powMod 9 1753 e dsaQ
def dsaNtt (l : Poly) : Poly := nttGo dsaQ (fun k => dsaRoot (bitRev 8 k)) 8 1 l
def dsaInv (l : Poly) : Poly := (nttBack dsaQ (fun k => dsaRoot (512 - bitRev 8 k)) 8 1 l).map (fun x => x * 8347681 % dsaQ)

/-! Parameters: τ, γ1, γ2, β, bytes of the challenge -/

def dsaTau (alg : Nat) : Nat := if alg = 0x0211 then 39 else if alg = 0x0212 then 49 else 60
def dsaGamma1 (alg : Nat) : Nat := if alg = 0x0211 then 2 ^ 17 else 2 ^ 19
def dsaGamma2 (alg : Nat) : Nat := if alg = 0x0211 then (dsaQ - 1) / 88 else (dsaQ - 1) / 32
def dsaBeta (alg : Nat) : Nat := dsaTau alg * dsaEta alg
def dsaChal (alg : Nat) : Nat := if alg = 0x0211 then 32 else if alg = 0x0212 then 48 else 64
def dsaZBits (alg : Nat) : Nat := if alg = 0x0211 then 18 else 20

/-- A coefficient `m - x` as an element modulo q, and how far an element lies from zero. -/
def dsaFrom (m x : Nat) : Nat := (m + dsaQ - x) % dsaQ
def dsaAbs (x : Nat) : Nat := min x (dsaQ - x)
def dsaBelow (b : Nat) (v : List Poly) : Bool := v.all (fun p => p.all (fun x => decide (dsaAbs x < b)))

/-- Polynomials packed as `m - x` in `w` bits. -/
def dsaPack (w m : Nat) (v : List Poly) : Bytes := v.flatMap (fun p => packLe w (p.map (dsaFrom m)))
def dsaUnpack (w m n : Nat) (b : Bytes) : List Poly :=
  (List.range n).map (fun i => (unpackLe w 256 (b.drop (32 * w * i))).map (dsaFrom m))

/-! Sampling. The bytes drawn give enough coefficients but with negligible probability. -/

def dsaReject : Bytes → Poly
  | a :: b :: c :: r =>
      let x := a.toNat + 256 * b.toNat + 65536 * (c.toNat % 128)
      if x < dsaQ then x :: dsaReject r else dsaReject r
  | _ => []

def dsaEntry (rho : Bytes) (i j : Nat) : Poly :=
  (dsaReject (shake128 (rho ++ leBytes 1 j ++ leBytes 1 i) 1008) ++ kemZero).take 256

def dsaMatrix (alg : Nat) (rho : Bytes) : List (List Poly) :=
  (List.range (dsaK alg)).map (fun i => (List.range (dsaL alg)).map (dsaEntry rho i))

def dsaHalf (eta x : Nat) : Poly :=
  if eta = 2 then (if x < 15 then [dsaFrom 2 (x % 5)] else []) else (if x < 9 then [dsaFrom 4 x] else [])

def dsaSmall (eta : Nat) (seed : Bytes) (i : Nat) : Poly :=
  (((shake256 (seed ++ leBytes 2 i) 544).flatMap (fun b => dsaHalf eta (b.toNat % 16) ++ dsaHalf eta (b.toNat / 16))) ++ kemZero).take 256

def dsaMask (alg : Nat) (seed : Bytes) (n : Nat) : List Poly :=
  (List.range (dsaL alg)).map (fun i =>
    (unpackLe (dsaZBits alg) 256 (shake256 (seed ++ leBytes 2 (n + i)) (32 * dsaZBits alg))).map (dsaFrom (dsaGamma1 alg)))

/-- The next byte of at most `i`, and what follows it. -/
def ballIndex (i : Nat) : Bytes → Nat × Bytes
  | [] => (0, [])
  | b :: r => if b.toNat ≤ i then (b.toNat, r) else ballIndex i r

def ballGo : Nat → Nat → Nat → Bytes → Poly → Poly
  | 0, _, _, _, c => c
  | n + 1, i, signs, b, c =>
      let x := ballIndex i b
      ballGo n (i + 1) (signs / 2) x.2 ((c.set i (c.getD x.1 0)).set x.1 (if signs % 2 = 1 then dsaQ - 1 else 1))

def dsaBall (alg : Nat) (seed : Bytes) : Poly :=
  let b := shake256 seed 1088
  ballGo (dsaTau alg) (256 - dsaTau alg) (leNat (b.take 8)) (b.drop 8) kemZero

/-! Vectors -/

def dsaMul (a b : Poly) : Poly := List.zipWith (fun x y => x * y % dsaQ) a b
def dsaDot (a b : List Poly) : Poly := (List.zipWith dsaMul a b).foldl (polyAdd dsaQ) kemZero
def vecAdd (a b : List Poly) : List Poly := List.zipWith (polyAdd dsaQ) a b
def vecSub (a b : List Poly) : List Poly := List.zipWith (polySub dsaQ) a b
/-- A matrix of transforms times a vector of transforms, back from the transform. -/
def dsaApply (m : List (List Poly)) (v : List Poly) : List Poly := m.map (fun r => dsaInv (dsaDot r v))
def dsaScale (c : Poly) (v : List Poly) : List Poly := v.map (fun p => dsaInv (dsaMul c p))

/-! Rounding and hints -/

/-- High part, and low part as an element modulo q. -/
def dsaDecompose (g2 x : Nat) : Nat × Nat :=
  let r := x % (2 * g2)
  let low := if g2 < r then r + dsaQ - 2 * g2 else r
  let top := (x + dsaQ - low) % dsaQ
  if top = dsaQ - 1 then (0, (low + dsaQ - 1) % dsaQ) else (top / (2 * g2), low)

def dsaHigh (g2 : Nat) (v : List Poly) : List Poly := v.map (fun p => p.map (fun x => (dsaDecompose g2 x).1))
def dsaLow (g2 : Nat) (v : List Poly) : List Poly := v.map (fun p => p.map (fun x => (dsaDecompose g2 x).2))

def dsaUseHint (g2 : Nat) (h : Bool) (x : Nat) : Nat :=
  let m := (dsaQ - 1) / (2 * g2)
  let d := dsaDecompose g2 x
  if !h then d.1 else if 0 < d.2 ∧ d.2 ≤ g2 then (d.1 + 1) % m else (d.1 + m - 1) % m

def dsaW1 (alg : Nat) (w : List Poly) : Bytes := w.flatMap (packLe (if alg = 0x0211 then 6 else 4))

/-- The hints as ω index bytes and the running counts. -/
def packHints (alg : Nat) (h : List (List Bool)) : Bytes :=
  let idx := h.map (fun p => (List.range 256).filter (fun i => p.getD i false))
  let ends := (List.range (dsaK alg)).map (fun i => ((idx.take (i + 1)).map List.length).sum)
  padTo (dsaOmega alg) (idx.flatten.map (BitVec.ofNat 8)) ++ ends.map (BitVec.ofNat 8)

def unpackHints (alg : Nat) (b : Bytes) : List (List Bool) :=
  let l := b.map (fun x => x.toNat)
  let e (i : Nat) := if i = 0 then 0 else l.getD (dsaOmega alg + i - 1) 0
  (List.range (dsaK alg)).map (fun i =>
    let s := (l.drop (e i)).take (e (i + 1) - e i)
    (List.range 256).map (fun x => s.contains x))

/-! Keys, signatures -/

/-- t, the public key, and the private key of a seed. -/
def dsaPublic (alg : Nat) (rho : Bytes) (s1 s2 : List Poly) : List Poly :=
  vecAdd (dsaApply (dsaMatrix alg rho) (s1.map dsaNtt)) s2
/-- t1 and t0 of a coefficient of t. -/
def dsaSplit (x : Nat) : Nat × Nat :=
  let r := x % 8192
  if 4096 < r then (x / 8192 + 1, r + dsaQ - 8192) else (x / 8192, r)
def dsaPkOf (rho : Bytes) (t : List Poly) : Bytes := rho ++ t.flatMap (fun p => packLe 10 (p.map (fun x => (dsaSplit x).1)))

def dsaW (alg : Nat) : Nat := if dsaEta alg = 4 then 4 else 3
/-- ρ, K, tr, s1, s2, t0 of a private key. -/
structure DsaKey where
  rho : Bytes
  key : Bytes
  tr : Bytes
  s1 : List Poly
  s2 : List Poly
  t0 : List Poly

def dsaKeyOf (alg : Nat) (b : Bytes) : DsaKey :=
  let n := 32 * dsaW alg
  { rho := b.take 32, key := (b.drop 32).take 32, tr := (b.drop 64).take 64,
    s1 := dsaUnpack (dsaW alg) (dsaEta alg) (dsaL alg) (b.drop 128),
    s2 := dsaUnpack (dsaW alg) (dsaEta alg) (dsaK alg) (b.drop (128 + n * dsaL alg)),
    t0 := dsaUnpack 13 4096 (dsaK alg) (b.drop (128 + n * (dsaL alg + dsaK alg))) }

def mldsaGen (alg : Nat) (xi : Bytes) : Bytes :=
  let h := shake256 (xi ++ leBytes 1 (dsaK alg) ++ leBytes 1 (dsaL alg)) 128
  let rho := h.take 32
  let seed := (h.drop 32).take 64
  let s1 := (List.range (dsaL alg)).map (dsaSmall (dsaEta alg) seed)
  let s2 := (List.range (dsaK alg)).map (fun i => dsaSmall (dsaEta alg) seed (dsaL alg + i))
  let t := dsaPublic alg rho s1 s2
  rho ++ h.drop 96 ++ shake256 (dsaPkOf rho t) 64 ++ dsaPack (dsaW alg) (dsaEta alg) s1 ++ dsaPack (dsaW alg) (dsaEta alg) s2
    ++ dsaPack 13 4096 (t.map (fun p => p.map (fun x => (dsaSplit x).2)))

def mldsaPub (alg : Nat) (sk : Bytes) : Bytes :=
  let k := dsaKeyOf alg sk
  dsaPkOf k.rho (dsaPublic alg k.rho k.s1 k.s2)

/-- The message as it is signed: pure, or a digest under the identifier of SHA-512 or SHAKE256 (R223). -/
def signedMessage (prehash : Nat) (ctx m : Bytes) : Bytes :=
  if prehash = 0 then [0] ++ leBytes 1 ctx.length ++ ctx ++ m
  else [1] ++ leBytes 1 ctx.length ++ ctx
    ++ [0x06, 0x09, 0x60, 0x86, 0x48, 0x01, 0x65, 0x03, 0x04, 0x02, if prehash = 1 then 0x03 else 0x0C] ++ m

/-- One attempt after another until the bounds hold. -/
def dsaSignGo (alg : Nat) (k : DsaKey) (m : List (List Poly)) (mu seed : Bytes) : Nat → Nat → Option Bytes
  | 0, _ => none
  | f + 1, n =>
      let g1 := dsaGamma1 alg
      let g2 := dsaGamma2 alg
      let y := dsaMask alg seed n
      let w := dsaApply m (y.map dsaNtt)
      let ch := shake256 (mu ++ dsaW1 alg (dsaHigh g2 w)) (dsaChal alg)
      let c := dsaNtt (dsaBall alg ch)
      let z := vecAdd y (dsaScale c (k.s1.map dsaNtt))
      let r := vecSub w (dsaScale c (k.s2.map dsaNtt))
      let ct0 := dsaScale c (k.t0.map dsaNtt)
      let h := List.zipWith (List.zipWith (fun x y => x != y)) (dsaHigh g2 (vecAdd r ct0)) (dsaHigh g2 r)
      if dsaBelow (g1 - dsaBeta alg) z && dsaBelow (g2 - dsaBeta alg) (dsaLow g2 r) && dsaBelow g2 ct0
          && decide ((h.map (fun p => p.count true)).sum ≤ dsaOmega alg) then
        some (ch ++ dsaPack (dsaZBits alg) g1 z ++ packHints alg h)
      else dsaSignGo alg k m mu seed f (n + dsaL alg)

/-- A signature under 32 bytes of randomness, zeros for the deterministic variant. 1,024 attempts fail with negligible
probability. -/
def mldsaSign (alg : Nat) (sk rnd msg : Bytes) : Bytes :=
  let k := dsaKeyOf alg sk
  let mu := shake256 (k.tr ++ msg) 64
  (dsaSignGo alg k (dsaMatrix alg k.rho) mu (shake256 (k.key ++ rnd ++ mu) 64) 1024 0).getD []

def mldsaVerify (alg : Nat) (pk msg sig : Bytes) : Bool :=
  let g2 := dsaGamma2 alg
  let n := dsaChal alg
  let ch := sig.take n
  let z := dsaUnpack (dsaZBits alg) (dsaGamma1 alg) (dsaL alg) (sig.drop n)
  let h := unpackHints alg (sig.drop (n + 32 * dsaZBits alg * dsaL alg))
  let t1 := (List.range (dsaK alg)).map (fun i => (unpackLe 10 256 (pk.drop (32 + 320 * i))).map (fun x => x * 8192 % dsaQ))
  let c := dsaNtt (dsaBall alg ch)
  let w := vecSub (dsaApply (dsaMatrix alg (pk.take 32)) (z.map dsaNtt)) (dsaScale c (t1.map dsaNtt))
  let w1 := List.zipWith (List.zipWith (dsaUseHint g2)) h w
  dsaBelow (dsaGamma1 alg - dsaBeta alg) z && shake256 (shake256 (shake256 pk 64 ++ msg) 64 ++ dsaW1 alg w1) n == ch

end Sys2Proof.Machine
end

