-- ==== Sys2Proof/Machine/Ecc.lean ====
section
/-! DEFINITION. The curve operations of the big-number engines (10_public_key_engines.md R279, R281, R288, R289, R292):
ECDSA and ECDH of FIPS 186-5 and SP 800-56A, deterministic ECDSA of RFC 6979, EdDSA of RFC 8032, X25519 and X448 of RFC 7748,
which the rules name and do not restate (PRESUMED, log 143). -/

namespace Sys2Proof.Machine

/-- The inverse modulo a prime. -/
def invMod (p x : Nat) : Nat := powMod 521 x (p - 2) p

/-- Add a double of a base at every set bit of `v`, over its `n` lowest bits. -/
def mulGo {α : Type} (add : α → α → α) : Nat → Nat → α → α → α
  | 0, _, _, acc => acc
  | n + 1, v, b, acc => mulGo add n (v / 2) (add b b) (if v % 2 = 1 then add acc b else acc)

/-! P-256, P-384 and P-521: affine points, none for the identity -/

abbrev WPoint := Option (Nat × Nat)

def wAdd (p : Nat) : WPoint → WPoint → WPoint
  | none, b => b
  | a, none => a
  | some (x1, y1), some (x2, y2) =>
      if x1 = x2 ∧ (y1 + y2) % p = 0 then none
      else
        let l := if x1 = x2 then (3 * (x1 * x1) + (p - 3)) * invMod p (2 * y1 % p) % p
          else (y2 + p - y1) * invMod p ((x2 + p - x1) % p) % p
        let x := (l * l + 2 * p - x1 - x2) % p
        some (x, (l * (x1 + p - x) + p - y1) % p)

def wMul (alg k : Nat) (pt : WPoint) : WPoint := mulGo (wAdd (wPrime alg)) 528 k pt none

def wBase (alg : Nat) : WPoint :=
  if alg = 0x0311 then some (0x6B17D1F2E12C4247F8BCE6E563A440F277037D812DEB33A0F4A13945D898C296,
    0x4FE342E2FE1A7F9B8EE7EB4A7C0F9E162BCE33576B315ECECBB6406837BF51F5)
  else if alg = 0x0312 then
    some (0xAA87CA22BE8B05378EB1C71EF320AD746E1D3B628BA79B9859F741E082542A385502F25DBF55296C3A545E3872760AB7,
      0x3617DE4A96262C6F5D9E98BF9292DC29F8F41DBD289A147CE9DA3113B5F0B8C00A60B1CE1D7E819D7A431D7C90EA0E5F)
  else
    some (0x00C6858E06B70404E9CD9E3ECB662395B4429C648139053FB521F828AF606B4D3DBAA14B5E77EFE75928FE1DC127A2FFA8DE3348B3C1856A429BF97E7E31C2E5BD66,
      0x011839296A789A3BC0045C8A5FB42C7D1BD998F54449579B446817AFBD17273E662C97EE72995EF42640C550B9013FAD0761353C7086A272C24088BE94769FD16650)

/-- Bits of the order. -/
def orderBits (alg : Nat) : Nat := if alg = 0x0311 then 256 else if alg = 0x0312 then 384 else 521

def wDecode (pt : Bytes) : WPoint :=
  let h := (pt.length - 1) / 2
  some (beAt pt 1 h, beAt pt (1 + h) h)

def wEncode (alg : Nat) : WPoint → Bytes
  | none => []
  | some (x, y) => [4] ++ beBytes (ecScalar alg) x ++ beBytes (ecScalar alg) y

def wX : WPoint → Nat
  | some (x, _) => x
  | none => 0

/-- The leftmost bits of a digest, as many as the order has. -/
def digestNat (alg : Nat) (d : Bytes) : Nat := beNat d / 2 ^ (8 * d.length - orderBits alg)

/-- A signature under the nonce `k`; none when r or s is zero. -/
def ecdsaWith (alg d k : Nat) (digest : Bytes) : Option Bytes :=
  let n := curveOrder alg
  let r := wX (wMul alg k (wBase alg)) % n
  let s := invMod n k * (digestNat alg digest + r * d) % n
  if r = 0 ∨ s = 0 then none else some (beBytes (ecScalar alg) r ++ beBytes (ecScalar alg) s)

/-- HMAC on the hash that HASH selects. -/
def hmacOf (hash : Nat) (key m : Bytes) : Bytes :=
  if hash = 0 then hmac sha256 64 key m else if hash = 1 then hmac sha384 128 key m else hmac sha512 128 key m

/-- The bytes of a candidate of RFC 6979: blocks of V until enough. -/
def nonceBlocks (hash : Nat) (key : Bytes) : Nat → Bytes → Bytes × Bytes
  | 0, v => ([], v)
  | n + 1, v =>
      let v1 := hmacOf hash key v
      let r := nonceBlocks hash key n v1
      (v1 ++ r.1, r.2)

/-- Candidates of RFC 6979 until one is in range and signs. -/
def detGo (alg d hash : Nat) (digest : Bytes) : Nat → Bytes → Bytes → Option Bytes
  | 0, _, _ => none
  | f + 1, key, v =>
      let t := nonceBlocks hash key (ceilDiv (ecScalar alg) (hashLen hash)) v
      let k := beNat (t.1.take (ecScalar alg)) / 2 ^ (8 * ecScalar alg - orderBits alg)
      match (if k = 0 ∨ curveOrder alg ≤ k then none else ecdsaWith alg d k digest) with
      | some x => some x
      | none =>
          let key1 := hmacOf hash key (t.2 ++ [0])
          detGo alg d hash digest f key1 (hmacOf hash key1 t.2)

/-- Deterministic ECDSA; the hash of RFC 6979 is the one of the digest. -/
def ecdsaDet (alg hash : Nat) (key digest : Bytes) : Option Bytes :=
  let n := curveOrder alg
  let seed := key ++ beBytes (ecScalar alg) (digestNat alg digest % n)
  let v0 : Bytes := List.replicate (hashLen hash) 1
  let k1 := hmacOf hash (List.replicate (hashLen hash) 0) (v0 ++ [0] ++ seed)
  let v1 := hmacOf hash k1 v0
  let k2 := hmacOf hash k1 (v1 ++ [1] ++ seed)
  detGo alg (beNat key) hash digest 64 k2 (hmacOf hash k2 v1)

def ecdsaVerify (alg : Nat) (pub digest sig : Bytes) : Bool :=
  let n := curveOrder alg
  let h := ecScalar alg
  let r := beAt sig 0 h
  let s := beAt sig h h
  let w := invMod n s
  let q := wAdd (wPrime alg) (wMul alg (digestNat alg digest * w % n) (wBase alg)) (wMul alg (r * w % n) (wDecode pub))
  decide (0 < r ∧ r < n ∧ 0 < s ∧ s < n) && wOnCurve alg pub && q.isSome && wX q % n == r

/-! Ed25519 and Ed448: affine points of a complete curve -/

def eD (alg : Nat) : Nat :=
  let p := ePrime alg
  if alg = 0x0321 then (p - 121665) * invMod p 121666 % p else p - 39081

/-- −a of the curve: 1 for Ed25519, −1 for Ed448. -/
def eAdd (alg : Nat) (a b : Nat × Nat) : Nat × Nat :=
  let p := ePrime alg
  let t := eD alg * (a.1 * b.1 % p) % p * (a.2 * b.2 % p) % p
  let y := if alg = 0x0321 then a.2 * b.2 + a.1 * b.1 else a.2 * b.2 + (p - a.1 * b.1 % p)
  ((a.1 * b.2 + a.2 * b.1) % p * invMod p ((1 + t) % p) % p, y % p * invMod p ((1 + p - t) % p) % p)

def eMul (alg k : Nat) (pt : Nat × Nat) : Nat × Nat := mulGo (eAdd alg) 456 k pt (0, 1)

/-- The root of u / v, if it has one. -/
def eRoot (alg u v : Nat) : Nat :=
  let p := ePrime alg
  let w := u * invMod p v % p
  if alg = 0x0321 then
    let x := powMod 521 w ((p + 3) / 8) p
    if x * x % p = w then x else x * powMod 521 2 ((p - 1) / 4) p % p
  else powMod 521 w ((p + 1) / 4) p

/-- Decode an encoding that `ePointOk` admits. -/
def eDecode (alg : Nat) (b : Bytes) : Nat × Nat :=
  let p := ePrime alg
  let top := if alg = 0x0321 then 2 ^ 255 else 2 ^ 455
  let y := leNat b % top
  let q := eSquare alg y
  let x := eRoot alg q.1 q.2
  (if x % 2 = leNat b / top % 2 then x else (p - x) % p, y)

def eEncode (alg : Nat) (pt : Nat × Nat) : Bytes :=
  leBytes (ecPub alg) (pt.2 + (if pt.1 % 2 = 1 then (if alg = 0x0321 then 2 ^ 255 else 2 ^ 455) else 0))

def eBase (alg : Nat) : Nat × Nat :=
  if alg = 0x0321 then (0x216936D3CD6E53FEC0A4E231FDD6DC5C692CC7609525A7B2C9562D608F25D51A,
    0x6666666666666666666666666666666666666666666666666666666666666658)
  else (0x4F1970C66BED0DED221D15A622BF36DA9E146570470F1767EA6DE324A3D3A46412AE1AF72AB66511433B80E18B00938E2626A82BC70CC05E,
    0x693F46716EB6BC248876203756C9C7624BEA73736CA3984087789C1E05A0C2D73AD3FF1CE67C39C4FDBD132C4ED7C8AD9808795BF230FA14)

/-- The hash of the scheme, with the prefix of Ed448. -/
def eHash (alg : Nat) (ctx m : Bytes) : Bytes :=
  if alg = 0x0321 then sha512 m
  else shake256 (ascii "SigEd448" ++ [0] ++ leBytes 1 ctx.length ++ ctx ++ m) 114

/-- The secret scalar of a seed, and the prefix of its nonces. -/
def eSecret (alg : Nat) (seed : Bytes) : Nat × Bytes :=
  if alg = 0x0321 then
    let h := sha512 seed
    (leNat (h.take 32) % 2 ^ 254 / 8 * 8 + 2 ^ 254, h.drop 32)
  else
    let h := shake256 seed 114
    (leNat (h.take 56) % 2 ^ 447 / 4 * 4 + 2 ^ 447, h.drop 57)

def edPub (alg : Nat) (seed : Bytes) : Bytes := eEncode alg (eMul alg (eSecret alg seed).1 (eBase alg))

def edSign (alg : Nat) (seed ctx m : Bytes) : Bytes :=
  let l := curveOrder alg
  let x := eSecret alg seed
  let r := leNat (eHash alg ctx (x.2 ++ m)) % l
  let rb := eEncode alg (eMul alg r (eBase alg))
  let k := leNat (eHash alg ctx (rb ++ edPub alg seed ++ m)) % l
  rb ++ leBytes (ecPub alg) ((r + k * x.1) % l)

/-- The cofactored equation (R288). -/
def edVerify (alg : Nat) (pub ctx m sig : Bytes) : Bool :=
  let n := ecPub alg
  let c := if alg = 0x0321 then 8 else 4
  let rb := sig.take n
  let s := leNat (sig.drop n)
  let k := leNat (eHash alg ctx (rb ++ pub ++ m)) % curveOrder alg
  decide (s < curveOrder alg) && ePointOk alg rb && ePointOk alg pub
    && eMul alg (c * s) (eBase alg) == eMul alg c (eAdd alg (eDecode alg rb) (eMul alg k (eDecode alg pub)))

/-! X25519 and X448 -/

def xPrime (alg : Nat) : Nat := if alg = 0x0331 then 2 ^ 255 - 19 else 2 ^ 448 - 2 ^ 224 - 1
def xBits (alg : Nat) : Nat := if alg = 0x0331 then 255 else 448

/-- One step of the Montgomery ladder on (x2, z2), (x3, z3). -/
def xStep (p a24 x1 : Nat) (s : (Nat × Nat) × (Nat × Nat)) : (Nat × Nat) × (Nat × Nat) :=
  let a := (s.1.1 + s.1.2) % p
  let b := (s.1.1 + p - s.1.2) % p
  let aa := a * a % p
  let bb := b * b % p
  let e := (aa + p - bb) % p
  let da := (s.2.1 + p - s.2.2) * a % p
  let cb := (s.2.1 + s.2.2) * b % p
  let m := (da + p - cb) % p
  ((aa * bb % p, e * ((aa + a24 * e) % p) % p), ((da + cb) * (da + cb) % p, x1 * (m * m % p) % p))

def xGo (p a24 x1 k : Nat) : Nat → (Nat × Nat) × (Nat × Nat) → (Nat × Nat) × (Nat × Nat)
  | 0, s => s
  | n + 1, s =>
      let swap (s : (Nat × Nat) × (Nat × Nat)) := if k.testBit n then (s.2, s.1) else s
      xGo p a24 x1 k n (swap (xStep p a24 x1 (swap s)))

/-- The function of RFC 7748: any peer value, its unused bit cleared. -/
def xFun (alg : Nat) (key peer : Bytes) : Bytes :=
  let p := xPrime alg
  let v := leNat key
  let k := if alg = 0x0331 then v % 2 ^ 254 / 8 * 8 + 2 ^ 254 else v % 2 ^ 447 / 4 * 4 + 2 ^ 447
  let u := leNat peer % 2 ^ xBits alg % p
  let r := xGo p (if alg = 0x0331 then 121665 else 39081) u k (xBits alg) ((1, 0), (u, 1))
  leBytes (ecPub alg) (r.1.1 * invMod p r.1.2 % p)

/-! What the algorithms share -/

/-- The public key of a private one. -/
def ecPubOf (alg : Nat) (key : Bytes) : Bytes :=
  if isEcdsa alg then wEncode alg (wMul alg (beNat key) (wBase alg))
  else if isEddsa alg then edPub alg key
  else xFun alg key (leBytes (ecPub alg) (if alg = 0x0331 then 9 else 5))

/-- The shared secret Z; none for the identity. -/
def ecAgree (alg : Nat) (key peer : Bytes) : Option Bytes :=
  if isEcdsa alg then (wMul alg (beNat key) (wDecode peer)).map (fun q => beBytes (ecScalar alg) q.1)
  else some (xFun alg key peer)

end Sys2Proof.Machine
end

