-- ==== Sys2Proof/Machine/Rsa.lean ====
section
/-! DEFINITION. RSA of the big-number engines (10_public_key_engines.md R279 to R281, R289, R294, R296): RSASSA-PSS,
RSASSA-PKCS1-v1_5 and RSAES-OAEP of RFC 8017, which the rules name and do not restate (PRESUMED, log 143). -/

namespace Sys2Proof.Machine

def rsaN (k : Nat) (m : Bytes) : Nat := beAt m 0 k
def rsaE (k : Nat) (m : Bytes) : Nat := beAt m k 4
def rsaD (k : Nat) (m : Bytes) : Nat := beAt m (k + 4) k

/-- The public and the private operation on a representative, with keys in the layout of R280. -/
def rsaPublic (k : Nat) (m : Bytes) (x : Nat) : Nat := powMod 32 x (rsaE k m) (rsaN k m)
def rsaPrivate (k : Nat) (m : Bytes) (x : Nat) : Nat := powMod (8 * k) x (rsaD k m) (rsaN k m)

/-- The hash that HASH selects. -/
def hashOf (hash : Nat) (m : Bytes) : Bytes := if hash = 0 then sha256 m else if hash = 1 then sha384 m else sha512 m

def mgf1 (hash : Nat) (seed : Bytes) (n : Nat) : Bytes :=
  ((List.range (ceilDiv n (hashLen hash))).flatMap (fun i => hashOf hash (seed ++ beBytes 4 i))).take n

/-! RSASSA-PSS, the salt as long as the hash -/

def clearTop (b : Bytes) : Bytes := match b with
  | [] => []
  | x :: r => (x &&& 0x7F) :: r

/-- A modulus of `k` bytes has room for a PSS encoding. -/
def pssFits (hash k : Nat) : Bool := decide (2 * hashLen hash + 2 ≤ k)

def pssEncode (hash k : Nat) (salt digest : Bytes) : Bytes :=
  let h := hashLen hash
  let x := hashOf hash (List.replicate 8 0 ++ digest ++ salt)
  let db := List.replicate (k - 2 * h - 2) 0 ++ [1] ++ salt
  clearTop (xorBytes db (mgf1 hash x (k - h - 1))) ++ x ++ [0xBC]

def pssOk (hash k : Nat) (digest em : Bytes) : Bool :=
  let h := hashLen hash
  let x := (em.drop (k - h - 1)).take h
  let db := clearTop (xorBytes (em.take (k - h - 1)) (mgf1 hash x (k - h - 1)))
  pssFits hash k && decide ((em.headD 0).toNat < 128) && em.getLast? == some 0xBC
    && db.take (k - 2 * h - 1) == List.replicate (k - 2 * h - 2) 0 ++ [1]
    && x == hashOf hash (List.replicate 8 0 ++ digest ++ db.drop (k - 2 * h - 1))

/-! RSASSA-PKCS1-v1_5 -/

/-- The DigestInfo that precedes a digest. -/
def digestInfo (hash : Nat) : Bytes :=
  [0x30, BitVec.ofNat 8 (17 + hashLen hash), 0x30, 0x0D, 0x06, 0x09, 0x60, 0x86, 0x48, 0x01, 0x65, 0x03, 0x04, 0x02,
   BitVec.ofNat 8 (hash + 1), 0x05, 0x00, 0x04, BitVec.ofNat 8 (hashLen hash)]

def pkcs1Encode (hash k : Nat) (digest : Bytes) : Bytes :=
  let t := digestInfo hash ++ digest
  [0, 1] ++ List.replicate (k - t.length - 3) 0xFF ++ [0] ++ t

/-! RSAES-OAEP -/

def oaepEncode (hash k : Nat) (seed label msg : Bytes) : Bytes :=
  let h := hashLen hash
  let db := hashOf hash label ++ List.replicate (k - msg.length - 2 * h - 2) 0 ++ [1] ++ msg
  let mdb := xorBytes db (mgf1 hash seed (k - h - 1))
  [0] ++ xorBytes seed (mgf1 hash mdb h) ++ mdb

def oaepDecode (hash k : Nat) (label em : Bytes) : Option Bytes :=
  let h := hashLen hash
  let mdb := em.drop (1 + h)
  let seed := xorBytes ((em.drop 1).take h) (mgf1 hash mdb h)
  let db := xorBytes mdb (mgf1 hash seed (k - h - 1))
  match (db.drop h).dropWhile (fun x => x == 0) with
  | 1 :: m => if 2 * h + 2 ≤ k ∧ em.headD 1 = 0 ∧ db.take h = hashOf hash label then some m else none
  | _ => none

/-! Operations on keys in the layout of R280 -/

/-- A signature of a digest: PKCS #1 v1.5 or PSS. -/
def rsaSign (pkcs1 : Bool) (hash k : Nat) (key salt digest : Bytes) : Bytes :=
  let em := if pkcs1 then pkcs1Encode hash k digest else pssEncode hash k salt digest
  beBytes k (rsaPrivate k key (beNat em))

def rsaVerify (pkcs1 : Bool) (hash k : Nat) (pub digest sig : Bytes) : Bool :=
  let em := beBytes k (rsaPublic k pub (beNat sig))
  if pkcs1 then em == pkcs1Encode hash k digest else pssOk hash k digest em

def rsaEncrypt (hash k : Nat) (pub seed label msg : Bytes) : Bytes :=
  beBytes k (rsaPublic k pub (beNat (oaepEncode hash k seed label msg)))

def rsaDecrypt (hash k : Nat) (key label ct : Bytes) : Option Bytes :=
  oaepDecode hash k label (beBytes k (rsaPrivate k key (beNat ct)))

/-! Generation (R294) -/

/-- The extended algorithm of Euclid on (r, t) and (r', t'). -/
def egcdGo : Nat → Int → Int → Int → Int → Int
  | 0, _, _, t, _ => t
  | f + 1, r, r', t, t' => if r' = 0 then t else egcdGo f r' (r % r') t' (t - r / r' * t')

/-- The inverse of `e` modulo `m`, where there is one. -/
def inverse (m e : Nat) : Nat := ((egcdGo 65536 (m : Int) (e : Int) 0 1) % (m : Int)).toNat

/-- The material of the key of two primes, e = 65,537. -/
def rsaMaterial (k p q : Nat) : Bytes :=
  let e := 65537
  let d := inverse (Nat.lcm (p - 1) (q - 1)) e
  beBytes k (p * q) ++ beBytes 4 e ++ beBytes k d ++ beBytes (k / 2) p ++ beBytes (k / 2) q ++ beBytes (k / 2) (d % (p - 1))
    ++ beBytes (k / 2) (d % (q - 1)) ++ beBytes (k / 2) (inverse p (q % p))

end Sys2Proof.Machine
end

