-- ==== Sys2Proof/Machine/Slhdsa.lean ====
section
/-! DEFINITION. SLH-DSA of FIPS 205 in its four sets of category 1, which the rules name and do not restate
(08_pq_library.md R223, R226, R232, R233; PRESUMED, log 143). Values are strings of 16 bytes. -/

namespace Sys2Proof.Machine

/-! Parameters: the SHA-2 sets, the small ones; layers, height of a layer, height and number of the FORS trees -/

def slhSha (alg : Nat) : Bool := alg == 0x0223 || alg == 0x0224
def slhSmall (alg : Nat) : Bool := alg == 0x0222 || alg == 0x0224
def slhD (alg : Nat) : Nat := if slhSmall alg then 7 else 22
def slhH (alg : Nat) : Nat := if slhSmall alg then 9 else 3
def slhA (alg : Nat) : Nat := if slhSmall alg then 12 else 6
def slhK (alg : Nat) : Nat := if slhSmall alg then 14 else 33

/-- An address: layer, tree, type and three words. -/
structure SlhAdrs where
  layer : Nat
  tree : Nat
  type : Nat
  w1 : Nat
  w2 : Nat
  w3 : Nat

/-- An address as the hash functions take it; the SHA-2 sets compress it. -/
def slhBytes (alg : Nat) (x : SlhAdrs) : Bytes :=
  let words := beBytes 4 x.w1 ++ beBytes 4 x.w2 ++ beBytes 4 x.w3
  if slhSha alg then beBytes 1 x.layer ++ beBytes 8 x.tree ++ beBytes 1 x.type ++ words
  else beBytes 4 x.layer ++ beBytes 12 x.tree ++ beBytes 4 x.type ++ words

/-- PRF, F, H and T: all of one form. -/
def slhHash (alg : Nat) (seed : Bytes) (x : SlhAdrs) (m : Bytes) : Bytes :=
  if slhSha alg then (sha256 (seed ++ List.replicate 48 0 ++ slhBytes alg x ++ m)).take 16
  else shake256 (seed ++ slhBytes alg x ++ m) 16

def slhDigest (alg : Nat) (r seed root m : Bytes) : Bytes :=
  let n := if slhSmall alg then 30 else 34
  if slhSha alg then mgf1 0 (r ++ seed ++ sha256 (r ++ seed ++ root ++ m)) n else shake256 (r ++ seed ++ root ++ m) n

def slhPrfMsg (alg : Nat) (prf opt m : Bytes) : Bytes :=
  if slhSha alg then (hmac sha256 64 prf (opt ++ m)).take 16 else shake256 (prf ++ opt ++ m) 16

/-! One-time signatures -/

/-- Digits of four bits, then three of their checksum. -/
def slhDigits (m : Bytes) : List Nat :=
  let d := m.flatMap (fun b => [b.toNat / 16, b.toNat % 16])
  let c := (d.map (fun x => 15 - x)).sum
  d ++ [c / 256 % 16, c / 16 % 16, c % 16]

/-- `n` steps of a chain from step `i`. -/
def slhChain (alg : Nat) (seed : Bytes) (x : SlhAdrs) : Nat → Nat → Bytes → Bytes
  | 0, _, v => v
  | n + 1, i, v => slhChain alg seed x n (i + 1) (slhHash alg seed { x with w3 := i } v)

def wotsSecret (alg : Nat) (seed sk : Bytes) (x : SlhAdrs) (i : Nat) : Bytes :=
  slhHash alg seed { x with type := 5, w2 := i, w3 := 0 } sk

/-- The public key of the chains' ends. -/
def wotsRoot (alg : Nat) (seed : Bytes) (x : SlhAdrs) (ends : List Bytes) : Bytes :=
  slhHash alg seed { x with type := 1, w2 := 0, w3 := 0 } ends.flatten

def wotsPub (alg : Nat) (seed sk : Bytes) (x : SlhAdrs) : Bytes :=
  wotsRoot alg seed x ((List.range 35).map (fun i =>
    slhChain alg seed { x with type := 0, w2 := i } 15 0 (wotsSecret alg seed sk x i)))

def wotsSign (alg : Nat) (seed sk : Bytes) (x : SlhAdrs) (m : Bytes) : Bytes :=
  (slhDigits m).zipIdx.flatMap (fun d => slhChain alg seed { x with type := 0, w2 := d.2 } d.1 0 (wotsSecret alg seed sk x d.2))

def wotsOpen (alg : Nat) (seed : Bytes) (x : SlhAdrs) (m sig : Bytes) : Bytes :=
  wotsRoot alg seed x ((slhDigits m).zipIdx.map (fun d =>
    slhChain alg seed { x with type := 0, w2 := d.2 } (15 - d.1) d.1 ((sig.drop (16 * d.2)).take 16)))

/-! Trees: a leaf function, nodes, paths -/

/-- Node `i` of height `z` over leaves; an address of the tree's type takes height and index. -/
def slhNode (alg : Nat) (seed : Bytes) (x : SlhAdrs) (leaf : Nat → Bytes) : Nat → Nat → Bytes
  | 0, i => leaf i
  | z + 1, i => slhHash alg seed { x with w2 := z + 1, w3 := i }
      (slhNode alg seed x leaf z (2 * i) ++ slhNode alg seed x leaf z (2 * i + 1))

def slhPath (alg : Nat) (seed : Bytes) (x : SlhAdrs) (leaf : Nat → Bytes) (h i : Nat) : Bytes :=
  (List.range h).flatMap (fun j =>
    let k := i / 2 ^ j
    slhNode alg seed x leaf j (if k % 2 = 0 then k + 1 else k - 1))

/-- The root that a node and its path give, from height `z`. -/
def slhClimb (alg : Nat) (seed : Bytes) (x : SlhAdrs) : Nat → Nat → Nat → Bytes → Bytes → Bytes
  | 0, _, _, v, _ => v
  | n + 1, z, i, v, path =>
      let p := path.take 16
      slhClimb alg seed x n (z + 1) (i / 2)
        (slhHash alg seed { x with w2 := z + 1, w3 := i / 2 } (if i % 2 = 0 then v ++ p else p ++ v)) (path.drop 16)

def xmssAdrs (layer tree : Nat) : SlhAdrs := { layer := layer, tree := tree, type := 2, w1 := 0, w2 := 0, w3 := 0 }
def xmssLeaf (alg : Nat) (seed sk : Bytes) (layer tree i : Nat) : Bytes :=
  wotsPub alg seed sk { xmssAdrs layer tree with type := 0, w1 := i }
def xmssRoot (alg : Nat) (seed sk : Bytes) (layer tree : Nat) : Bytes :=
  slhNode alg seed (xmssAdrs layer tree) (xmssLeaf alg seed sk layer tree) (slhH alg) 0

/-- The layers of the hypertree above a message. -/
def hyperGo (alg : Nat) (seed sk : Bytes) : Nat → Nat → Nat → Nat → Bytes → Bytes
  | 0, _, _, _, _ => []
  | n + 1, layer, tree, leaf, m =>
      wotsSign alg seed sk { xmssAdrs layer tree with type := 0, w1 := leaf } m
        ++ slhPath alg seed (xmssAdrs layer tree) (xmssLeaf alg seed sk layer tree) (slhH alg) leaf
        ++ hyperGo alg seed sk n (layer + 1) (tree / 2 ^ slhH alg) (tree % 2 ^ slhH alg) (xmssRoot alg seed sk layer tree)

def hyperOpen (alg : Nat) (seed : Bytes) : Nat → Nat → Nat → Nat → Bytes → Bytes → Bytes
  | 0, _, _, _, m, _ => m
  | n + 1, layer, tree, leaf, m, sig =>
      let v := wotsOpen alg seed { xmssAdrs layer tree with type := 0, w1 := leaf } m (sig.take 560)
      hyperOpen alg seed n (layer + 1) (tree / 2 ^ slhH alg) (tree % 2 ^ slhH alg)
        (slhClimb alg seed (xmssAdrs layer tree) (slhH alg) 0 leaf v (sig.drop 560)) (sig.drop (560 + 16 * slhH alg))

/-! FORS -/

def forsAdrs (tree leaf : Nat) : SlhAdrs := { layer := 0, tree := tree, type := 3, w1 := leaf, w2 := 0, w3 := 0 }
def forsSecret (alg : Nat) (seed sk : Bytes) (x : SlhAdrs) (i : Nat) : Bytes :=
  slhHash alg seed { x with type := 6, w2 := 0, w3 := i } sk
def forsLeaf (alg : Nat) (seed sk : Bytes) (x : SlhAdrs) (i : Nat) : Bytes :=
  slhHash alg seed { x with w2 := 0, w3 := i } (forsSecret alg seed sk x i)
/-- The chosen leaves: one index a tree. -/
def forsIndices (alg : Nat) (md : Bytes) : List Nat := (List.range (slhK alg)).map (beField (padTo 64 md) (slhA alg))

def forsSign (alg : Nat) (seed sk : Bytes) (x : SlhAdrs) (md : Bytes) : Bytes :=
  (forsIndices alg md).zipIdx.flatMap (fun t =>
    let i := t.2 * 2 ^ slhA alg + t.1
    forsSecret alg seed sk x i ++ slhPath alg seed x (forsLeaf alg seed sk x) (slhA alg) i)

def forsOpen (alg : Nat) (seed : Bytes) (x : SlhAdrs) (md sig : Bytes) : Bytes :=
  let n := 16 * (1 + slhA alg)
  slhHash alg seed { x with type := 4, w2 := 0, w3 := 0 } ((forsIndices alg md).zipIdx.flatMap (fun t =>
    let i := t.2 * 2 ^ slhA alg + t.1
    let b := sig.drop (n * t.2)
    slhClimb alg seed x (slhA alg) 0 i (slhHash alg seed { x with w2 := 0, w3 := i } (b.take 16)) (b.drop 16)))

/-! Keys, signatures: SK.seed, SK.prf, PK.seed, PK.root -/

def slhGen (alg : Nat) (b : Bytes) : Bytes :=
  let seed := (b.drop 32).take 16
  b.take 48 ++ xmssRoot alg seed (b.take 16) (slhD alg - 1) 0

def slhPub (sk : Bytes) : Bytes := sk.drop 32

/-- The part of the digest that FORS signs, the tree and the leaf. -/
def slhSplit (alg : Nat) (d : Bytes) : Bytes × Nat × Nat :=
  let n := (slhK alg * slhA alg + 7) / 8
  let t := slhH alg * (slhD alg - 1)
  let k := (t + 7) / 8
  (d.take n, beAt d n k % 2 ^ t, beAt d (n + k) ((slhH alg + 7) / 8) % 2 ^ slhH alg)

/-- A signature; `opt` is PK.seed in the deterministic variant. -/
def slhSign (alg : Nat) (sk opt msg : Bytes) : Bytes :=
  let seed := (sk.drop 32).take 16
  let r := slhPrfMsg alg ((sk.drop 16).take 16) opt msg
  let t := slhSplit alg (slhDigest alg r seed (sk.drop 48) msg)
  let x := forsAdrs t.2.1 t.2.2
  let f := forsSign alg seed (sk.take 16) x t.1
  r ++ f ++ hyperGo alg seed (sk.take 16) (slhD alg) 0 t.2.1 t.2.2 (forsOpen alg seed x t.1 f)

def slhVerify (alg : Nat) (pk msg sig : Bytes) : Bool :=
  let seed := pk.take 16
  let t := slhSplit alg (slhDigest alg (sig.take 16) seed (pk.drop 16) msg)
  let b := sig.drop 16
  let n := 16 * slhK alg * (1 + slhA alg)
  hyperOpen alg seed (slhD alg) 0 t.2.1 t.2.2 (forsOpen alg seed (forsAdrs t.2.1 t.2.2) t.1 b) (b.drop n) == pk.drop 16

end Sys2Proof.Machine
end

