-- ==== Sys2Proof/Machine/Schemes.lean ====
section
/-! DEFINITION. Keys, signatures and encapsulation by algorithm (R127, R223, R226, R278): the standards' own functions where the
model holds them; FN-DSA, HQC and Classic McEliece are free functions of `Config` (log 143). -/

namespace Sys2Proof.Machine

/-- `n` bytes of the random string of draw `draw`. -/
def randBytes (draw n : Nat) : Bytes := (List.range n).map (Sys2Proof.Config.randByte draw)

/-! Key pairs -/

/-- The private key that generation makes of 96 random bytes; `sel` is k / 64 of RSA. None: the bytes give no scalar in range, and
are drawn again (R294). -/
def privateOf (alg sel : Nat) (b : Bytes) : Option Bytes :=
  if isRsa alg then
    let p := Sys2Proof.Config.rsaPrimes b (8 * sel)
    some (rsaMaterial (8 * sel) p.1 p.2)
  else if isEcdsa alg then
    let d := beNat (b.take (ecScalar alg)) % 2 ^ orderBits alg
    if curveOrder alg ≤ d then none else some (beBytes (ecScalar alg) d)
  else if isEddsa alg || isXdh alg then some (b.take (ecScalar alg))
  else if isStateful alg then some (statefulGen alg b)
  else if isMldsa alg then some (mldsaGen alg (b.take 32))
  else if isSlhdsa alg then some (slhGen alg b)
  else if alg ≤ 0x0203 then some (mlkemGen alg (b.take 32) ((b.drop 32).take 32))
  else some (Sys2Proof.Config.keyGen b alg sel)

/-- The public key of a private one. -/
def publicOf (alg sel : Nat) (m : Bytes) : Bytes :=
  if isRsa alg then m.take (8 * sel + 4)
  else if isClassical alg then ecPubOf alg m
  else if isStateful alg then statefulPub alg m
  else if isMldsa alg then mldsaPub alg m
  else if isSlhdsa alg then slhPub m
  else if alg ≤ 0x0203 then mlkemPub alg m
  else Sys2Proof.Config.pubOf alg m

/-! Signatures of the library but for the stateful ones -/

/-- A signature of draw `draw`, or the deterministic one (R223). -/
def pqSign (alg prehash : Nat) (det : Bool) (draw : Nat) (sk ctx msg : Bytes) : Bytes :=
  if isMldsa alg then
    mldsaSign alg sk (if det then List.replicate 32 0 else randBytes draw 32) (signedMessage prehash ctx msg)
  else if isSlhdsa alg then
    slhSign alg sk (if det then (sk.drop 32).take 16 else randBytes draw 16) (signedMessage prehash ctx msg)
  else Sys2Proof.Config.sigMake draw alg sk ctx msg

def pqVerify (alg prehash : Nat) (pk ctx msg sig : Bytes) : Bool :=
  if isMldsa alg then mldsaVerify alg pk (signedMessage prehash ctx msg) sig
  else if isSlhdsa alg then slhVerify alg pk (signedMessage prehash ctx msg) sig
  else Sys2Proof.Config.sigOk alg pk ctx msg sig

/-! Encapsulation -/

def kemSeal (draw alg : Nat) (pk : Bytes) : Bytes × Bytes :=
  if alg ≤ 0x0203 then mlkemEncaps alg pk (randBytes draw 32) else Sys2Proof.Config.kemEncaps draw alg pk
def kemOpen (alg : Nat) (sk ct : Bytes) : Bytes :=
  if alg ≤ 0x0203 then mlkemDecaps alg sk ct else Sys2Proof.Config.kemDecaps alg sk ct

/-! ECDSA -/

/-- A nonce of draw `draw`, in the range of the order. -/
def drawNonceEc (alg draw i : Nat) : Nat :=
  1 + beNat ((List.range (ecScalar alg)).map (fun k => Sys2Proof.Config.randByte draw (128 * i + k))) % (curveOrder alg - 1)

/-- A signature under nonces of a draw: another one while r or s is zero (R289). -/
def ecdsaDraw (alg draw : Nat) (key digest : Bytes) : Bytes :=
  ((List.range 16).findSome? (fun i => ecdsaWith alg (beNat key) (drawNonceEc alg draw i) digest)).getD []

/-- The pair of signatures of approvals, packages and certificates: ECDSA P-384 with SHA-384, and ML-DSA-65 with a context (R97,
R107, R178, R248, R428). -/
def pairSigned (pkEc pkMl msg : Bytes) (context : String) (sigEc sigMl : Bytes) : Bool :=
  ecdsaVerify 0x0312 pkEc (sha384 msg) sigEc && mldsaVerify 0x0212 pkMl (signedMessage 0 (ascii context) msg) sigMl

/-! The attestation keys of a state (R62, R425) -/

def attestEcPub (device : Bytes) (state : Nat) : Bytes := ecPubOf 0x0312 (Sys2Proof.Config.attestEcSk device state)
/-- A signature by the ECDSA P-384 attestation key; the hash is SHA-384 as everywhere else (DEDUCED, log 143). -/
def attestSignEc (device : Bytes) (state draw : Nat) (msg : Bytes) : Bytes :=
  ecdsaDraw 0x0312 draw (Sys2Proof.Config.attestEcSk device state) (sha384 msg)
def attestSignMl (device : Bytes) (state draw : Nat) (msg : Bytes) : Bytes :=
  mldsaSign 0x0213 (Sys2Proof.Config.attestMlSk device state) (randBytes draw 32) (signedMessage 0 [] msg)

end Sys2Proof.Machine
end

