-- ==== Sys2Proof/Machine/Keys.lean ====
section
/-! DEFINITION. The key store: attribute blocks, handles, allocation, object states, meters, storage keys, tags, blobs
(05_key_store.md R116 to R150; 13_tenancy.md R353). -/

namespace Sys2Proof.Machine

/-- What a check answers: a value, or a status and a detail. -/
abbrev Res (α : Type) := Except (Nat × Nat) α

def reject {α : Type} (st detail : Nat) : Res α := .error (st, detail)

/-- Fail with a status and detail when a condition holds. -/
def failIf (c : Bool) (st detail : Nat) : Res Unit := if c then .error (st, detail) else .ok ()

/-! Functions and tenants (R131) -/

def vfDefault : Nat → Vf := fun _ => vfReset
def getVf (s : State) (n : Nat) : Vf := kget vfDefault s.ten.vf n
def setVf (s : State) (n : Nat) (v : Vf) : State := { s with ten := { s.ten with vf := kset vfDefault s.ten.vf n v } }

/-- A function of the host port that is a VF. -/
def isVf (fn : Nat) : Bool := decide (1 ≤ fn) && decide (fn < 1024)

/-- The tenant a function acts as; the number 2,048 + t stands for tenant t of a share that another unit sent (R345). -/
def tenantOf (s : State) (fn : Nat) : Nat := if isVf fn then (getVf s fn).tenant else if 2048 ≤ fn then fn - 2048 else 0

/-- The tenant a record of a function carries: a VF's; the PF and custodian channels carry tenant 0. -/
def recTenant (s : State) (fn : Nat) : Option Nat := some (tenantOf s fn)

def tenantKnown (s : State) (t : Nat) : Bool := t == 0 || (kfind s.ten.tenants t).isSome

def quotaOf (s : State) (t : Nat) : Quota := (kfind s.ten.tenants t).getD quotaMax

/-! Attribute blocks (R123) -/

def attrParse (b : Bytes) : Attr :=
  { usage := leAt b 1 1, alg := leAt b 2 2, flags := leAt b 4 2, floor := leAt b 6 1 % 4, origin := leAt b 7 1 % 8,
    root := leAt b 7 1 / 16 % 4, tenant := leAt b 8 2 % 4096, len := leAt b 10 2, units := leAt b 12 1, cls := leAt b 13 1,
    meter := leAt b 14 2 % 4096, meterKind := leAt b 14 2 / 4096, notBefore := leAt b 16 8, notAfter := leAt b 24 8,
    limit := leAt b 32 8, handle := leAt b 40 4, kcv := leAt b 44 3, openFloor := leAt b 47 1, created := leAt b 48 8,
    label := leAt b 56 8 }

/-- A stored block: OPEN_FLOOR reads 0x01 exactly when the floor is OPEN (R132). -/
def attrBytes (a : Attr) : Bytes :=
  [0x01] ++ leBytes 1 a.usage ++ leBytes 2 a.alg ++ leBytes 2 a.flags ++ leBytes 1 a.floor
    ++ leBytes 1 (a.origin + 16 * a.root) ++ leBytes 2 a.tenant ++ leBytes 2 a.len ++ leBytes 1 a.units ++ leBytes 1 a.cls
    ++ leBytes 2 (a.meter + 4096 * a.meterKind) ++ leBytes 8 a.notBefore ++ leBytes 8 a.notAfter ++ leBytes 8 a.limit
    ++ leBytes 4 a.handle ++ leBytes 3 a.kcv ++ leBytes 1 (if a.floor = 0 then 1 else 0) ++ leBytes 8 a.created
    ++ leBytes 8 a.label

def flExportable : Nat := 0
def flParkWide : Nat := 1
def flClear : Nat := 2
def flStream : Nat := 3
def flMetered : Nat := 4
def attrFlag (a : Attr) (b : Nat) : Bool := a.flags.testBit b

/-- The reserved bits of a block that R123 and R124 name. -/
def attrReservedOk (b : Bytes) : Bool :=
  decide (leAt b 6 1 < 4) && decide (leAt b 7 1 % 16 < 8) && decide (leAt b 7 1 < 64) && decide (leAt b 8 2 < 4096)
    && decide (leAt b 4 2 < 32)

/-- The device-written fields of a supplied block are zero (R125). -/
def attrDeviceZero (a : Attr) : Bool :=
  a.origin == 0 && a.root == 0 && a.len == 0 && a.units == 0 && a.cls == 0 && a.meter == 0 && a.handle == 0 && a.kcv == 0
    && a.created == 0

/-- The floor a supplied block stores (R132). -/
def storedFloor (a : Attr) : Nat := if a.floor = 0 then (if a.openFloor = 1 then 0 else 1) else a.floor

/-- FLOOR and OPEN_FLOOR of a supplied block (R132). -/
def floorCheck (a : Attr) : Res Unit :=
  if a.floor = 3 then reject stParam 0
  else if 1 < a.openFloor then reject stParam 0
  else if a.openFloor = 1 ∧ a.floor ≠ 0 then reject stParam 0
  else if topProfile a.alg < storedFloor a then reject stParam 0
  else .ok ()

/-- The limit a meter of a kind takes at creation, `ots` being the number of one-time keys of the set (R134). -/
def meterLimit (a : Attr) (ots : Nat) : Option Nat :=
  if a.meterKind = 1 then
    if isAes a.alg ∧ a.usage = usEncrypt ∧ a.limit ≤ 2 ^ 32 then some (if a.limit = 0 then 2 ^ 32 else a.limit) else none
  else if a.meterKind = 2 then
    if isTdea a.alg ∧ a.limit ≤ 2 ^ 20 then some (if a.limit = 0 then 2 ^ 20 else a.limit) else none
  else if a.meterKind = 3 then
    if isStateful a.alg ∧ a.usage = usSign ∧ a.limit = 0 then some ots else none
  else if a.meterKind = 4 then
    if 1 ≤ a.limit ∧ a.limit ≤ 2 ^ 62 then some a.limit else none
  else none

/-- METERED, its kind and limit (R134): an unmetered block has kind and limit zero, and a stateful SIGN key is metered
with kind OTS_INDEX, local to the unit. -/
def meterCheck (a : Attr) (ots : Nat) : Res Attr :=
  if attrFlag a flMetered then
    if isStateful a.alg ∧ a.usage = usSign ∧ a.meterKind ≠ 3 then reject stParam 0
    else if a.meterKind = 3 ∧ attrFlag a flParkWide then reject stParam 0
    else match meterLimit a ots with
      | some l => .ok { a with limit := l }
      | none => reject stParam 0
  else if isStateful a.alg ∧ a.usage = usSign then reject stParam 0
  else if a.meterKind ≠ 0 ∨ a.limit ≠ 0 then reject stParam 0
  else .ok a

/-- A block that the host supplies for a creation (R125 to R127, R131, R132, R134), checked in the order: VERSION, form,
floor, window, usage, owner, meter. -/
def hostAttr (b : Bytes) (tenant ots : Nat) : Res Attr := do
  let a := attrParse b
  failIf (leAt b 0 1 != 1) stParam dAttrForm
  failIf (!(attrReservedOk b && attrDeviceZero a)) stParam dReserved
  floorCheck a
  failIf (a.notAfter != 0 && decide (a.notAfter < a.notBefore)) stParam 0
  match classOf a.alg a.usage with
  | none => reject stUsage 0
  | some c =>
    failIf (a.tenant != tenant) stNotFound 0
    let a ← meterCheck a ots
    .ok { a with cls := c, floor := storedFloor a, openFloor := 0 }

/-! Roots and storage keys (R139, R140) -/

/-- The ROOT value of the selected root. -/
def rootIx (s : State) : Option Nat := if 1 ≤ s.lcs.state ∧ s.lcs.state ≤ 4 then some (s.lcs.state - 1) else none

def rootBytes (s : State) : Bytes :=
  match rootIx s with
  | some r => kget (fun _ => []) s.peat.roots r
  | none => []

def storageKey (s : State) (purpose tenant : Nat) : Bytes :=
  kmac256 (rootBytes s) (leBytes 1 purpose ++ leBytes 2 tenant) (ascii "SX256Q STORE") 32

/-! Objects (R116 to R121, R146) -/

def unitsFor (len : Nat) : Nat := ceilDiv (len + 80) 128

/-- Material of 1 to 16,304 bytes (R117). -/
def materialLenOk (n : Nat) : Bool := decide (1 ≤ n ∧ n ≤ 16304)

def handleOf (base gen : Nat) : Nat := base + 2 ^ 24 * gen
def handleBase (h : Nat) : Nat := h % 2 ^ 18
def handleGen (h : Nat) : Nat := h / 2 ^ 24

/-- The generation counter of a unit: 1 after a cold start (R118). -/
def unitGen (s : State) (u : Nat) : Nat := kget (fun _ => 1) s.kst.gens u

def nextGen (g : Nat) : Nat := if 255 ≤ g then 1 else g + 1

/-- The bits of R119 and the object the handle names: ACTIVE, or DAMAGED, which handles still name (R121). -/
def findObj (s : State) (h : Nat) : Option (Nat × Obj) :=
  let b := handleBase h
  if h / 2 ^ 18 % 64 ≠ 0 ∨ handleGen h = 0 ∨ 256 ≤ handleGen h ∨ b < 256 ∨ 196608 ≤ b then none
  else match kfind s.kst.objs b with
    | some o =>
        if (o.st = .active ∨ o.st = .damaged) ∧ o.gen = handleGen h then some (b, o) else none
    | none => none

/-- The object a handle names for a tenant (R131). -/
def findKey (s : State) (tenant h : Nat) : Option (Nat × Obj) :=
  match findObj s h with
  | some (b, o) => if o.attr.tenant = tenant then some (b, o) else none
  | none => none

def setObjs (s : State) (m : KMap Obj) : State := { s with kst := { s.kst with objs := m } }
def putObj (s : State) (b : Nat) (o : Obj) : State := setObjs s (kins s.kst.objs b o)

/-- The run of an object without its tag: block, material, zero fill (R117). -/
def objRun (a : Attr) (material : Bytes) : Bytes := padTo (a.units * 128 - 16) (attrBytes a ++ material)

def objTag (s : State) (a : Attr) (material : Bytes) : Bytes :=
  kmac128 (storageKey s 0x02 a.tenant) (objRun a material) (ascii "SX256Q OBJ") 16

/-- Change the block of the object at a base unit; the tag follows. -/
def setAttr (s : State) (b : Nat) (f : Attr → Attr) : State :=
  match kfind s.kst.objs b with
  | some o => putObj s b { o with attr := f o.attr, tag := objTag s (f o.attr) o.material }
  | none => s

/-- The lowest-addressed free run of `n` units at or above `lo` (R120). -/
def firstFit (n : Nat) : KMap Obj → Nat → Option Nat
  | [], lo => if lo + n ≤ 196608 then some lo else none
  | (b, o) :: r, lo =>
      if lo + n ≤ b then some lo else firstFit n r (if lo < b + o.attr.units then b + o.attr.units else lo)

/-- Is the run of `n` units at `b` wholly FREE? -/
def runFree (s : State) (b n : Nat) : Bool :=
  decide (256 ≤ b ∧ b + n ≤ 196608)
    && s.kst.objs.all (fun p => decide (p.1 + p.2.attr.units ≤ b ∨ b + n ≤ p.1))

/-- Units a tenant holds, in every state but FREE (R352). -/
def unitsHeld (s : State) (t : Nat) : Nat :=
  (s.kst.objs.filter (fun p => p.2.attr.tenant == t)).foldl (fun n p => n + p.2.attr.units) 0

/-- Units in use by key objects. -/
def unitsUsed (s : State) : Nat :=
  (s.kst.objs.filter (fun p => decide (256 ≤ p.1))).foldl (fun n p => n + p.2.attr.units) 0
def unitsFree (s : State) : Nat := 196352 - unitsUsed s

def objsIn (s : State) (p : ObjState → Bool) : Nat := (s.kst.objs.filter (fun e => p e.2.st)).length

/-- The longest free run, up to 128 (R150). -/
def largestGo : KMap Obj → Nat → Nat
  | [], lo => 196608 - lo
  | (b, o) :: r, lo => max (b - lo) (largestGo r (max lo (b + o.attr.units)))
def largestRun (s : State) : Nat := min 128 (largestGo s.kst.objs 256)

def kstInt (s : State) (b : Nat) : State :=
  let d := { s.kst with intStatus := s.kst.intStatus ||| 2 ^ b }
  vectorFor { s with kst := d } (newBit s.kst.intStatus b) d.intEnable 50

/-! Meters (R133 to R137) -/

def meterWord (s : State) (i : Nat) : Nat := kget (fun _ => 0) s.peat.meters i
def meterBound (s : State) (i : Nat) : Bool := (meterWord s i).testBit 63
def meterUsed (s : State) (i : Nat) : Nat := meterWord s i % 2 ^ 63
def setMeter (s : State) (i w : Nat) : State :=
  { s with peat := { s.peat with meters := kset (fun _ => 0) s.peat.meters i w, meterWr := satInc 32 s.peat.meterWr } }

def metersBound (s : State) : Nat := (s.peat.meters.filter (fun p => p.2.testBit 63)).length

/-- The loaded key that holds a meter: an object that has not reached FREE. -/
def meterHolder (s : State) (i : Nat) : Option (Nat × Obj) :=
  s.kst.objs.find? (fun p => attrFlag p.2.attr flMetered && p.2.attr.meter == i)

/-- Meters bound to a tenant's keys (R352). -/
def metersOf (s : State) (t : Nat) : Nat :=
  (s.kst.objs.filter (fun p => attrFlag p.2.attr flMetered && p.2.attr.tenant == t)).length

/-- The lowest-indexed meter whose BOUND is 0. -/
def freeMeterGo (s : State) : Nat → Nat → Option Nat
  | 0, _ => none
  | n + 1, i => if meterBound s i then freeMeterGo s n (i + 1) else some i
def freeMeter (s : State) : Option Nat := freeMeterGo s 4096 0

def metersLow (s : State) : State := if 4096 - metersBound s < 64 then kstInt s 4 else s

/-- Does the meter of a key cover a charge (R135)? An unmetered key has no limit. -/
def meterCovers (s : State) (a : Attr) (n : Nat) : Bool :=
  !attrFlag a flMetered || decide (meterUsed s a.meter + n ≤ a.limit)

/-- Charge a meter: USED advances (R21, R135, R136). -/
def meterCharge (s : State) (a : Attr) (n : Nat) : State :=
  if attrFlag a flMetered ∧ n ≠ 0 then
    let s1 := setMeter s a.meter (meterWord s a.meter + n)
    pmcDev (pmcDev { s1 with kst := { s1.kst with meterAdv := (s1.kst.meterAdv + n) % 2 ^ 64 } } 180 n)
      181 (if a.meterKind = 3 then n else 0)
  else s

/-! Creation (R117, R118, R120, R137) -/

/-- Runs of units that are created together, each with its tenant, exceed a unit quota (R120). -/
def quotaBroken (s : State) (runs : List (Nat × Nat)) : Bool :=
  runs.any (fun r => decide ((quotaOf s r.1).unitsMax < unitsHeld s r.1
    + (runs.filter (fun x => x.1 == r.1)).foldl (fun n x => n + x.2) 0))

/-- The order of R120's tests, then the meters: unit quota, space, meter quota, free meter. -/
def roomFor (s : State) (tenant units : Nat) (metered : Bool) : Res Nat :=
  if (quotaOf s tenant).unitsMax < unitsHeld s tenant + units then reject stDenied dQuotaUnits
  else match firstFit units s.kst.objs 256 with
    | none => reject stDenied dStoreFull
    | some b =>
        if !metered then .ok b
        else if (quotaOf s tenant).metersMax < metersOf s tenant + 1 then reject stDenied dQuotaMeters
        else if (freeMeter s).isNone then reject stDenied dMetersFull
        else .ok b

/-- CREATED: grid time, or zero while time is untraceable (R123). -/
def createdTime (s : State) : Nat := if untraceable s then 0 else now s

/-- The check value of R114 as the three bytes of KCV; zero for other keys. -/
def kcvOf (alg : Nat) (mat : Bytes) : Nat :=
  if isAes alg then leNat ((cmac (aesEnc mat) 16 (List.replicate 16 0)).take 3)
  else if isTdea alg then leNat ((tdeaEnc mat (List.replicate 8 0)).take 3)
  else 0

/-- The count of a new object (R150). -/
def createdCounts (s : State) : State := pmcDev { s with kst := { s.kst with created := satInc 32 s.kst.created } } 183 1

/-- Units left FREE, `free` of them, became fewer: below KST_LOW_MARK for the first time, the warning is raised (R150). -/
def lowSpace (free : Nat) (s : State) : State :=
  if s.kst.lowMark ≤ free ∧ unitsFree s < s.kst.lowMark then kstInt s 2 else s

/-- Put a new object at a base unit in a state; the meter is bound with USED 0 (R137). -/
def placeObj (s : State) (st : ObjState) (b gen txn : Nat) (a : Attr) (mat : Bytes) : State × Nat :=
  let m := if attrFlag a flMetered then (freeMeter s).getD 0 else 0
  let s1 := if attrFlag a flMetered then metersLow (setMeter s m (2 ^ 63)) else s
  let a' := { a with
    len := mat.length, units := unitsFor mat.length, meter := m, handle := handleOf b gen,
    root := (rootIx s).getD 0, created := createdTime s, kcv := if a.cls = clsSecret then kcvOf a.alg mat else 0 }
  let o : Obj := { st := st, gen := gen, attr := a', material := mat, tag := objTag s1 a' mat, waiting := 0, txn := txn }
  let s2 := putObj { s1 with kst := { s1.kst with gens := kset (fun _ => 1) s1.kst.gens b gen } } b o
  (createdCounts (lowSpace (unitsFree s) s2), handleOf b gen)

/-- Create an ACTIVE object. -/
def createObj (s : State) (a : Attr) (mat : Bytes) : Res (State × Nat) :=
  if !materialLenOk mat.length then reject stParam dMaterialLen
  else do
    let b ← roomFor s a.tenant (unitsFor mat.length) (attrFlag a flMetered)
    .ok (placeObj s .active b (unitGen s b) 0 a mat)

/-- Free a run: zeroed, the generation advances, the meter is unbound with USED kept (R118, R121, R137). -/
def freeObj (s : State) (b : Nat) : State :=
  match kfind s.kst.objs b with
  | none => s
  | some o =>
      let s1 := if attrFlag o.attr flMetered then setMeter s o.attr.meter (meterUsed s o.attr.meter) else s
      let k := { s1.kst with
        objs := kdel s1.kst.objs b, gens := kset (fun _ => 1) s1.kst.gens b (nextGen o.gen),
        deleted := satInc 32 s1.kst.deleted }
      pmcDev { s1 with kst := k } 184 1

/-- KEY_DELETE at its commit: DRAINING, and FREE when no accepted job still waits to load the object (R121). -/
def deleteObj (s : State) (b : Nat) : State :=
  match kfind s.kst.objs b with
  | none => s
  | some o =>
      if o.waiting = 0 then freeObj s b else putObj s b { o with st := .draining }

/-- The key-store PART payload of a record: VALUE0 is the handle (R464). -/
def kstPayload (h : Nat) : Bytes := payPart 0 0 0 0 h 0

/-- An object becomes DAMAGED (R147); a system object is a key store fault. `uncorr`: by an uncorrectable group, else by a
tag mismatch. -/
def damageObj (s : State) (b : Nat) (uncorr : Bool) : State :=
  let k := if uncorr then { s.kst with uncorr := satInc 32 s.kst.uncorr } else { s.kst with tagFail := satInc 32 s.kst.tagFail }
  let s1 := { s with kst := k }
  if b < 256 then
    let s2 := record (kstInt { s1 with kst := { s1.kst with systemFault := true } } 1) 0x0404 0 sevFault none (kstPayload b)
    requestReset s2 8 0 false false
  else match kfind s.kst.objs b with
    | none => s1
    | some o =>
        let s2 := if o.st = .active then
            { putObj s1 b { o with st := .damaged } with
              kst := { (putObj s1 b { o with st := .damaged }).kst with damagedLast := o.attr.handle } }
          else s1
        record (kstInt s2 1) 0x0401 0 sevFault (some o.attr.tenant) (kstPayload o.attr.handle)

/-- A word corrected by the inner code (SECDED) or the outer one (R145, R147, R150). -/
def correctedObj (s : State) (h : Nat) (outer : Bool) : State :=
  if outer then
    record (kstInt { s with kst := { s.kst with outerCorr := satInc 32 s.kst.outerCorr } } 0) 0x0402 0 sevInfo none
      (kstPayload h)
  else { s with kst := { s.kst with innerCorr := satInc 32 s.kst.innerCorr } }

/-! Jobs that wait to load an object (R20, R121) -/

def addWaiting (s : State) (b : Nat) : State :=
  match kfind s.kst.objs b with
  | some o => putObj s b { o with waiting := o.waiting + 1 }
  | none => s

def dropWaiting (s : State) (b : Nat) : State :=
  match kfind s.kst.objs b with
  | some o => putObj s b { o with waiting := o.waiting - 1 }
  | none => s

/-- OBJECT_DRAINED: the last waiting job has loaded a DRAINING object. -/
def execObjectDrained (base : Fin 196608) (s : State) : Host.Outcome State Fault Refusal :=
  answer s (match kfind s.kst.objs base.val with
    | some o => if o.st = .draining ∧ o.waiting = 0 then freeObj s base.val else s
    | none => s)

/-! The scrubber (R145, R147, R148) -/

/-- The base unit of the object that covers a unit. -/
def coverOf (s : State) (u : Nat) : Option Nat :=
  (s.kst.objs.find? (fun p => decide (p.1 ≤ u ∧ u < p.1 + p.2.attr.units))).map (fun p => p.1)

/-- Unit visits due since the pace began: one every 2^(22 + SCRUB_PERIOD) / 196,608 ticks. -/
def scrubDue (s : State) : Bool :=
  decide ((s.kst.scrubDone + 1) * 2 ^ (22 + s.kst.scrubPeriod) ≤ (s.tick - s.kst.scrubBase) * 196608)

/-- The handle of the object at a base unit, 0 where there is none. -/
def handleAt (s : State) (b : Option Nat) : Nat :=
  match b with
  | some x => ((kfind s.kst.objs x).map (fun o => o.attr.handle)).getD 0
  | none => 0

/-- A key port of an engine takes the material of the object at base unit `b` now: the delivery is requested and has not
ended. -/
def delivering (s : State) (b : Nat) : Bool :=
  s.gth.jobs.any (fun e => match e.2.part with
    | some x =>
        let g := getEng s x
        g.st == .running && g.job == some e.1
          && ((g.keyA.requested && !g.keyA.valid && e.2.useA == some b) || (g.keyB.requested && !g.keyB.valid && e.2.useB == some b))
    | none => false)

/-- The next visit waits: the unit is being delivered, and is visited at the end of the delivery (R148). -/
def scrubDefers (s : State) : Bool :=
  match coverOf s s.kst.scrubPos with
  | some b => delivering s b
  | none => false

/-- A visit of the next unit, and what it finds there. -/
def execScrubUnit (found : StoreFinding) (s : State) : Host.Outcome State Fault Refusal :=
  answer s (if !(s.kst.scrubEn && s.kst.ready && scrubDue s) || scrubDefers s then s
    else
      let u := s.kst.scrubPos
      let k := { s.kst with
        scrubPos := if u = 196607 then 0 else u + 1, scrubDone := s.kst.scrubDone + 1,
        scrubPass := if u = 196607 then satInc 32 s.kst.scrubPass else s.kst.scrubPass }
      let s1 := pmcDev { s with kst := k } 186 1
      let b := if u < 256 then some u else coverOf s u
      match found with
      | .clean => s1
      | .innerCorrected => correctedObj s1 (handleAt s1 b) false
      | .outerCorrected => correctedObj s1 (handleAt s1 b) true
      | .uncorrectable => match b with
        | some x => damageObj s1 x true
        | none => { s1 with kst := { s1.kst with uncorr := satInc 32 s1.kst.uncorr } }
      | .tagMismatch => match b with
        | some x => damageObj s1 x false
        | none => s1)

/-! Blobs (R141, R142, R449) -/

/-- A blob: block, ciphertext, nonce, tag, under a 256-bit key. -/
def blobSeal (key nonce : Bytes) (a : Attr) (mat : Bytes) : Bytes :=
  let ct := gcmCtr (aesEnc key) nonce mat
  attrBytes a ++ ct ++ nonce ++ gcmTag (aesEnc key) nonce (attrBytes a) ct

/-- The blob layout of R141, its length in step with the block it carries. -/
def blobShape (b : Bytes) : Bool :=
  let a := attrParse b
  decide (64 ≤ b.length) && b.length == a.len + 92 && leAt b 0 1 == 1 && classOf a.alg a.usage == some a.cls
    && attrReservedOk b && decide (a.floor < 3) && a.openFloor == (if a.floor = 0 then 1 else 0)

/-- The form of a blob (check 1 of R142). -/
def blobForm (b : Bytes) : Bool :=
  blobShape b && materialLenOk (attrParse b).len && (attrParse b).units == unitsFor (attrParse b).len

/-- Decrypt and authenticate the material of a blob. -/
def blobOpen (key b : Bytes) : Option Bytes :=
  let a := attrParse b
  let ct := (b.drop 64).take a.len
  let nonce := (b.drop (64 + a.len)).take 12
  let tag := b.drop (76 + a.len)
  if gcmTag (aesEnc key) nonce (b.take 64) ct = tag then some (gcmCtr (aesEnc key) nonce ct) else none

/-- The checks of R142 on a blob for a tenant and, past them, the load; `relocate` is SELECT bit 16. The storage purpose
is BLOB, or COLD for a cold-start record. -/
def loadBlob (s : State) (purpose tenant : Nat) (relocate : Bool) (b : Bytes) : Res (State × Nat) := do
  let a := attrParse b
  failIf (!blobForm b) stKeyInvalid dBlobForm
  failIf (some a.root != rootIx s) stKeyInvalid dRootMismatch
  match blobOpen (storageKey s purpose tenant) b with
  | none => reject stKeyInvalid dBlobTag
  | some mat =>
    failIf (a.tenant != tenant) stKeyInvalid dBlobTag
    failIf (attrFlag a flParkWide && s.prk.st != .alone) stDenied dParkKey
    let base := handleBase a.handle
    let fits := runFree s base a.units
    failIf (!fits && !relocate) stDenied dHandleInUse
    failIf (attrFlag a flMetered && !meterBound s a.meter) stDenied dMeterUnbound
    failIf (attrFlag a flMetered && (meterHolder s a.meter).isSome) stDenied dMeterInUse
    failIf (decide ((quotaOf s tenant).unitsMax < unitsHeld s tenant + a.units)) stDenied dQuotaUnits
    failIf (attrFlag a flMetered && decide ((quotaOf s tenant).metersMax < metersOf s tenant + 1)) stDenied dQuotaMeters
    let place ← if fits then .ok (base, handleGen a.handle)
      else match firstFit a.units s.kst.objs 256 with
        | none => reject stDenied dStoreFull
        | some x => .ok (x, unitGen s x)
    let h := handleOf place.1 place.2
    let a' := { a with handle := h, origin := 5 }
    let o : Obj := { st := .active, gen := place.2, attr := a', material := mat, tag := objTag s a' mat, waiting := 0,
                     txn := 0 }
    let s1 := putObj { s with kst := { s.kst with gens := kset (fun _ => 1) s.kst.gens place.1 place.2 } } place.1 o
    .ok (createdCounts { lowSpace (unitsFree s) s1 with kst := { (lowSpace (unitsFree s) s1).kst with loaded := satInc 32 s.kst.loaded } }, h)

/-- A refused blob: counted and recorded (R142, R150, R463). -/
def blobRejected (s : State) (tenant handle : Nat) : State :=
  record { s with kst := { s.kst with blobReject := satInc 32 s.kst.blobReject } } 0x0403 0 sevFault (some tenant)
    (kstPayload handle)

/-! The records of the COLD region (R449) -/

def coldHandle (r : ColdRec) : Nat := (attrParse r.blob).handle
def coldHas (s : State) (h : Nat) : Bool := s.boot.coldRecs.any (fun r => coldHandle r == h)
def coldUsed (s : State) : Nat := s.boot.coldRecs.foldl (fun n r => n + 8 + r.blob.length) 0
def coldRemove (s : State) (h : Nat) : State :=
  { s with boot := { s.boot with coldRecs := s.boot.coldRecs.filter (fun r => coldHandle r != h) } }


/-! KEY_ATTR_SET (R125) and KEY_METER_SET (R137) on one unit -/

/-- The new block against the stored one: what may differ (R125). -/
def attrSetCheck (old : Attr) (b : Bytes) : Res Attr := do
  let a := attrParse b
  failIf (leAt b 0 1 != 1) stParam dAttrForm
  failIf (!attrReservedOk b) stParam dReserved
  failIf (isStateful old.alg && attrFlag a flExportable) stParam 0x018A
  let fixed := { a with
    notBefore := old.notBefore, notAfter := old.notAfter, floor := old.floor, openFloor := old.openFloor,
    label := old.label, flags := old.flags }
  failIf (fixed != old) stParam dAttrFixed
  failIf (attrFlag a flParkWide != attrFlag old flParkWide || attrFlag a flMetered != attrFlag old flMetered
    || (attrFlag a flExportable && !attrFlag old flExportable)) stParam dAttrFixed
  floorCheck a
  .ok { a with floor := storedFloor a, openFloor := 0 }

/-- The meter word and limit a KEY_METER_SET asks for (R137); the limit of a loaded key is in its block. -/
def meterSetCheck (s : State) (i word limit : Nat) : Res Unit :=
  match meterHolder s i with
  | none => failIf (limit != 0) stParam 0
  | some (_, o) =>
      if !word.testBit 63 then reject stDenied dMeterInUse
      else if o.attr.meterKind = 3 then
        if limit ≠ 0 then reject stParam 0
        else if word % 2 ^ 63 < meterUsed s i then reject stDenied dOtsLower
        else .ok ()
      else if (meterLimit { o.attr with limit := limit } 0).isNone ∨ limit = 0 then reject stParam 0
      else .ok ()

/-- The 24 bytes of KEY_METER_GET (R138). -/
def meterGet (s : State) (i kind : Nat) : Bytes :=
  let limit := match meterHolder s i with
    | some (_, o) => o.attr.limit
    | none => 0
  let rest := min (limit - meterUsed s i) 0xFFFFFFFF
  leBytes 2 i ++ leBytes 1 kind ++ leBytes 1 (b2n (meterBound s i)) ++ leBytes 8 (meterUsed s i) ++ leBytes 8 limit
    ++ leBytes 4 rest

end Sys2Proof.Machine
end

