-- ==== Sys2Proof/Machine/Kiln.lean ====
section
/-! DEFINITION. The kiln: sources and their windows, conditioning, DRBG instances, states, the software port, raw-sample
mode (11_random.md R302 to R322). `resume` lets the gatehouse go on with commands that wait at check 9. -/

namespace Sys2Proof.Machine

def getSrc (s : State) (i : Nat) : Src := kget (fun _ => srcReset) s.rng.srcs i
def setSrc (s : State) (i : Nat) (x : Src) : State :=
  { s with rng := { s.rng with srcs := kset (fun _ => srcReset) s.rng.srcs i x } }
def getInst (s : State) (j : Nat) : Inst := kget (fun _ => instReset) s.rng.inst j
def setInst (s : State) (j : Nat) (x : Inst) : State :=
  { s with rng := { s.rng with inst := kset (fun _ => instReset) s.rng.inst j x } }

def kilnCode : KilnState → Nat
  | .off => 0 | .warming => 1 | .running => 2 | .degraded => 3 | .failed => 4 | .raw => 5

def srcCode : SrcState → Nat
  | .passing => 0 | .excluded => 1 | .quarantined => 2 | .absent => 3

def rngInt (s : State) (b : Nat) : State :=
  let d := { s.rng with intStatus := s.rng.intStatus ||| 2 ^ b }
  vectorFor { s with rng := d } (newBit s.rng.intStatus b) d.intEnable 51

/-- Output is released (R313). -/
def kilnReleasing (s : State) : Bool := s.rng.st == .running || s.rng.st == .degraded

/-- Source i is passing: admitted after its start-up test. -/
def srcPassing (s : State) (i : Nat) : Bool :=
  s.rng.st != .off && (getSrc s i).st == .passing && !(getSrc s i).test
def passingCount (s : State) : Nat := ((List.range 8).filter (srcPassing s)).length
/-- Sources passing or under their start-up test. -/
def hopefulCount (s : State) : Nat := ((List.range 8).filter (fun i => (getSrc s i).st == .passing)).length

/-- Every change of state sets STATE_CHG and writes a record; entry to FAILED sets STOPPED. -/
def kilnGoto (s : State) (st : KilnState) : State :=
  if s.rng.st = st then s
  else
    let s1 := rngInt { s with rng := { s.rng with st := st } } 0
    let s2 := if st = .failed then rngInt s1 2 else s1
    record s2 0x0701 0 sevWarning none
      (payState (kilnCode s.rng.st) (kilnCode st) (if st = .failed then s.rng.cause else 0) 0 0)

/-- Zeroise every instance, the register, the block queue and the windows (R315). -/
def kilnZeroise (s : State) : State := { s with rng := { s.rng with inst := [], reg := 0, n := 0, blocks := [] } }

/-- Start-up tests for every present source that is not quarantined (R304, R317). -/
def testSources (s : State) : State :=
  (List.range 8).foldl (fun s i =>
    let x := getSrc s i
    if x.st = .absent ∨ x.st = .quarantined then s else setSrc s i { x with st := .passing, test := true, testOnly := false }) s

/-- An instance takes no request: it has reached 2^16 ticks or 2^20 requests since its seed (R309). -/
def instStalled (s : State) (j : Nat) : Bool :=
  let x := getInst s j
  x.stalled || (x.seeded && (decide (x.seedTick + 65536 ≤ s.tick) || decide (2 ^ 20 ≤ x.requests)))

/-- Enable the kiln: WARMING (R304, R311). -/
def kilnEnable (s : State) : State :=
  kilnGoto (testSources { kilnZeroise s with rng := { (kilnZeroise s).rng with enabled := s.tick } }) .warming

/-- The bytes of an RNG_READ written so far, in whole 16-byte blocks at 1 GB/s (R315, R316). -/
def portBytesBy (r : PortRead) (t : Nat) : Nat :=
  min r.cmd.desc.outLen ((t - r.since) * 1000000000 / 2 ^ 20 / 16 * 16)

/-- Make one generate request of an instance, at most 65,536 bytes. -/
def drawOnce (s : State) (j n : Nat) : Bytes × State :=
  let x := getInst s j
  let g := drbgGenerate x.key x.v n
  (g.1, setInst s j { x with key := g.2.1, v := g.2.2, requests := min (x.requests + 1) (2 ^ 20) })

/-- Draw `n` bytes in requests of at most 65,536. -/
def drawGo : Nat → State → Nat → Nat → Bytes × State
  | 0, s, _, _ => ([], s)
  | k + 1, s, j, n =>
      if n = 0 then ([], s)
      else
        let r := drawOnce s j (min n 65536)
        let rest := drawGo k r.2 j (n - min n 65536)
        (r.1 ++ rest.1, rest.2)

def kilnDraw (s : State) (j n : Nat) : Bytes × State := drawGo (n / 65536 + 1) s j n

/-- The generation feed (instance GEN). -/
def genDraw (s : State) (n : Nat) : Bytes × State := kilnDraw s 1 n

/-! What the key store draws -/

/-- Rewrite the record of a key after a committed change, under a new nonce (R449). -/
def coldRewrite (s : State) (b : Nat) : State :=
  match kfind s.kst.objs b with
  | none => s
  | some o =>
      if coldHas s o.attr.handle then
        let d := genDraw s 12
        let blob := blobSeal (storageKey s 0x03 o.attr.tenant) d.1 o.attr o.material
        { d.2 with boot := { d.2.boot with
          coldRecs := d.2.boot.coldRecs.map (fun r => if coldHandle r = o.attr.handle then { r with blob := blob } else r) } }
      else s

/-- KEY_METER_SET on one unit (R137). -/
def meterSet (s : State) (i word limit : Nat) : State :=
  let s1 := metersLow (setMeter s i word)
  match meterHolder s i with
  | none => s1
  | some (b, o) => if o.attr.meterKind = 3 then s1 else coldRewrite (setAttr s1 b (fun a => { a with limit := limit })) b

/-- The 32 bytes of a block, most significant first. -/
def blockBytes (b : BitVec 256) : Bytes := beBytes 32 b.toNat

/-- Instantiate instance `j` with three blocks (R308). -/
def instantiateOne (s : State) (j : Nat) : State :=
  let e := (s.rng.blocks.take 2).flatMap blockBytes
  let nonce := ((s.rng.blocks.drop 2).head?.map blockBytes |>.getD []).take 16
  let pers := padTo 64 s.peat.ember ++ leBytes 1 j ++ leBytes 3 s.peat.cycles
  let kv := drbgInstantiate e nonce pers
  let s1 := { s with rng := { s.rng with blocks := s.rng.blocks.drop 3 } }
  setInst s1 j { seeded := true, stalled := false, key := kv.1, v := kv.2, requests := 0, seedTick := s.tick }

/-- Reseed instance `j` from two queued blocks (R308, R309). -/
def reseedOne (s : State) (j : Nat) : State :=
  let x := getInst s j
  if s.rng.blocks.length < 2 ∨ !x.seeded then s
  else
    let kv := drbgReseed x.key x.v ((s.rng.blocks.take 2).flatMap blockBytes)
    let s1 := { s with rng := { s.rng with blocks := s.rng.blocks.drop 2, reseeds := satInc 32 s.rng.reseeds } }
    setInst s1 j { x with stalled := false, key := kv.1, v := kv.2, requests := 0, seedTick := s.tick }

/-- The ember is overwritten with 64 bytes from GEN (R310). -/
def emberWrite (s : State) : State :=
  let r := genDraw s 64
  let s1 := r.2
  { s1 with peat := { s1.peat with ember := r.1 },
            rng := { s1.rng with emberWrites := if s1.rng.emberWrites < 65535 then s1.rng.emberWrites + 1 else 65535,
                                 emberTick := s1.tick } }

/-- The status and detail of R314 while the kiln does not release: what check 9, a wire or a read in progress gets. -/
def kilnStatus (s : State) : Nat × Nat :=
  match s.rng.st with
  | .raw => (stRawMode, 0)
  | .failed => (stRngFailed, s.rng.cause)
  | _ => (stWarming, 0)

/-- A request on a kiln wire stalls: the kiln has not yet released output (R16, R314). -/
def wireStalls (s : State) : Bool := s.rng.st == .off || s.rng.st == .warming

/-- A request to instance `j` waits: no output yet, or the instance is at its limit (R309, R314). -/
def feedHeld (s : State) (j : Nat) : Bool := wireStalls s || (kilnReleasing s && instStalled s j)

/-- The generation feed answers. -/
def genReady (s : State) : Bool := kilnReleasing s && !instStalled s 1

/-- The kiln has stopped: it refuses a wire request, and no fountain is given a seed (R314). -/
def kilnStopped (s : State) : Bool := s.rng.st == .failed || s.rng.st == .raw

/-- Reads of the software port in progress end at once; the bytes already written are valid output (R315). -/
def endPortReads (s : State) : State :=
  let st := kilnStatus s
  s.rng.ports.foldl (fun s r =>
    completeAs 3 { s with rng := { s.rng with portBytes := (s.rng.portBytes + portBytesBy r s.tick) % 2 ^ 64 } }
      r.cmd.fn r.cmd.queue r.cmd.desc.tag st.1 st.2 (portBytesBy r s.tick) 0 []) { s with rng := { s.rng with ports := [] } }

/-- Write the bytes the reads in progress have generated so far, before the instances are zeroised. -/
def flushPortReads (s : State) : State :=
  s.rng.ports.foldl (fun s r =>
    let n := portBytesBy r s.tick
    if n = 0 then s
    else
      let d := kilnDraw s 0 n
      emit d.2 (.data r.cmd.fn r.cmd.queue r.cmd.desc.tag 0 d.1)) s

/-! Check 9 of a critical command, which the keeper world runs where the command's change needs the generation feed -/

/-- The generation feed does not answer: the command waits for it, and fails when the kiln has stopped (R309, R314). -/
def kilnHold (s : State) (c : Cmd) : State :=
  if feedHeld s 1 then { s with aut := { s.aut with busy := some c, kilnWait := some s.tick } }
  else completeCmd s c (kilnStatus s).1 (kilnStatus s).2

/-- The command that waits so ends with a status. -/
def kilnWaitEnd (s : State) (st dt : Nat) : State :=
  match s.aut.busy, s.aut.kilnWait with
  | some c, some _ => completeCmd { s with aut := { s.aut with busy := none, kilnWait := none } } c st dt
  | _, _ => s

/-- The kiln releases: its change runs. -/
def kilnWake (run : Cmd → State → State) (s : State) : State :=
  match s.aut.busy, s.aut.kilnWait with
  | some c, some _ => run c { s with aut := { s.aut with busy := none, kilnWait := none } }
  | _, _ => s

/-- Commands held at check 9 complete at once (R315). -/
def failHeld (s : State) : State :=
  let st := kilnStatus s
  let waiting := s.gth.held.filter (fun h => h.why == .rng)
  kilnWaitEnd (waiting.foldl (fun s h => completeReject s h.cmd st.1 st.2)
    { s with gth := { s.gth with held := s.gth.held.filter (fun h => h.why != .rng) } }) st.1 st.2

/-- An RNG_RESTART that waits commits with the kiln's outcome (R317). -/
def endRestart (s : State) : State :=
  match s.rng.restart with
  | none => s
  | some c =>
      let s1 := { s with rng := { s.rng with restart := none }, aut := { s.aut with busy := none } }
      if kilnReleasing s then completeCmd (critCommitted' s1 c) c 0 0 else completeCmd s1 c stRngFailed s.rng.cause
where
  /-- counted as committed (R369, R458) -/
  critCommitted' (s : State) (c : Cmd) : State := viewAdd (pmcDev s 168 1) c.fn 12 1

/-- The kiln stops (R311, R315). -/
def kilnFail (s : State) (cause : Nat) : State :=
  let s1 := flushPortReads s
  let s2 := kilnGoto (kilnZeroise { s1 with rng := { s1.rng with cause := cause } }) .failed
  endRestart (failHeld (endPortReads s2))

/-- After a change of the sources: fewer than two passing stops the kiln; otherwise RUNNING with all eight, else
DEGRADED (R311). -/
def kilnJudge (s : State) : State :=
  if s.rng.st = .warming then (if hopefulCount s < 2 then kilnFail s 0x01E2 else s)
  else if kilnReleasing s then
    if passingCount s < 2 then kilnFail s 0x01E2
    else kilnGoto s (if passingCount s = 8 then .running else .degraded)
  else s

/-- Exclude a source that failed test `t` (R305). -/
def excludeSrc (s : State) (i t : Nat) : State :=
  let x := getSrc s i
  let s1 := setSrc s i { x with st := .excluded, test := false }
  kilnJudge (record (rngInt s1 1) 0x0702 i sevWarning none (payState 0 1 t 0 0))

/-- Count a failed window by its test. -/
def countFail (s : State) (i t : Nat) : State :=
  let x := getSrc s i
  let s1 := setSrc s i { x with lastFail := t, fails := if x.fails < 65535 then x.fails + 1 else 65535 }
  let r := s1.rng
  { s1 with rng :=
      if t = 1 then { r with rctFail := satInc 32 r.rctFail }
      else if t = 2 then { r with aptFail := satInc 32 r.aptFail }
      else if t = 3 then { r with aliveFail := satInc 32 r.aliveFail }
      else { r with lockFail := satInc 32 r.lockFail } }

/-- Release a window's bits to the register (R306); the queue holds 16 blocks and surplus blocks are dropped. -/
def releaseWindow (s : State) (samples : Bytes) : State :=
  let f := foldGroups samples (List.range 256) (s.rng.reg, s.rng.n, [])
  let q := (s.rng.blocks ++ f.2.2).take 16
  { s with rng := { s.rng with reg := f.1, n := f.2.1, blocks := q, rawBits := (s.rng.rawBits + 1024) % 2 ^ 64,
                               blockCount := satAdd 32 s.rng.blockCount f.2.2.length } }

/-- Samples of a window for the raw reads in progress (R319). -/
def rawGather (s : State) (i : Nat) (samples : Bytes) : State :=
  let bits := (List.range 1024).map (sampleBit samples)
  let f := foldGroups samples (List.range 256) (s.rng.reg, s.rng.n, [])
  let add (r : RawRead) : List Bool :=
    if r.conditioned then foldBits samples (List.range 256) s.rng.reg else if r.source = i then bits else []
  { s with rng := { s.rng with
    reg := f.1, n := f.2.1, blockCount := satAdd 32 s.rng.blockCount f.2.2.length,
    rawReads := s.rng.rawReads.map (fun r => { r with bits := r.bits ++ add r }) } }

/-- A source's window of 1,024 samples ends; `alive` is the fewest edges in a sample period, `beat` the beat cycles
(R303 to R306). -/
def sourceWindow (i : Nat) (samples : Bytes) (alive beat : Nat) (s : State) : State :=
    let x := getSrc s i
    let t := windowTest ((List.range 1024).map (sampleBit samples)) alive beat
    let s1 := setSrc s i { x with runSeen := false, beat := min beat 65535, aliveLow := min alive 255 }
    if x.st = .absent ∨ s.rng.st = .off then s
    else if s.rng.st = .raw then
      if x.st = .quarantined then s
      else
        -- the tests keep running and counting, but no window is judged (R318)
        rawGather (if t = 0 ∨ (t = 1 ∧ x.runSeen) then s1 else countFail s1 i t) i samples
    else if x.st = .quarantined then
      let s2 := if t = 0 then s1 else countFail s1 i t
      if x.test then setSrc s2 i { getSrc s2 i with test := false, testOnly := false } else s
    else if x.st = .excluded then s
    else if s.rng.st = .failed then s
    else if t ≠ 0 then excludeSrc (countFail s1 i t) i t
    else if x.test then kilnJudge (setSrc s1 i { getSrc s1 i with test := false })
    else releaseWindow s1 samples

/-- A run of 41 identical bits excludes the source mid-window (R303); in RAW it counts once in its window. -/
def repetitionFail (i : Nat) (s : State) : State :=
  let x := getSrc s i
  if s.rng.st = .raw then
    (if x.st = .quarantined ∨ x.st = .absent ∨ x.runSeen then s else countFail (setSrc s i { x with runSeen := true }) i 1)
  else if x.st ≠ .passing ∨ s.rng.st = .off ∨ s.rng.st = .failed then s
  else excludeSrc (countFail s i 1) i 1

/-- The LFSR states of the mesh loops, seeded from GEN when the kiln first releases after a power-up (R411). -/
def meshReseed (s : State) : State :=
  if s.peat.meshSeeded then s
  else
    let r := genDraw s 16
    { r.2 with peat := { r.2.peat with
      meshSeed := (List.range 4).map (fun l => leAt r.1 (4 * l) 4 % 2 ^ 31), meshSeeded := true } }

/-- With 15 blocks queued and start-up tests ended, the five instances run their known-answer test, instantiate, and the
kiln releases output (R308, R310 to R312). -/
def instantiateAll (resume : State → State) (kat : Bool) (s : State) : State :=
  if s.rng.st ≠ .warming then s
  else if !kat then kilnFail s 0x01E4
  else if s.rng.blocks.length < 15 ∨ passingCount s < 2 then s
  else
    let s1 := (List.range 5).foldl instantiateOne s
    let zero := s.peat.ember.all (fun b => b == 0)
    let s2 := { s1 with rng := { s1.rng with emberZero := zero, warmTime := min (s.tick - s.rng.enabled) 65535 } }
    let s3 := meshReseed (emberWrite (kilnGoto s2 (if passingCount s = 8 then .running else .degraded)))
    resume (endRestart s3)

/-- Ticks and requests left before an instance's limit, the nearer first: an instance's urgency (R309). -/
def reseedDueNow (s : State) (j : Nat) : Bool :=
  let x := getInst s j
  x.seeded && (decide (x.seedTick + 65472 ≤ s.tick) || decide (2 ^ 20 - 4096 ≤ x.requests))

/-- Is another seeded instance nearer its limit of 2^16 ticks? -/
def nearerExists (s : State) (j : Nat) : Bool :=
  (List.range 5).any (fun k => (getInst s k).seeded && reseedDueNow s k && decide ((getInst s k).seedTick < (getInst s j).seedTick))

/-- Queued blocks go to the instance whose limit is nearest; what waits for it goes on. -/
def reseedDue (resume : State → State) (j : Nat) (s : State) : State :=
  if kilnReleasing s && reseedDueNow s j && !nearerExists s j then
    (let t := reseedOne s j
     if j = 1 && genReady t then resume t else t)
  else s

/-- RESEED_LIMIT: an instance that reaches a limit takes no further request until reseeded. -/
def execReseedLimit (inst : Fin 5) (s : State) : Host.Outcome State Fault Refusal :=
  answer s (
    let x := getInst s inst.val
    if kilnReleasing s && x.seeded && !x.stalled && (decide (x.seedTick + 65536 ≤ s.tick) || decide (2 ^ 20 ≤ x.requests)) then
      let s1 := setInst s inst.val { x with stalled := true }
      record (rngInt { s1 with rng := { s1.rng with stalls := satInc 32 s1.rng.stalls } } 3) 0x0703 inst.val sevWarning none
        (payState 0 0 0 0 0)
    else s)

/-- Every 2^26 ticks the ember is overwritten from GEN. -/
def execEmberRefresh (s : State) : Host.Outcome State Fault Refusal :=
  answer s (if genReady s ∧ s.rng.emberTick + 2 ^ 26 ≤ s.tick then emberWrite s else s)

/-- RNG_READ_DONE: the read at the head of the port has generated all its bytes (R316); with PREDICTION_RESIST the
instance reseeds first. -/
def execRngReadDone (s : State) : Host.Outcome State Fault Refusal :=
  answer s (match s.rng.ports with
    | [] => s
    | r :: rest =>
        let fresh := r.cmd.desc.select.testBit 0
        let s0 := if fresh then reseedOne s 0 else s
        if fresh && decide (s.rng.blocks.length < 2) then s
        else if !(kilnReleasing s && !instStalled s0 0 && decide (r.cmd.desc.outLen * 2 ^ 20 ≤ (s.tick - r.since) * 1000000000)) then s
        else
          let d := kilnDraw s0 0 r.cmd.desc.outLen
          let next := match rest with
            | [] => []
            | q :: t => { q with since := s.tick } :: t
          let s1 := { d.2 with rng := { d.2.rng with
            ports := next, portBytes := (d.2.rng.portBytes + r.cmd.desc.outLen) % 2 ^ 64 } }
          completeOut s1 r.cmd d.1)

/-- Bits into bytes: sample k is bit k mod 8 of byte k div 8. -/
def packBits (l : List Bool) : Bytes :=
  (List.range (l.length / 8)).map (fun i =>
    BitVec.ofNat 8 ((List.range 8).foldl (fun v b => v + (if l.getD (8 * i + b) false then 2 ^ b else 0)) 0))

/-- A raw read has gathered its samples. -/
def rawFull (r : RawRead) : Bool := decide (8 * r.cmd.desc.outLen ≤ r.bits.length)

/-- RAW_READ_DONE: the raw reads that have gathered their samples complete (R319). -/
def execRawReadDone (s : State) : Host.Outcome State Fault Refusal :=
  answer s ((s.rng.rawReads.filter rawFull).foldl
    (fun s r => completeOut s r.cmd (packBits (r.bits.take (8 * r.cmd.desc.outLen))))
    { s with rng := { s.rng with rawReads := s.rng.rawReads.filter (fun r => !rawFull r) } })

/-- Raw reads in progress when raw mode ends complete as a read outside it; the spec names no status for them (DESIGN CHOICE, log
145). -/
def endRawReads (s : State) : State :=
  s.rng.rawReads.foldl (fun s r => completeCmd s r.cmd stDenied 0x01E0) { s with rng := { s.rng with rawReads := [] } }

/-! Commands -/

/-- RNG_READ past acceptance (R314, R316). -/
def doRngRead (c : Cmd) (s : State) : State :=
  if kilnReleasing s then
    { s with rng := { s.rng with ports := s.rng.ports ++ [{ cmd := c, since := s.tick }] } }
  else completeReject s c (kilnStatus s).1 (kilnStatus s).2

/-- RNG_RAW_READ (R319). -/
def doRngRawRead (c : Cmd) (s : State) : State :=
  if s.rng.st ≠ .raw then completeCmd s c stDenied 0x01E0
  else
    let src := c.desc.select % 8
    let cond := c.desc.select.testBit 3
    { s with rng := { s.rng with
        rawSource := src, rawCond := cond,
        rawReads := s.rng.rawReads ++ [{ cmd := c, source := src, conditioned := cond, bits := [] }] } }

/-- RNG_RESTART at its check 6 (R317). -/
def performRngRestart (c : Cmd) (s : State) : State :=
  if s.rng.st ≠ .failed then completeCmd s c stDenied 0x01E1
  else kilnJudge (kilnEnable { s with rng := { s.rng with restart := some c }, aut := { s.aut with busy := some c } })

/-- RNG_RAW_ENABLE (R318). -/
def performRngRawEnable (c : Cmd) (s : State) : State :=
  let on := leAt c.input 0 1
  if 1 < on then completeCmd s c stParam 0
  else if leAt c.input 1 3 ≠ 0 then completeCmd s c stParam dReserved
  else if on = 1 then
    if s.rng.st = .raw ∨ !(kilnReleasing s || s.rng.st == .failed) then completeCmd s c stDenied 0x01E3
    else
      let s1 := kilnGoto (kilnZeroise (flushPortReads s)) .raw
      completeCmd (viewAdd (pmcDev (failHeld (endPortReads s1)) 168 1) c.fn 12 1) c 0 0
  else if s.rng.st ≠ .raw then completeCmd s c stDenied 0x01E3
  else completeCmd (viewAdd (pmcDev (kilnJudge (kilnEnable (endRawReads s))) 168 1) c.fn 12 1) c 0 0

/-! Repair of a source (R305) -/

/-- Quarantine would leave too few sources (R305). -/
def srcQuarantineLow (s : State) (i : Nat) : Bool :=
  (s.rng.st == .warming || kilnReleasing s)
    && decide (hopefulCount s - (if (getSrc s i).st = .passing then 1 else 0) < 2)

def srcQuarantine (s : State) (i : Nat) : State :=
  let s1 := setSrc s i { getSrc s i with st := .quarantined, test := false }
  kilnJudge (record (rngInt s1 1) 0x0702 i sevWarning none (payState 0 2 0 0 0))

/-- A source returned to service takes a new start-up test; with TEST_ONLY it stays quarantined (R305, R475). -/
def srcReturn (s : State) (i : Nat) (testOnly : Bool) : State :=
  if testOnly then setSrc s i { getSrc s i with test := true, testOnly := true }
  else setSrc s i { getSrc s i with st := .passing, test := true }

/-- What a full reset does to the kiln: OFF, counters and FAILS cleared, excluded sources to be tested again, quarantined
sources kept (R311, R320, R322). -/
def rngFullReset (r : Rng) : Rng :=
  { rngReset with
    srcs := kfilter (fun _ x => decide (x ≠ srcReset)) (kmap (fun _ x =>
      if x.st = .quarantined ∨ x.st = .absent then { srcReset with st := x.st, lastFail := x.lastFail }
      else { srcReset with lastFail := x.lastFail }) r.srcs) }

end Sys2Proof.Machine
end

