-- ==== Sys2Proof/Machine/Meas.lean ====
section
/-! DEFINITION. The measurement registers (09_cipher_digest_payment.md R265, R266). -/

namespace Sys2Proof.Machine

def getMeas (s : State) (i : Nat) : Meas := kget (fun _ => measReset) s.dgs.meas i

/-- MEAS[i] := SHA-384(MEAS[i] ‖ e); the count saturates (R265). -/
def measExtend (s : State) (i : Nat) (e : Bytes) : State :=
  let m := getMeas s i
  let m' : Meas := { value := sha384 (m.value ++ e), count := satInc 32 m.count }
  { s with dgs := { s.dgs with meas := kset (fun _ => measReset) s.dgs.meas i m' } }

/-- Extend with the SHA-384 of what was committed. -/
def measOf (s : State) (i : Nat) (b : Bytes) : State := measExtend s i (sha384 b)

/-- The 16-byte record of MEAS[6]: state, debug rights, grid time. -/
def measState (s : State) (time : Nat) : State :=
  measOf s 6 (leBytes 1 s.lcs.state ++ leBytes 7 s.dbg.rights ++ leBytes 8 time)

/-- One register as DIGEST_MEAS_READ returns it: value, then count (R266). -/
def measBytes (s : State) (i : Nat) : Bytes := (getMeas s i).value ++ leBytes 4 (getMeas s i).count

/-- DIGEST_MEAS_EXTEND, the PF's registers 16 to 31 (R266). -/
def doMeasExtend (c : Cmd) (s : State) : State :=
  let i := c.desc.select % 65536
  if i < 16 ∨ 31 < i then completeCmd s c 0x0101 0x01AB
  else completeCmd (measExtend s i c.input) c 0 0

/-- DIGEST_MEAS_READ: one register or all (R266). -/
def doMeasRead (c : Cmd) (s : State) : State :=
  let i := c.desc.select % 65536
  if i < 32 then completeOut s c (measBytes s i)
  else if i = 0x00FF then completeOut s c ((List.range 32).flatMap (measBytes s))
  else completeCmd s c 0x0101 0x002A

end Sys2Proof.Machine
end

