-- ==== Sys2Proof/Machine/Authority.lean ====
section
/-! DEFINITION. Command authority: the authority block and its checks, channels and counters, custodians, quorum,
tokens, the operator port (04_command_authority.md R94 to R115; 16 R425; 15 R417). What a command does at its commit is
the argument `perform` of these operations. -/

namespace Sys2Proof.Machine

/-! The authority block (R96) -/

structure AuthBlock where
  version : Nat
  kind : Nat
  index : Nat
  mode : Nat
  tokens : Nat
  unit : Nat
  counter : Nat
  tokenAddr : Nat
  tag : Bytes
  reservedZero : Bool
deriving DecidableEq, Repr

def authParse (b : Bytes) : AuthBlock :=
  { version := leAt b 0 1, kind := leAt b 1 1, index := leAt b 2 2, mode := leAt b 4 1, tokens := leAt b 5 1,
    unit := leAt b 6 1, counter := leAt b 8 8, tokenAddr := leAt b 16 8, tag := padTo 16 (b.drop 32),
    reservedZero := leAt b 7 1 == 0 && leAt b 24 8 == 0 && leAt b 48 16 == 0 }

/-- The index of a channel: 0 the PF, n VF n, 1,024 + c custodian c (R94). -/
def channelIx (a : AuthBlock) : Nat := if a.kind = 0 then 0 else if a.kind = 1 then a.index else 1024 + a.index

def chanKeyOf (s : State) (ch : Nat) : Option Bytes := kfind s.aut.chanKey ch
def chanCounter (s : State) (ch : Nat) : Nat := kget (fun _ => 0) s.peat.chan ch

def setCounter (s : State) (ch v : Nat) : State :=
  { s with peat := { s.peat with chan := kset (fun _ => 0) s.peat.chan ch v, chanWr := satInc 32 s.peat.chanWr } }

/-- Install a new authority key: the channel's counter becomes 0 (R94). -/
def installKey (s : State) (ch : Nat) (key : Bytes) : State :=
  setCounter { s with aut := { s.aut with chanKey := kins s.aut.chanKey ch key } } ch 0

def eraseKey (s : State) (ch : Nat) : State := { s with aut := { s.aut with chanKey := kdel s.aut.chanKey ch } }

/-- A command that a console started carries 1,024 and its channel's index, or 1,088 where it names no CUSTODIAN channel. -/
def isConsole (fn : Nat) : Bool := decide (1024 ≤ fn ∧ fn < 2048)

/-- The channels a source may use (R95). -/
def channelPermitted (fn : Nat) (a : AuthBlock) : Bool :=
  if isVf fn then a.kind == 1 && a.index == fn
  else if fn = 0 then (a.kind == 0 && a.index == 0) || (a.kind == 2 && decide (a.index < 64))
  else a.kind == 2 && a.index + 1024 == fn

/-- The 64 bytes of a descriptor (R73). -/
def descBytes (d : Desc) : Bytes :=
  leBytes 2 d.opcode ++ leBytes 1 d.flags ++ leBytes 1 d.cls ++ leBytes 4 d.tag ++ leBytes 4 d.keyA ++ leBytes 4 d.keyB
    ++ leBytes 4 d.select ++ leBytes 4 d.inLen ++ leBytes 8 d.inAddr ++ leBytes 4 d.outLen ++ leBytes 8 d.outAddr
    ++ leBytes 4 d.auxLen ++ leBytes 8 d.auxAddr ++ leBytes 8 d.authAddr

/-- The message m of R97: descriptor, payload digest, counter, unit. -/
def authMessage (c : Cmd) (a : AuthBlock) : Bytes :=
  descBytes c.desc ++ sha3_256 (c.input ++ c.aux) ++ leBytes 8 a.counter ++ leBytes 1 a.unit

/-- R97 takes the first 16 bytes of a 32-byte KMAC256. -/
def authTagOf (key m : Bytes) : Bytes := (kmac256 key m (ascii "SX256Q AUTH") 32).take 16

/-! Forms of authority (R425, R417) -/

inductive AuthForm where
  | normal | factory | presence
deriving DecidableEq, Repr

def commissioning (s : State) : Bool := s.aut.custodians == []

/-- The form that applies to a command in the present state. -/
def authForm (s : State) (op : Nat) : AuthForm :=
  let early := s.lcs.state == 0 || s.lcs.state == 1 || s.lcs.state == 5
  if op = 0xA014 then .presence
  else if op = 0xA010 ∨ op = 0xA011 ∨ op = 0xA012 then
    if early then .factory else if commissioning s then .presence else .normal
  else if op = 0xA013 ∧ early then .factory
  else .normal

/-- The block of the factory form, and of the presence form with MODE CONSOLE. -/
def emptyBlock (a : AuthBlock) (mode : Nat) : Bool :=
  a.version == 1 && a.kind == 0 && a.index == 0 && a.mode == mode && a.tokens == 0 && a.unit == 0xFF && a.counter == 0
    && a.tag == List.replicate 16 0 && a.tokenAddr == 0

/-- Check 1 of R98, with the forms of R425 and the rule of R114 on key components. -/
def authCheck1 (s : State) (c : Cmd) (a : AuthBlock) : Res Unit :=
  let bad := a.version != 1 || decide (2 < a.kind) || decide (1 < a.mode) || decide (8 < a.tokens)
    || a.tokenAddr % 16 != 0 || (a.tokens == 0) != (a.tokenAddr == 0)
  let life := c.desc.opcode == 0xA010 || c.desc.opcode == 0xA011 || c.desc.opcode == 0xA012 || c.desc.opcode == 0xA013
  if bad then reject stParam 0x0105
  else if c.desc.opcode = 0x1015 ∧ (a.mode ≠ 1 ∨ a.tokens ≠ 0) then reject stParam 0x0105
  else match authForm s c.desc.opcode with
    | .factory =>
        if !emptyBlock a 0 then reject stParam 0x0105 else failIf (!a.reservedZero) stParam dReserved
    | .presence =>
        if !emptyBlock a 1 then reject stParam 0x0105 else failIf (!a.reservedZero) stParam dReserved
    | .normal =>
        if life ∧ (emptyBlock a 0 ∨ emptyBlock a 1) then reject stParam 0x0105
        else failIf (!a.reservedZero) stParam dReserved

/-- Checks 2 and 3. -/
def authCheck23 (s : State) (c : Cmd) (a : AuthBlock) : Res Unit :=
  if !channelPermitted c.fn a then reject stAuth 0x0101
  else match chanKeyOf s (channelIx a) with
    | none => reject stAuth 0x0101
    | some key =>
        if a.unit ≠ unitByte s then reject stAuth 0x0102
        else failIf (authTagOf key (authMessage c a) != a.tag) stAuth 0x0100

/-- Check 4. -/
def authCheck4 (s : State) (a : AuthBlock) : Res Unit :=
  let last := chanCounter s (channelIx a)
  if a.counter ≤ last then reject stReplay 0x0103
  else failIf (decide (last + 65536 < a.counter)) stReplay 0x0104

/-! Tokens (R106, R107) -/

def tokenSize : Nat := 3472
def tokenAt (c : Cmd) (i : Nat) : Bytes := (c.tokens.drop (tokenSize * i)).take tokenSize
def zeroAt (b : Bytes) (off n : Nat) : Bool := leAt b off n == 0

def tokenForm (t : Bytes) : Bool :=
  t.length == tokenSize && leAt t 0 1 == 1 && leAt t 2 1 == 1 && zeroAt t 3 5 && zeroAt t 56 8 && zeroAt t 3469 3
    && decide (leAt t 8 8 ≤ leAt t 16 8)

/-- The two signatures over a statement of 64 bytes, by a custodian's enrolled keys. -/
def approvalSigned (k : Custodian) (stmt sigEc sigMl : Bytes) : Bool :=
  pairSigned k.sigEc k.sigMl stmt "SX256Q APPROVE" sigEc sigMl

/-- Does a well-formed token count at tick `S` (R107)? -/
def tokenCounts (s : State) (t digest : Bytes) (start : Nat) : Bool :=
  match kfind s.aut.custodians (leAt t 1 1) with
  | none => false
  | some k =>
      approvalSigned k (t.take 64) ((t.drop 64).take 96) ((t.drop 160).take 3309) && (t.drop 24).take 32 == digest
        && decide (leAt t 8 8 ≤ start ∧ start ≤ leAt t 16 8)
        && decide (leAt t 16 8 - leAt t 8 8 ≤ s.aut.policy.tokenSpan * 2 ^ 20) && !untraceable s

/-! Quorum (R100, R103, R104, R105) -/

def roleKeys : Nat := 0
def rolePolicy : Nat := 1
def roleTenants : Nat := 2
def roleCode : Nat := 3
def rolePark : Nat := 4
def roleTamper : Nat := 5
def roleLife : Nat := 6
def roleRecord : Nat := 7
/-- The dash of R103's table: the opcode names no role. Where policy raises such a figure, which approvals count is not
stated; the model counts those of every device-scoped custodian, toward no role (log 139). -/
def roleNone : Nat := 8

/-- The key a handle names is PARK_WIDE. -/
def namesParkWide (s : State) (h : Nat) : Bool :=
  match findObj s h with
  | some (_, o) => attrFlag o.attr flParkWide
  | none => false

/-- Schedule entries a command names that are PARK_WIDE: those it adds, or those its SEQ values name. -/
def schedParkWide (s : State) (c : Cmd) : Bool :=
  if c.desc.opcode = 0x7011 then (List.range (c.input.length / 32)).any (fun i => (leAt c.input (32 * i + 13) 1).testBit 0)
  else (List.range (c.input.length / 4)).any (fun i =>
    s.sdl.sched.any (fun e => e.seq == leAt c.input (4 * i) 4 && e.parkWide))

/-- The approvals an opcode needs by R103, and the role that counts. -/
def quorumTable (s : State) (c : Cmd) : Nat × Nat :=
  let op := c.desc.opcode
  if op = 0x0010 ∨ op = 0x0011 then (2, roleCode)
  else if op = 0x0012 ∨ op = 0x0013 ∨ op = 0x0014 ∨ op = 0x0015 ∨ op = 0xA012 then (0, roleNone)
  else if op = 0x0016 ∨ op = 0x0017 ∨ op = 0x0018 ∨ op = 0x7010 ∨ op = 0x6011 then (2, rolePolicy)
  else if op = 0x6010 then (1, rolePolicy)
  else if op = 0x1010 then
    let f := leAt c.input 4 2
    (if f.testBit flParkWide || f.testBit flExportable then 2 else 0, roleKeys)
  else if op = 0x1013 then (if namesParkWide s c.desc.keyA then 2 else 0, roleKeys)
  else if op = 0x1011 ∨ op = 0x1012 ∨ op = 0x1014 ∨ op = 0x1016 then (2, roleKeys)
  else if op = 0x1015 then (c.desc.select % 16, roleKeys)
  else if op = 0x7011 ∨ op = 0x7012 then (if schedParkWide s c then 2 else 0, roleKeys)
  else if 0x8010 ≤ op ∧ op ≤ 0x8014 then (2, rolePark)
  else if op = 0x9014 then (1, roleTenants)
  else if 0x9010 ≤ op ∧ op ≤ 0x9016 then (2, roleTenants)
  else if op = 0xA010 ∨ op = 0xA011 then (2, roleLife)
  else if op = 0xA013 then (2, roleTamper)
  else if op = 0xB010 then (2, roleRecord)
  else (0, roleNone)

/-- Policy may raise the figure (R105). -/
def required (s : State) (c : Cmd) : Nat :=
  let base := (quorumTable s c).1
  match s.aut.policy.entries.find? (fun e => e.1 == c.desc.opcode) with
  | some e => max base e.2
  | none => base

/-- An approval of a custodian counts now for a command (R100, R104): enrolled, the role, the scope, NOT_AFTER. -/
def approvalCounts (s : State) (c : Cmd) (ix : Nat) : Bool :=
  match kfind s.aut.custodians ix with
  | none => false
  | some k =>
      let role := (quorumTable s c).2
      (role == roleNone || k.roles.testBit role) && (k.notAfter == 0 || decide (now s ≤ k.notAfter))
        && (!k.isScoped || (role == roleKeys && k.scope == tenantOf s c.fn))

def addOnce (l : List Nat) (x : Nat) : List Nat := if l.contains x then l else l ++ [x]

/-- Step 1 of R112: the tokens that count and the channel's custodian. The second part is how many tokens do not count. -/
def countTokens (s : State) (c : Cmd) (digest : Bytes) (start : Nat) : Nat → Nat → List Nat × Nat → List Nat × Nat
  | 0, _, acc => acc
  | n + 1, i, acc =>
      let t := tokenAt c i
      let acc' := if tokenCounts s t digest start && approvalCounts s c (leAt t 1 1)
        then (addOnce acc.1 (leAt t 1 1), acc.2) else (acc.1, acc.2 + 1)
      countTokens s c digest start n (i + 1) acc'

def channelApproval (s : State) (c : Cmd) (a : AuthBlock) (l : List Nat) : List Nat :=
  if a.kind = 2 ∧ approvalCounts s c a.index then addOnce l a.index else l

/-! Failures (R98) -/

/-- The AUTHORITY record of a failure, its source the channel. -/
def authRecord (s : State) (c : Cmd) (a : AuthBlock) (ev status detail : Nat) : State :=
  record s (0x0300 + ev) (a.kind * 0x1000 + a.index) sevWarning
    (if a.kind = 1 then some (tenantOf s c.fn) else none) (cmdRecordPayload c status detail)

def authFail (s : State) (c : Cmd) (a : AuthBlock) (check : Nat) (e : Nat × Nat) : State :=
  let ev := if check ≤ 3 then 1 else if check = 4 then 2 else if check = 5 then 4 else 3
  let s1 := if 2 ≤ check ∧ check ≤ 4 then
      { s with aut := { s.aut with authReject := satInc 32 s.aut.authReject } } else s
  completeCmd (authRecord s1 c a ev e.1 e.2) c e.1 e.2

/-! The wait at the console (R112) -/

def getCard (s : State) (slot : Nat) : Card := if slot = 0 then s.aut.card0 else s.aut.card1
def setCard (s : State) (slot : Nat) (k : Card) : State :=
  if slot = 0 then { s with aut := { s.aut with card0 := k } } else { s with aut := { s.aut with card1 := k } }
def cardPort (slot : Nat) : PortId := if slot = 0 then .card0 else .card1
def cardStep (s : State) (slot : Nat) (st : CardStep) : State := setCard s slot { getCard s slot with step := st }
def apdu (s : State) (slot : Nat) (b : Bytes) : State := emit s (.port (cardPort slot) b)

/-- A card that is detected and supplied. -/
def cardReady (k : Card) : Bool := k.present && k.vccEn

/-- A card in the middle of its steps. -/
def cardActive (k : Card) : Bool :=
  cardReady k && (k.step != .none && k.step != .done && k.step != .ignored && k.step != .enrolReady)

/-- Handle the next card in the order of detection: ask it to identify itself (R111, R112). -/
def nextCard (s : State) : State :=
  let c0 := s.aut.card0
  let c1 := s.aut.card1
  if s.aut.wait.isNone ∨ cardActive c0 ∨ cardActive c1 then s
  else
    let w0 := cardReady c0 && c0.step == .none
    let w1 := cardReady c1 && c1.step == .none
    if w0 && (!w1 || decide (c0.order ≤ c1.order)) then apdu (cardStep s 0 .identify) 0 [0x80, 0xA0]
    else if w1 then apdu (cardStep s 1 .identify) 1 [0x80, 0xA0]
    else s

/-- Names of the critical opcodes (R88, R103), as the console shows them. -/
def critNames : List (Nat × String) :=
  [(0x0010, "ADMIN_FW_UPDATE"), (0x0011, "ADMIN_FW_ACTIVATE"), (0x0012, "ADMIN_RESET"),
   (0x0013, "ADMIN_PROGRAM_LOAD"), (0x0014, "ADMIN_PROGRAM_REMOVE"), (0x0015, "ADMIN_APPLET_LOAD"),
   (0x0016, "ADMIN_CUSTODIAN_ENROL"), (0x0017, "ADMIN_CUSTODIAN_REVOKE"), (0x0018, "ADMIN_POLICY_SET"),
   (0x1010, "KEY_GENERATE"), (0x1011, "KEY_IMPORT"), (0x1012, "KEY_EXPORT"), (0x1013, "KEY_DELETE"),
   (0x1014, "KEY_ATTR_SET"), (0x1015, "KEY_COMPONENT"), (0x1016, "KEY_METER_SET"), (0x6010, "RNG_RESTART"),
   (0x6011, "RNG_RAW_ENABLE"), (0x7010, "TIME_POLICY"), (0x7011, "TIME_SCHEDULE_ADD"),
   (0x7012, "TIME_SCHEDULE_CANCEL"), (0x8010, "PARK_JOIN"), (0x8011, "PARK_LEAVE"), (0x8012, "PARK_EVICT"),
   (0x8013, "PARK_RESYNC"), (0x8014, "PARK_KEY_AGREE"), (0x9010, "TENANT_CREATE"), (0x9011, "TENANT_DELETE"),
   (0x9012, "TENANT_BIND_VF"), (0x9013, "TENANT_UNBIND_VF"), (0x9014, "TENANT_QUOTA_SET"),
   (0x9015, "TENANT_VF_SAVE"), (0x9016, "TENANT_VF_RESTORE"), (0xA010, "LIFE_TRANSITION"),
   (0xA011, "LIFE_DEBUG_OPEN"), (0xA012, "LIFE_DEBUG_CLOSE"), (0xA013, "LIFE_TAMPER_SET"),
   (0xA014, "LIFE_RECOMMISSION"), (0xB010, "EVENT_CLEAR")]

/-- A number as `n` upper-case hexadecimal digits. -/
def hexText (n v : Nat) : Bytes :=
  (List.range n).map (fun i =>
    let d := v / 16 ^ (n - 1 - i) % 16
    BitVec.ofNat 8 (if d < 10 then 0x30 + d else 0x37 + d))

/-- The lines the console shows during a wait: opcode, tenant, key handles and the first 3 bytes of d (R112). Their wording
is the model's choice (log 139). -/
def showText (s : State) (c : Cmd) (digest : Bytes) : Bytes :=
  let name := ((critNames.find? (fun e => e.1 == c.desc.opcode)).map (fun e => ascii e.2)).getD (hexText 4 c.desc.opcode)
  name ++ [0x0A] ++ ascii "tenant " ++ hexText 3 (tenantOf s c.fn) ++ [0x0A]
    ++ ascii "keys " ++ hexText 8 c.desc.keyA ++ ascii " " ++ hexText 8 c.desc.keyB ++ [0x0A]
    ++ ascii "d " ++ hexText 6 (beNat (digest.take 3)) ++ [0x0A]

def showWait (s : State) (c : Cmd) (digest : Bytes) : State := conSend s 0x01 (showText s c digest)

/-- Leave the wait: cards idle, components scrubbed. -/
def clearWait (s : State) : State :=
  let s1 := cardStep (cardStep s 0 .none) 1 .none
  { s1 with aut := { s1.aut with wait := none, card0 := { s1.aut.card0 with comp := [] },
                                 card1 := { s1.aut.card1 with comp := [] } } }

/-- The wait ends without a quorum: QUORUM_MISSING with required and counted (R98, R103). -/
def endWait (s : State) : State :=
  match s.aut.wait with
  | none => s
  | some w =>
      let n := if w.presence then w.present.length else w.counted.length
      authFail (clearWait s) w.cmd (authParse w.cmd.auth) 6 (stQuorum, w.required * 256 + min n 255)

/-- What the wait holds of a command once it commits: the components of a KEY_COMPONENT are appended to the command's
auxiliary bytes for its change. -/
def withComponents (w : Wait) : Cmd :=
  if w.cmd.desc.opcode = 0x1015 then { w.cmd with aux := w.comps.flatten } else w.cmd

def custodianParse (b : Bytes) : Custodian :=
  { roles := leAt b 1 1, isScoped := (leAt b 2 2).testBit 15, scope := leAt b 2 2 % 4096, notAfter := leAt b 8 8,
    name := (b.drop 16).take 32, sigEc := (b.drop 48).take 97, sigMl := (b.drop 145).take 1952,
    kemPk := (b.drop 2097).take 1184 }

/-- The form of a custodian record: index, reserved fields, a scope of zero unless scoped. The status of an INDEX of 64 or more
is not stated; PARAM_INVALID with detail 0 is the model's choice (log 139). -/
def custodianForm (b : Bytes) : Res Unit :=
  if b.length ≠ 3296 ∨ 64 ≤ leAt b 0 1 then reject stParam 0
  else if leAt b 2 2 / 4096 % 8 ≠ 0 ∨ leAt b 4 4 ≠ 0 ∨ leAt b 3281 15 ≠ 0 then reject stParam dReserved
  else failIf (!(leAt b 2 2).testBit 15 && leAt b 2 2 != 0) stParam dReserved

/-- The record's own checks, made when the quorum is reached, before anything is installed on a card (R101). -/
def enrolCheck (s : State) (c : Cmd) : Res Unit := do
  custodianForm c.input
  failIf (kfind s.aut.custodians (leAt c.input 0 1)).isSome stDenied 0x0108

/-- INSTALL: a new channel key of the generation feed, to the card's encapsulation key. The spec gives no form for the wrapped
key; the model's is the exclusive or with the shared secret (log 139). -/
def cardInstall (s : State) (slot : Nat) (kemPk : Bytes) : Bytes × State :=
  let d := genDraw s 32
  let kem := kemSeal (d.2.freeCtr + 1) 0x0202 kemPk
  (d.1, apdu (cardStep (bumpCtr d.2) slot .install) slot ([0x80, 0xA1] ++ kem.1 ++ xorBytes d.1 kem.2))

/-- The quorum of an enrolment is reached (R101): the record is checked, the new card is awaited, and its channel key is
installed, or none for a tenant-scoped custodian. -/
def tryEnrol (perform : Cmd → State → State) (s : State) (w : Wait) : State :=
  match enrolCheck s w.cmd with
  | .error e => completeCmd (clearWait s) w.cmd e.1 e.2
  | .ok _ =>
    let s1 := { s with aut := { s.aut with wait := some { w with quorate := true } } }
    match w.enrolSlot with
    | none => nextCard s1
    | some slot =>
        if (leAt w.cmd.input 2 2).testBit 15 then perform w.cmd (clearWait s1)
        else if feedHeld s1 1 then s1
        else if !kilnReleasing s1 then completeCmd (clearWait s1) w.cmd (kilnStatus s1).1 (kilnStatus s1).2
        else
          let r := cardInstall s1 slot (custodianParse w.cmd.input).kemPk
          { r.2 with aut := { r.2.aut with wait := some { w with quorate := true, comps := [r.1] } } }

/-- The quorum is reached: the change runs; an enrolment first installs the new custodian's card (R101). -/
def tryFinish (perform : Cmd → State → State) (s : State) : State :=
  match s.aut.wait with
  | none => s
  | some w =>
      let n := if w.presence then w.present.length else w.counted.length
      if n < w.required then nextCard s
      else if w.cmd.desc.opcode = 0x0016 then tryEnrol perform s w
      else perform (withComponents w) (clearWait s)

/-- The kiln releases: an enrolment that waits for its channel key goes on (R16). -/
def enrolWake (perform : Cmd → State → State) (s : State) : State :=
  match s.aut.wait with
  | some w => match w.enrolSlot with
    | some slot => if w.quorate && (getCard s slot).step == .enrolReady then tryEnrol perform s w else s
    | none => s
  | none => s

/-- Begin the wait: cards already in a slot count as inserted at that moment (R112). -/
def beginWait (perform : Cmd → State → State) (s : State) (c : Cmd) (digest : Bytes) (req : Nat) (counted : List Nat)
    (presence : Bool) : State :=
  let w : Wait :=
    { cmd := c, digest := digest, start := now s, finish := now s + s.aut.policy.consoleWait * 2 ^ 20, required := req,
      role := (quorumTable s c).2, counted := counted, presence := presence, present := [], comps := [], refusals := 0,
      conSeen := s.aut.consoleUp, quorate := false, enrolSlot := none }
  let s1 := { s with aut := { s.aut with wait := some w } }
  tryFinish perform (showWait (cardStep (cardStep s1 0 .none) 1 .none) c digest)

/-- Key length of the algorithms a component may name (R114). -/
def componentLen (alg : Nat) : Nat :=
  if alg = 0x0101 ∨ alg = 0x0111 then 16 else if alg = 0x0102 ∨ alg = 0x0112 then 24 else if alg = 0x0103 then 32 else 0

/-- Components that a KEY_COMPONENT asks for. -/
def componentCount (c : Cmd) : Nat := c.desc.select % 16

/-- Check 6 for the block's form (R103, R112, R425). A KEY_COMPONENT whose block names none of the five algorithms asks for no
component; its status is the model's choice (R114, log 139). -/
def authCheck6 (perform : Cmd → State → State) (s0 : State) (c : Cmd) (a : AuthBlock) : State :=
  let s := { s0 with aut := { s0.aut with check6 := now s0 } }
  let m := authMessage c a
  let digest := sha3_256 m
  match authForm s c.desc.opcode with
  | .factory => perform c s
  | .presence => beginWait perform s c digest 2 [] true
  | .normal =>
      let start := now s
      let r := countTokens s c digest start a.tokens 0 ([], 0)
      let s1 := { s with aut := { s.aut with tokenReject := satAdd 32 s.aut.tokenReject r.2 } }
      let counted := channelApproval s1 c a r.1
      let req := required s1 c
      if c.desc.opcode = 0x0016 then beginWait perform s1 c digest req counted false
      else if c.desc.opcode = 0x1015 then
        if componentLen (leAt c.input 2 2) = 0 then completeCmd s1 c stParam 0
        else beginWait perform s1 c digest req [] false
      else if req ≤ counted.length then perform c s1
      else if a.mode = 1 then beginWait perform s1 c digest req counted false
      else authFail s1 c a 6 (stQuorum, req * 256 + min counted.length 255)

/-- The checks of R98 on one critical command, then its change. Check 4 passed, the counter is stored before any token
is read (R24, R98). LIFE_RECOMMISSION of a part that is not QUENCHED fails before its wait (R417). -/
def authRun (perform : Cmd → State → State) (s : State) (c : Cmd) : State :=
  let a := authParse c.auth
  if c.fn = fnKeeper then perform c s
  else match authCheck1 s c a with
  | .error e => authFail s c a 1 e
  | .ok _ =>
    if isConsole c.fn && a.kind != 2 then authFail s c a 3 (stAuth, 0x0101)
    else match authForm s c.desc.opcode with
    | .normal =>
        match authCheck23 s c a with
        | .error e => authFail s c a 3 e
        | .ok _ =>
          match authCheck4 s a with
          | .error e => authFail s c a 4 e
          | .ok _ =>
              let s1 := setCounter s (channelIx a) a.counter
              if (List.range a.tokens).any (fun i => !tokenForm (tokenAt c i)) then authFail s1 c a 5 (stParam, 0x0106)
              else authCheck6 perform s1 c a
    | _ =>
        if c.desc.opcode = 0xA014 ∧ !(s.peat.latch.isSome && decide (2 ≤ s.lcs.state ∧ s.lcs.state ≤ 4)) then
          completeCmd s c stDenied 0x0265
        else authCheck6 perform s c a

/-- A critical command in the keeper mailbox. -/
def critAppend (s : State) (c : Cmd) : State :=
  let s1 := pmcDev { s with aut := { s.aut with mailbox := s.aut.mailbox ++ [c] } } 167 1
  if critPending s1 = 256 then gthInt s1 4 else s1

/-! Console-started commands get their tag (R113) -/

/-- Ask the next card, from a slot on, whether it is the channel's; with none left the channel's card is not inserted. The
status of that is not stated: AUTH_FAIL, AUTH_CHANNEL with no AUTHORITY record is the model's choice (log 139). -/
def startAsk (s : State) (c : Cmd) (slot : Nat) : State :=
  match ((List.range 2).filter (fun k => decide (slot ≤ k))).find? (fun k => cardReady (getCard s k)) with
  | none => completeReject { s with aut := { s.aut with startCmd := none } } c stAuth 0x0101
  | some k => apdu (cardStep { s with aut := { s.aut with startCmd := some (c, k) } } k .startIdent) k [0x80, 0xA0]

/-- Take the next console-started command: its card is looked for, or it goes on without a tag to fail its checks. -/
def startBegin (s : State) : State :=
  match s.aut.starts with
  | [] => s
  | c :: r =>
      let s1 := { s with aut := { s.aut with starts := r } }
      if c.fn = 1088 then { s1 with aut := { s1.aut with startReady := some c } } else startAsk s1 c 0

/-- A command with its tag goes to the mailbox once there is room (R26). -/
def startPlace (s : State) : State :=
  match s.aut.startReady with
  | none => s
  | some c => if critFull s then s else critAppend { s with aut := { s.aut with startReady := none } } { c with entered := now s }

/-- The keeper world has a command, a tag or a ceremony in hand, or a life-cycle transition runs, or waits for its reset (R430). -/
def keeperHeld (s : State) : Bool :=
  s.lcs.step.isSome || s.aut.wait.isSome || s.aut.busy.isSome || s.aut.startCmd.isSome || s.aut.ceremony.isSome

/-- The keeper world takes the critical commands of its mailbox one at a time, in order (R26): while it holds none, the next
one runs; a console-started command first gets its tag. -/
def keeperRun (perform : Cmd → State → State) : Nat → State → State
  | 0, s => s
  | n + 1, s0 =>
      let s := startPlace s0
      if keeperHeld s then s
      else if s.aut.starts ≠ [] ∧ s.aut.startReady = none then keeperRun perform n (startBegin s)
      else match s.aut.mailbox with
        | [] => s
        | c :: r => keeperRun perform n (authRun perform { s with aut := { s.aut with mailbox := r } } c)

/-- Let the keeper world go on. -/
def keeperGo (perform : Cmd → State → State) (s : State) : State :=
  keeperRun perform (2 * (s.aut.mailbox.length + s.aut.starts.length) + 3) s

/-- Copy a critical command into the keeper mailbox and ring the doorbell (R18's step 2 of the critical path, R26). -/
def critEnqueue (perform : Cmd → State → State) (s : State) (c : Cmd) : State := keeperGo perform (critAppend s c)

/-- A critical command has committed: counted (R369, R458). -/
def critCommitted (s : State) (c : Cmd) : State := viewAdd (pmcDev s 168 1) c.fn 12 1

/-! Custodians (R99 to R101) -/

/-- The highest approval count that R103 and the policy require of a role. -/
def roleNeed (s : State) (role : Nat) : Nat :=
  let base := if role = roleKeys ∨ role = rolePolicy ∨ role = roleTenants ∨ role = roleCode ∨ role = rolePark
    ∨ role = roleTamper ∨ role = roleLife ∨ role = roleRecord then 2 else 0
  s.aut.policy.entries.foldl (fun n e =>
    let c : Cmd := { fn := 0, queue := 0,
                     desc := { opcode := e.1, flags := 0, cls := 0, tag := 0, keyA := 0, keyB := 0, select := 0, inLen := 0,
                               inAddr := 0, outLen := 0, outAddr := 0, auxLen := 0, auxAddr := 0, authAddr := 0 },
                     inSgl := [], outSgl := [], input := [], aux := [], auth := [], tokens := [], dma := .good }
    if (quorumTable s c).2 = role then max n e.2 else n) base

/-- Device-scoped custodians that hold a role. -/
def roleHolders (m : KMap Custodian) (role : Nat) : Nat :=
  (m.filter (fun p => !p.2.isScoped && p.2.roles.testBit role)).length

/-- The table as `m` leaves every role with the custodians it needs. -/
def rolesCovered (s : State) (m : KMap Custodian) : Bool :=
  (List.range 8).all (fun r => decide (roleNeed s r ≤ roleHolders m r))

/-- A custodian or policy record carries no tenant (R463). -/
def authNotice (s : State) (c : Cmd) (ev : Nat) (tenant : Option Nat) : State :=
  record s (0x0300 + ev) ((authParse c.auth).kind * 0x1000 + (authParse c.auth).index) sevNotice tenant
    (cmdRecordPayload c 0 0)

/-- ADMIN_CUSTODIAN_ENROL at its commit, the card having acknowledged the install. -/
def enrolCommit (s : State) (c : Cmd) (key : Option Bytes) : State :=
  let ix := leAt c.input 0 1
  let s1 := { s with aut := { s.aut with custodians := kins s.aut.custodians ix (custodianParse c.input) } }
  let s2 := match key with
    | some k => installKey s1 (1024 + ix) k
    | none => s1
  completeCmd (authNotice (critCommitted (measOf s2 5 c.input) c) c 6 none) c 0 0

/-- A scoped custodian's enrolment, which installs no key. -/
def performEnrol (c : Cmd) (s : State) : State :=
  match enrolCheck s c with
  | .error e => completeCmd s c e.1 e.2
  | .ok _ => enrolCommit s c none

/-- ADMIN_CUSTODIAN_REVOKE (R101). -/
def performRevoke (c : Cmd) (s : State) : State :=
  let ix := c.desc.select % 65536
  if 64 ≤ ix then completeCmd s c stParam dParamSet
  else if (kfind s.aut.custodians ix).isNone then completeCmd s c stDenied 0x0109
  else if !rolesCovered s (kdel s.aut.custodians ix) then completeCmd s c stDenied 0x0107
  else
    let s1 := eraseKey { s with aut := { s.aut with custodians := kdel s.aut.custodians ix } } (1024 + ix)
    completeCmd (authNotice (critCommitted s1 c) c 6 none) c 0 0

/-- ADMIN_POLICY_SET, parameter set 0x0001 (R105). `known`: the opcode is listed in R88. Where R103's figure depends on the
command, an entry is held against its least: 0 for KEY_GENERATE, KEY_DELETE and the schedule commands, 2 for KEY_COMPONENT
(log 139). -/
def policyParse (known : Nat → Bool) (s : State) (b : Bytes) : Res Policy :=
  let k := leAt b 8 2
  if b.length < 16 ∨ b.length ≠ 16 + 4 * k ∨ 64 < k then reject stParam 0
  else
    let wait := leAt b 0 4
    let span := leAt b 4 4
    let es := (List.range k).map (fun i => (leAt b (16 + 4 * i) 2, leAt b (18 + 4 * i) 1))
    let figure (op : Nat) : Nat :=
      let c : Cmd := { fn := 0, queue := 0,
                       desc := { opcode := op, flags := 0, cls := 0, tag := 0, keyA := 0, keyB := 0, select := 2, inLen := 0,
                                 inAddr := 0, outLen := 0, outAddr := 0, auxLen := 0, auxAddr := 0, authAddr := 0 },
                       inSgl := [], outSgl := [], input := [], aux := [], auth := [], tokens := [], dma := .good }
      (quorumTable s c).1
    let okE := es.all (fun e => known e.1 && e.1.testBit 4 && e.1 != 0xA014 && decide (figure e.1 ≤ e.2 ∧ e.2 ≤ 8))
    let reservedZero := leAt b 10 6 == 0 && (List.range k).all (fun i => leAt b (19 + 4 * i) 1 == 0)
    let distinct := (es.map (fun e => e.1)).eraseDups.length == k
    if !reservedZero then reject stParam dReserved
    else if 1 ≤ wait ∧ wait ≤ 600 ∧ 1 ≤ span ∧ span ≤ 604800 ∧ okE ∧ distinct then
      .ok { consoleWait := wait, tokenSpan := span, entries := es }
    else reject stParam 0

/-- ADMIN_POLICY_SET: the authority policy (R105), and IDE_REQUIRED (R63). -/
def performPolicy (known : Nat → Bool) (c : Cmd) (s : State) : State :=
  match policyParse known s c.input with
  | .error e => completeCmd s c e.1 e.2
  | .ok p =>
      let s1 := ideChosen (measOf { s with aut := { s.aut with policy := p } } 5 c.input)
      completeCmd (authNotice (critCommitted s1 c) c 7 none) c 0 0

/-! Console frames (R109, R110) -/

def conTypes : List Nat := [0x81, 0x82, 0x83, 0x84, 0x85, 0x87]

/-- Type, sequence number and payload of a well-formed frame. -/
def conParse (f : Bytes) : Option (Nat × Nat × Bytes) :=
  let n := leAt f 2 2
  if leAt f 0 1 ≠ 0x3C ∨ 1024 < n ∨ f.length ≠ 10 + n ∨ !conTypes.contains (leAt f 1 1)
      ∨ crc32c (f.take (6 + n)) ≠ leAt f (6 + n) 4 then none
  else some (leAt f 1 1, leAt f 4 2, (f.drop 6).take n)

def conDiscard (s : State) : State := { s with aut := { s.aut with conDiscard := satInc 32 s.aut.conDiscard } }

/-- A valid frame makes the console present, and is acknowledged unless it is an ACK (R109, R112). -/
def conSeen (s : State) (type seq : Nat) : State :=
  let w := s.aut.wait.map (fun w => { w with conSeen := true })
  let s1 := { s with aut := { s.aut with consoleUp := true, wait := w } }
  if type = 0x87 then s1 else conSend s1 0x07 (leBytes 2 seq)

/-- Receive a frame whose row expects `type`: discarded when malformed. A well-formed frame of another type is no command of
that row: that it is discarded and counted too is the model's choice (log 139). -/
def conReceive (s : State) (f : Bytes) (type : Nat) (k : State → Bytes → State) : State :=
  if !live s then s
  else match conParse f with
  | none => conDiscard s
  | some (t, seq, p) => if t = type then k (conSeen s t seq) p else conDiscard s

def slotOf (p : Bytes) : Nat := leAt p 0 1

/-- An ASCII digit. -/
def isDigit (b : Byte) : Bool := decide (0x30 ≤ b.toNat ∧ b.toNat ≤ 0x39)

/-- PIN: 4 to 12 digits, to the card in VERIFY and nowhere else (R108, R110). -/
def execPin (frame : Bytes) (s : State) : Host.Outcome State Fault Refusal :=
  answer s (conReceive s frame 0x81 (fun s p =>
    if slotOf p < 2 ∧ (getCard s (slotOf p)).step = .pin ∧ 5 ≤ p.length ∧ p.length ≤ 13 ∧ (p.drop 1).all isDigit then
      apdu (cardStep s (slotOf p) .verify) (slotOf p) ([0x00, 0x20] ++ p.drop 1)
    else s))

def askPin (s : State) (slot : Nat) : State := conSend (cardStep s slot .pin) 0x02 (leBytes 1 slot)

/-- The statement a card signs: a token's bytes 0 to 63 from S to the end of the wait (R106, R112). -/
def statement (w : Wait) (ix : Nat) : Bytes :=
  [0x01] ++ leBytes 1 ix ++ [0x01] ++ List.replicate 5 0 ++ leBytes 8 w.start ++ leBytes 8 w.finish ++ w.digest
    ++ List.replicate 8 0

/-- The value of a hexadecimal digit. -/
def hexDigit (b : Byte) : Option Nat :=
  let n := b.toNat
  if 0x30 ≤ n ∧ n ≤ 0x39 then some (n - 0x30) else if 0x41 ≤ n ∧ n ≤ 0x46 then some (n - 0x37)
  else if 0x61 ≤ n ∧ n ≤ 0x66 then some (n - 0x57) else none

def hexBytes : Bytes → Option Bytes
  | [] => some []
  | a :: b :: r => match hexDigit a, hexDigit b, hexBytes r with
    | some x, some y, some t => some (BitVec.ofNat 8 (16 * x + y) :: t)
    | _, _, _ => none
  | [_] => none

/-- Components combined into a key (R114): their exclusive or, with odd parity for TDEA; none when it is zero. -/
def combine (alg : Nat) (comps : List Bytes) : Option Bytes :=
  let x := comps.foldl xorBytes (List.replicate (componentLen alg) 0)
  if x.all (fun b => b == 0) then none else some (if isTdea alg then oddParity x else x)

def askComponent (s : State) (slot number alg : Nat) : State :=
  conSend (cardStep s slot .component) 0x04 (leBytes 1 slot ++ leBytes 1 number ++ leBytes 1 (2 * componentLen alg))

/-- SHOW_KCV: a component's number, or 0 for the combined key, and its check value (R110). -/
def showKcv (s : State) (number alg : Nat) (key : Bytes) : State :=
  conSend s 0x05 (leBytes 1 number ++ leBytes 3 (kcvOf alg key))

/-- A component of the key's length that is not zero (R114). -/
def goodComponent (alg : Nat) (p : Bytes) : Option Bytes :=
  match hexBytes p with
  | some b => if b.length = componentLen alg ∧ b.any (fun x => x != 0) then some b else none
  | none => none

/-! The commissioning ceremony (R102): its stages in order, slot 0 before slot 1 -/

/-- The ceremony ends: the cards are idle, components are scrubbed, nothing is kept of it. -/
def cerEnd (s : State) : State :=
  let s1 := cardStep (cardStep s 0 .none) 1 .none
  { s1 with aut := { s1.aut with ceremony := none, card0 := { s1.aut.card0 with comp := [] },
                                 card1 := { s1.aut.card1 with comp := [] } } }

/-- Begin the step of the stage and slot in hand. -/
def cerAsk (s : State) (c : Ceremony) : State :=
  let s1 := { s with aut := { s.aut with ceremony := some c } }
  if c.stage = 1 then askPin s1 c.slot
  else if c.stage = 2 then apdu (cardStep s1 c.slot .identify) c.slot [0x80, 0xA0]
  else askComponent s1 c.slot (c.slot + 1) c.alg

/-- A custodian of the ceremony is enrolled with its record and its channel key: measured and recorded (R99, R265). -/
def cerEnrol (s : State) (rec key : Bytes) : State :=
  let ix := leAt rec 0 1
  let s1 := installKey { s with aut := { s.aut with custodians := kins s.aut.custodians ix (custodianParse rec) } } (1024 + ix) key
  record (measOf s1 5 rec) 0x0306 (0x2000 + ix) sevNotice none (payCommand 0x0016 0 0 0 0 0 0 (now s % 2 ^ 32))

/-- The last component is confirmed: both custodians and the PF channel key are kept. A zero key ends it with nothing kept. -/
def cerCommit (s : State) (c : Ceremony) : State :=
  match combine c.alg c.comps with
  | none => cerEnd s
  | some key =>
      let s1 := cerEnd (showKcv s 0 c.alg key)
      let s2 := (List.zip c.recs c.keys).foldl (fun s e => cerEnrol s e.1 e.2) s1
      installKey s2 0 key

/-- The step in hand is done. -/
def cerNext (s : State) (c : Ceremony) : State :=
  if c.slot = 0 then cerAsk s { c with slot := 1 }
  else if c.stage < 3 then cerAsk s { c with stage := c.stage + 1, slot := 0 }
  else cerCommit s c

/-- IDENTIFY answered: the card must be the record's; its channel key is installed. -/
def cerIdentified (s : State) (c : Ceremony) (data : Bytes) : State :=
  let rec' := c.recs.getD c.slot []
  if leAt data 0 1 ≠ leAt rec' 0 1 ∨ (data.drop 1).take 97 ≠ (rec'.drop 48).take 97 ∨ genReady s = false then cerEnd s
  else
    let r := cardInstall s c.slot (custodianParse rec').kemPk
    { r.2 with aut := { r.2.aut with ceremony := some { c with keys := c.keys ++ [r.1] } } }

/-- A card of the ceremony answers. -/
def cerCard (s : State) (c : Ceremony) (slot : Nat) (good : Bool) (data : Bytes) : State :=
  if slot ≠ c.slot then s
  else match (getCard s slot).step with
    | .verify => if good then cerNext (setCard s slot { getCard s slot with pinOk := true, step := .none }) c else askPin s slot
    | .identify => if good then cerIdentified s c data else cerEnd s
    | .install => if good then cerNext (cardStep s slot .none) c else cerEnd s
    | _ => s

/-- A component typed in the ceremony: shown by its check value and to be confirmed, or asked for again, three times. -/
def cerComponent (s : State) (c : Ceremony) (p : Bytes) : State :=
  if slotOf p ≠ c.slot ∨ (getCard s c.slot).step ≠ .component then s
  else match goodComponent c.alg (p.drop 1) with
    | some b =>
        let s1 := setCard s c.slot { getCard s c.slot with step := .confirm, comp := b }
        conSend (showKcv s1 (c.slot + 1) c.alg b) 0x03 (leBytes 1 c.slot ++ [0, 0, 0])
    | none => if 3 ≤ c.refusals + 1 then cerEnd s else cerAsk s { c with refusals := c.refusals + 1 }

/-- Its confirmation: no asks for the component again. -/
def cerConfirm (s : State) (c : Ceremony) (p : Bytes) : State :=
  if slotOf p ≠ c.slot ∨ (getCard s c.slot).step ≠ .confirm then s
  else if leAt p 1 1 = 1 then
    cerNext (setCard s c.slot { getCard s c.slot with step := .none, comp := [] })
      { c with comps := c.comps ++ [(getCard s c.slot).comp] }
  else cerAsk (setCard s c.slot { getCard s c.slot with comp := [] }) c

/-- The record of a custodian who enrols in the ceremony: the index, all roles, no scope, and the rest of the record (R99,
R102). -/
def ceremonyRecord (ix : Nat) (rest : Bytes) : Bytes :=
  leBytes 1 ix ++ [0xFF] ++ List.replicate 6 0 ++ rest ++ List.replicate 15 0

/-- COMMISSIONING_CEREMONY: begun with both cards in their slots; each custodian brings an index and the bytes of a record
from its NOT_AFTER to its KEM_PK, and the command names the algorithm of the PF channel key. Where the records come from, what confirms a component,
and that the keeper world serves no other command meanwhile, is the model's choice (log 139). -/
def execCommissioningCeremony (ixA : Fin 64) (restA : Bytes) (ixB : Fin 64) (restB : Bytes) (alg : Fin 65536) (s : State) :
    Host.Outcome State Fault Refusal :=
  answerLive s (
    if !(commissioning s && s.ldg.keeperUp && cardReady s.aut.card0 && cardReady s.aut.card1) || keeperHeld s || feedHeld s 1
        || restA.length != 3273 || restB.length != 3273 || ixA == ixB || componentLen alg.val == 0 then s
    else cerAsk s { recs := [ceremonyRecord ixA.val restA, ceremonyRecord ixB.val restB], alg := alg.val, stage := 1, slot := 0,
                    keys := [], comps := [], refusals := 0 })

/-! Components and confirmations at the console -/

/-- COMPONENT: a component of the key's length that is not zero is shown by its check value; any other is refused and
asked for again, and three refusals end the wait (R114). -/
def takeComponent (perform : Cmd → State → State) (s : State) (p : Bytes) : State :=
  let slot := slotOf p
  match s.aut.ceremony, s.aut.wait with
  | some c, _ => cerComponent s c p
  | none, none => s
  | none, some w =>
      if !(decide (slot < 2) && (getCard s slot).step == .component) then s
      else
        let alg := leAt w.cmd.input 2 2
        match goodComponent alg (p.drop 1) with
        | some b =>
            let s1 := setCard s slot { getCard s slot with step := .confirm, comp := b }
            conSend (showKcv s1 (w.comps.length + 1) alg b) 0x03 (leBytes 1 slot ++ w.digest.take 3)
        | none =>
            if 3 ≤ w.refusals + 1 then keeperGo perform (endWait s)
            else askComponent { s with aut := { s.aut with wait := some { w with refusals := w.refusals + 1 } } } slot
              (w.comps.length + 1) alg

/-- CONFIRM: yes has the card sign; no gives no approval. -/
def execConfirm (frame : Bytes) (s : State) : Host.Outcome State Fault Refusal :=
  answer s (conReceive s frame 0x82 (fun s p =>
    let slot := slotOf p
    match s.aut.ceremony, s.aut.wait with
    | some c, _ => cerConfirm s c p
    | none, some w =>
        if slot < 2 ∧ (getCard s slot).step = .confirm then
          if leAt p 1 1 = 1 then
            apdu (cardStep s slot .approve) slot
              ([0x80, 0xA2] ++ statement w (((getCard s slot).ident.map (fun i => i.1)).getD 0))
          else nextCard (setCard s slot { getCard s slot with step := .done, comp := [] })
        else s
    | none, none => s))

/-- CANCEL ends the wait, or the ceremony, at once. -/
def takeCancel (perform : Cmd → State → State) (s : State) : State :=
  if s.aut.ceremony.isSome then keeperGo perform (cerEnd s)
  else if s.aut.wait.isSome then keeperGo perform (endWait s) else s

/-- ACK: the frame it echoes is no longer resent. -/
def execConsoleAck (frame : Bytes) (s : State) : Host.Outcome State Fault Refusal :=
  answer s (conReceive s frame 0x87 (fun s p =>
    { s with aut := { s.aut with conOut := s.aut.conOut.filter (fun f => f.seq != leAt p 0 2) } }))

/-- A frame that breaks off, or that is malformed, is discarded and counted (R109). -/
def execConsoleDiscard (bytes : Bytes) (gap : Bool) (s : State) : Host.Outcome State Fault Refusal :=
  answerLive s (if gap || (conParse bytes).isNone then conDiscard s else s)

/-- Resend what is due: three times, then the console counts as absent, and a wait it was present in ends (R109, R112). -/
def resendDue (perform : Cmd → State → State) (s : State) : State :=
  let due := s.aut.conOut.filter (fun f => decide (f.due ≤ s.tick))
  if due = [] then s
  else if due.any (fun f => decide (3 ≤ f.resent)) then
    let s0 := if s.aut.ceremony.isSome then cerEnd s else s
    let s1 := { s0 with aut := { s0.aut with
      consoleUp := false, conOut := s.aut.conOut.filter (fun f => !(decide (f.due ≤ s.tick) && decide (3 ≤ f.resent))) } }
    match s1.aut.wait with
    | some w => if w.conSeen then keeperGo perform (endWait s1) else s1
    | none => s1
  else
    let again := s.aut.conOut.map (fun f =>
      if f.due ≤ s.tick then { f with resent := f.resent + 1, due := s.tick + 104858 } else f)
    emitAll { s with aut := { s.aut with conOut := again } } (due.map (fun f => Output.port .console f.bytes))

/-- The window of the wait has ended (R112). -/
def windowEnd (perform : Cmd → State → State) (s : State) : State :=
  match s.aut.wait with
  | some w => if w.finish ≤ now s then keeperGo perform (endWait s) else s
  | none => s

/-! Cards (R111, R112) -/

/-- A card that is not counted: ignored and recorded (CARD_IGNORED). -/
def cardIgnore (s : State) (slot ix : Nat) : State :=
  match s.aut.wait with
  | some w => nextCard (record (cardStep s slot .ignored) 0x0305 (0x2000 + ix) sevWarning none (cmdRecordPayload w.cmd 0 0))
  | none => s

/-- IDENTIFY answered: index and SIG_PK_EC. -/
def cardIdentified (perform : Cmd → State → State) (s : State) (slot : Nat) (w : Wait) (data : Bytes) : State :=
  let ix := leAt data 0 1
  let pk := (data.drop 1).take 97
  let s1 := setCard s slot { getCard s slot with ident := some (ix, pk) }
  if w.presence then
    if w.present.contains pk then cardIgnore s1 slot ix else askPin s1 slot
  else if w.cmd.desc.opcode = 0x0016 ∧ ix = leAt w.cmd.input 0 1 ∧ pk = (w.cmd.input.drop 48).take 97 then
    tryFinish perform { cardStep s1 slot .enrolReady with
      aut := { (cardStep s1 slot .enrolReady).aut with wait := some { w with enrolSlot := some slot } } }
  else match kfind s1.aut.custodians ix with
    | none => if w.quorate then keeperGo perform (endWait s1) else cardIgnore s1 slot ix
    | some k =>
        if k.sigEc ≠ pk then (if w.quorate then keeperGo perform (endWait s1) else cardIgnore s1 slot ix)
        else if w.counted.contains ix then
          -- a card already used is refused at the console
          nextCard (conSend (cardStep s1 slot .done) 0x01 (ascii "CARD USED" ++ [0x0A]))
        else if w.cmd.desc.opcode = 0x1015 ∧ !approvalCounts s1 w.cmd ix then cardIgnore s1 slot ix
        else askPin s1 slot

/-- VERIFY answered: on success the console is asked for a component, while some are missing, or a confirmation; else for the
PIN again. -/
def cardVerified (s : State) (slot : Nat) (w : Wait) (good : Bool) : State :=
  if !good then askPin s slot
  else
    let s1 := setCard s slot { getCard s slot with pinOk := true }
    if w.cmd.desc.opcode = 0x1015 ∧ w.comps.length < componentCount w.cmd then
      askComponent s1 slot (w.comps.length + 1) (leAt w.cmd.input 2 2)
    else conSend (cardStep s1 slot .confirm) 0x03 (leBytes 1 slot ++ w.digest.take 3)

/-- APPROVE answered: the approval counts at once if it is a valid statement of a custodian whose approval counts (R104,
R112); in the presence form the confirmation of the card counts. The spec counts in AUT_TOKEN_REJECT the tokens that do not
count; that a card's answer that does not verify or count is counted there too is the model's choice (log 139). -/
def cardApproved (perform : Cmd → State → State) (s : State) (slot : Nat) (w : Wait) (data : Bytes) : State :=
  match (getCard s slot).ident with
  | none => s
  | some (ix, pk) =>
      let s1 := cardStep s slot .done
      if w.presence then
        tryFinish perform { s1 with aut := { s1.aut with wait := some { w with present := w.present ++ [pk] } } }
      else
        let signed := match kfind s.aut.custodians ix with
          | some k => approvalSigned k (statement w ix) (data.take 96) ((data.drop 96).take 3309)
          | none => false
        if signed && approvalCounts s1 w.cmd ix then
          let comps := if (getCard s slot).comp = [] then w.comps else w.comps ++ [(getCard s slot).comp]
          let s2 := setCard s1 slot { getCard s1 slot with comp := [] }
          tryFinish perform { s2 with aut := { s2.aut with
            wait := some { w with counted := addOnce w.counted ix, comps := comps } } }
        else nextCard { s1 with aut := { s1.aut with tokenReject := satInc 32 s1.aut.tokenReject } }

/-- INSTALL acknowledged: the enrolment commits (R101). -/
def cardInstalled (perform : Cmd → State → State) (s : State) (w : Wait) (good : Bool) : State :=
  if !good then keeperGo perform (endWait s)
  else keeperGo perform (enrolCommit (clearWait s) w.cmd (w.comps.head?))

/-- IDENTIFY answered for a console-started command: the channel's own card is asked for the tag over the message with the
next counter of the channel; else the next card is asked (R113). -/
def startIdentified (s : State) (slot : Nat) (data : Bytes) : State :=
  match s.aut.startCmd with
  | none => s
  | some (c, _) =>
      let ix := c.fn - 1024
      let own := match kfind s.aut.custodians ix with
        | some k => leAt data 0 1 == ix && (data.drop 1).take 97 == k.sigEc
        | none => false
      if own then
        let n := chanCounter s (1024 + ix) + 1
        let blk := c.auth.take 8 ++ leBytes 8 n ++ ((c.auth.drop 16).take 16) ++ List.replicate 16 0 ++ c.auth.drop 48
        let c1 := { c with auth := blk }
        apdu (cardStep { s with aut := { s.aut with startCmd := some (c1, slot) } } slot .tag) slot
          ([0x80, 0xA3] ++ authMessage c1 (authParse blk))
      else startAsk (cardStep s slot .none) c (slot + 1)

/-- TAG answered for a console-started command: the block is complete and the command goes to the keeper mailbox (R113). -/
def startTagged (s : State) (slot : Nat) (data : Bytes) : State :=
  match s.aut.startCmd with
  | none => s
  | some (c, _) =>
      let s1 := cardStep { s with aut := { s.aut with startCmd := none } } slot .none
      { s1 with aut := { s1.aut with startReady := some { c with auth := c.auth.take 32 ++ padTo 16 data ++ c.auth.drop 48 } } }

/-- The card does not answer for a console-started command, or is gone. -/
def startLost (s : State) (slot : Nat) : State :=
  match s.aut.startCmd with
  | none => s
  | some (c, _) =>
      if (getCard s slot).step = .tag then
        completeReject (cardStep { s with aut := { s.aut with startCmd := none } } slot .none) c stAuth 0x0101
      else startAsk (cardStep s slot .none) c (slot + 1)

/-- A card answers the command it was sent; `good` that its status words report success. -/
def cardAnswer (perform : Cmd → State → State) (s : State) (slot : Nat) (good : Bool) (data : Bytes) : State :=
  let k := getCard s slot
  if !cardReady k then s
  else if k.step = .startIdent then keeperGo perform (if good then startIdentified s slot data else startLost s slot)
  else if k.step = .tag then keeperGo perform (if good then startTagged s slot data else startLost s slot)
  else match s.aut.ceremony, s.aut.wait with
    | some c, _ => cerCard s c slot good data
    | none, none => s
    | none, some w =>
        match k.step with
        | .identify => if good then cardIdentified perform s slot w data else cardIgnore s slot 0
        | .verify => cardVerified s slot w good
        | .approve => if good then cardApproved perform s slot w data else nextCard (cardStep s slot .done)
        | .install => cardInstalled perform s w good
        | _ => s

/-- The card interface of a slot: CARDc_VCC_EN, and CARDc_VSEL high for class B while the card is supplied (R489). -/
def cardPins (s : State) (slot : Nat) : State :=
  let k := getCard s slot
  emit s (.cardPins slot k.vccEn (k.vccEn && k.cls == .b))

/-- Supply a card at a class, or not. -/
def cardPower (s : State) (slot : Nat) (on : Bool) (cls : CardClass) : State :=
  cardPins (setCard s slot { getCard s slot with vccEn := on, cls := cls }) slot

/-- A card is detected: class C is tried, then class B (R108). A card that answers joins the order of detection; one that
offers no T=1 is deactivated and recorded. -/
def execCardInsert (slot : Fin 2) (atr : CardAtr) (s : State) : Host.Outcome State Fault Refusal :=
  let n := s.aut.cardOrder
  let s0 := setCard s slot.val { cardReset with present := true, order := n }
  let s1 := cardPower s0 slot.val true .c
  let s2 := if atr.cls = .c then s1 else cardPower (cardPower s1 slot.val false .c) slot.val true .b
  answerLive s (if atr.t1 ∧ atr.cls ≠ .neither then nextCard { s2 with aut := { s2.aut with cardOrder := n + 1 } }
    else
      record (cardStep (cardPower s2 slot.val false .c) slot.val .ignored) 0x0305 0x2000 sevWarning none
        (payCommand 0 0 0 0 0 0 0 0))

/-- A card is removed: an unconfirmed approval is not given; counted ones stay (R112). A tag it was asked for is lost, and a
ceremony is abandoned (R102). -/
def cardRemove (slot : Nat) (s : State) : State :=
  let st := (getCard s slot).step
  let s0 := if s.aut.ceremony.isSome then cerEnd s else s
  let s1 := if st = .tag ∨ st = .startIdent then startLost s0 slot else s0
  let w := s1.aut.wait.map (fun w => if w.enrolSlot = some slot then { w with enrolSlot := none } else w)
  nextCard (cardPins (setCard { s1 with aut := { s1.aut with wait := w } } slot cardReset) slot)

/-! Commands that a console starts (R113) -/

def descParse (b : Bytes) : Desc :=
  { opcode := leAt b 0 2, flags := leAt b 2 1, cls := leAt b 3 1, tag := leAt b 4 4, keyA := leAt b 8 4, keyB := leAt b 12 4,
    select := leAt b 16 4, inLen := leAt b 20 4, inAddr := leAt b 24 8, outLen := leAt b 32 4, outAddr := leAt b 36 8,
    auxLen := leAt b 44 4, auxAddr := leAt b 48 8, authAddr := leAt b 56 8 }

/-- The command that START segments give, once they hold a descriptor and an authority block. -/
def startCommand (buf : Bytes) : Cmd :=
  let d := descParse buf
  let a := authParse ((buf.drop 64).take 64)
  { fn := if a.kind = 2 ∧ a.index < 64 then 1024 + a.index else 1088, queue := 0, desc := d, inSgl := [], outSgl := [],
    input := (buf.drop 128).take d.inLen, aux := [], auth := (buf.drop 64).take 64, tokens := [], dma := .good }

/-- Take one START segment (R113). `checked` is the acceptance of a descriptor from the PF (checks 1 and 2 of R18), `none`
when it passes. The status of a command over 65,536 bytes (LENGTH_INVALID) and of an address that is not zero (PARAM_INVALID,
0x0028) is not stated and is the model's choice (log 139). -/
def takeStart (checked : Cmd → State → Option (Nat × Nat)) (s : State) (p : Bytes) : State :=
  let buf := s.aut.startBuf ++ p
  let c := startCommand buf
  let d := c.desc
  let s1 := { s with aut := { s.aut with startBuf := [] } }
  if buf.length < 128 then { s with aut := { s.aut with startBuf := buf } }
  else if 65536 < 128 + d.inLen ∨ 65536 < buf.length then completeReject s1 c stLength 0
  else if buf.length < 128 + d.inLen then { s with aut := { s.aut with startBuf := buf } }
  else if d.inAddr ≠ 0 ∨ d.outAddr ≠ 0 ∨ d.auxAddr ≠ 0 ∨ d.authAddr ≠ 0 then completeReject s1 c stParam 0x0028
  else match checked c s1 with
    | some e => completeReject s1 c e.1 e.2
    | none => { s1 with aut := { s1.aut with starts := s1.aut.starts ++ [c] } }

end Sys2Proof.Machine
end

