-- ==== Sys2Proof/Machine/IsaWord.lean ====
section
/-! DEFINITION. The Isagil encodings: which instruction a 32-bit word names (07_isagil_instructions.md R185 to R187
and the Enc columns of R193 to R219) and the fields of the seven formats. -/

namespace Sys2Proof.Machine

/-- The instructions of Isagil, one name for each row of the opcode table. -/
inductive IsaOp where
  | nop | halt | haltSt | haltPr | sadd | ssub
  | sand | sor | sxor | sshl | sshr | smul
  | seq | slt | sltu | smov | saddi | sli
  | slui | brZ | brNz | brLtz | brGez | brPany
  | brPnone | jmp | loopI | loopS | loopIShf | loopSShf
  | call | ret | jov | aset | aadd | asetLi
  | amovS | qsetS | qsetR | pand | por | pxor
  | pnot | pmovS | smovP | pset | vaddM | vsubM
  | vnegM | vmulM | vmacM | vmulsM | vredM | vchkQ
  | vcmpEq | vcmpLt | vsel | vbflyCt | vbflyGs | vbflyGf
  | vbmulM | vperm | vzipLo | vzipHi | vuzpEv | vuzpOd
  | vrev | vbcastL | vbcastS | vsampRej | vsampEtaLo | vsampEtaHi
  | vsampCbd | vsampCbt | vsampUnfLo | vsampUnfHi | vsampNext | vcomp
  | vdcmp | vpack | vunpack | vgmulF | vgsqF | vginvF
  | vand | vor | vxor | vnot | vshlL | vshrL
  | vshlR | vshrR | vrotR | vclmulLo | vclmulHi | vp2r
  | vdecompN | vdecompW | vhintMkN | vhintMkW | vhintUseN | vhintUseW
  | vnormGe | vfaddX | vfsubX | vfmulX | vfcmulX | vfbflyX
  | vfcvtX | vfrndX | vld | vst | vmov | vzero
  | sget | sput | vli | vkeccakF | vshaCs | vshaCl
  | cblkE | cblkD | cghInit | cghash | kldA | kldB
  | kldCa | kldCb | kput | vin | vaux | vout
  | vconvAb | vconvBa | sconvAb | sconvBa | vremask | vtaint
  | staint | vrand | vdecl | sdecl | fcmp
deriving DecidableEq, Repr

/-! Fields (R185) -/

def wMajor (w : BitVec 32) : Nat := bitsOf w.toNat 31 26
def wD (w : BitVec 32) : Nat := bitsOf w.toNat 25 21
def wS1 (w : BitVec 32) : Nat := bitsOf w.toNat 20 16
def wS2 (w : BitVec 32) : Nat := bitsOf w.toNat 15 11
def wQ (w : BitVec 32) : Nat := bitsOf w.toNat 10 9
def wFunc (w : BitVec 32) : Nat := bitsOf w.toNat 8 0
/-- PS: the governing predicate of the classes that honour one -/
def wPs (w : BitVec 32) : Nat := bitsOf w.toNat 8 7
def wOp (w : BitVec 32) : Nat := bitsOf w.toNat 6 0
def wImm (w : BitVec 32) : Nat := bitsOf w.toNat 15 0
/-- IMM sign-extended -/
def wSImm (w : BitVec 32) : Int := if (wImm w) < 2 ^ 15 then (wImm w : Int) else (wImm w : Int) - 2 ^ 16
/-- format M -/
def wA (w : BitVec 32) : Nat := bitsOf w.toNat 20 18
def wPi (w : BitVec 32) : Bool := bitOf w.toNat 17
def wInc (w : BitVec 32) : Nat := bitsOf w.toNat 16 11
def wSInc (w : BitVec 32) : Int := if wInc w < 32 then (wInc w : Int) else (wInc w : Int) - 64
def wOff (w : BitVec 32) : Nat := bitsOf w.toNat 10 0
/-- formats B, L, J: TARGET or END -/
def wTarget (w : BitVec 32) : Nat := bitsOf w.toNat 11 0
def wCond (w : BitVec 32) : Nat := bitsOf w.toNat 20 18
def wCount (w : BitVec 32) : Nat := bitsOf w.toNat 23 12
def wScnt (w : BitVec 32) : Nat := bitsOf w.toNat 15 12
def wOvl (w : BitVec 32) : Nat := bitsOf w.toNat 25 22
/-- format P -/
def wRs (w : BitVec 32) : Bool := bitOf w.toNat 16
def wNm1 (w : BitVec 32) : Nat := bitsOf w.toNat 15 11
def wSub (w : BitVec 32) : Nat := bitsOf w.toNat 10 0
/-- FUNC [5:0] of the sampling and compression classes: the byte offset (R203) -/
def wWinOff (w : BitVec 32) : Nat := bitsOf w.toNat 5 0

/-- Pick by position: the entry of a list at an index, none beyond it. -/
def pickOp (l : List IsaOp) (i : Nat) : Option IsaOp := l[i]?

/-- The instruction a word names; none for an unassigned major opcode, OP, SUB or COND (R186, R187). Reserved
fields are checked by each instruction. -/
def isaDecode (w : BitVec 32) : Option IsaOp :=
  match wMajor w with
  | 0x00 => pickOp [.nop, .halt, .haltSt, .haltPr] (wOp w)
  | 0x01 => pickOp [.sadd, .ssub, .sand, .sor, .sxor, .sshl, .sshr, .smul, .seq, .slt, .sltu, .smov] (wOp w)
  | 0x02 => some .saddi
  | 0x03 => pickOp [.brZ, .brNz, .brLtz, .brGez, .brPany, .brPnone, .jmp] (wCond w)
  | 0x04 => match bitOf w.toNat 25, bitOf w.toNat 24 with
      | false, false => some .loopI
      | false, true => some .loopS
      | true, false => some .loopIShf
      | true, true => some .loopSShf
  | 0x05 => pickOp [.call, .ret, .jov] (bitsOf w.toNat 21 20)
  | 0x06 => pickOp [.aset, .aadd, .asetLi, .amovS] (bitsOf w.toNat 20 19)
  | 0x07 => pickOp [.qsetS, .qsetR] (wOp w)
  | 0x08 => pickOp [.pand, .por, .pxor, .pnot, .pmovS, .smovP] (wOp w)
  | 0x09 => pickOp [.sli, .slui] (wS1 w)
  | 0x0A => some .vli
  | 0x0B => some .pset
  | 0x10 => pickOp [.vaddM, .vsubM, .vnegM, .vmulM, .vmacM, .vmulsM, .vredM, .vchkQ, .vcmpEq, .vcmpLt, .vsel] (wOp w)
  | 0x11 => pickOp [.vbflyCt, .vbflyGs, .vbflyGf, .vbmulM] (bitsOf w.toNat 6 4)
  | 0x12 => pickOp [.vperm, .vzipLo, .vzipHi, .vuzpEv, .vuzpOd, .vrev, .vbcastL, .vbcastS] (wOp w)
  | 0x13 => pickOp [.vsampRej, .vsampEtaLo, .vsampEtaHi, .vsampCbd, .vsampCbt, .vsampUnfLo, .vsampUnfHi, .vsampNext]
      (bitsOf w.toNat 8 6)
  | 0x14 => pickOp [.vcomp, .vdcmp, .vpack, .vunpack] (bitsOf w.toNat 7 6)
  | 0x15 => pickOp [.vgmulF, .vgsqF, .vginvF] (wOp w)
  | 0x16 => pickOp [.vand, .vor, .vxor, .vnot, .vshlL, .vshrL, .vshlR, .vshrR, .vrotR] (wOp w)
  | 0x17 => pickOp [.vclmulLo, .vclmulHi] (wOp w)
  | 0x18 => pickOp [.vp2r, .vdecompN, .vdecompW, .vhintMkN, .vhintMkW, .vhintUseN, .vhintUseW, .vnormGe] (wOp w)
  | 0x19 => pickOp [.vfaddX, .vfsubX, .vfmulX, .vfcmulX, .vfbflyX, .vfcvtX, .vfrndX] (wOp w)
  | 0x20 => some .vld
  | 0x21 => some .vst
  | 0x22 => pickOp [.vmov, .vzero, .sget, .sput] (wOp w)
  | 0x28 => pickOp [.vkeccakF] (wOp w)
  | 0x29 => pickOp [.vshaCs, .vshaCl] (wOp w)
  | 0x2A => pickOp [.cblkE, .cblkD, .cghInit, .cghash] (wOp w)
  | 0x2B => pickOp [.kldA, .kldB, .kldCa, .kldCb, .kput] (wSub w)
  | 0x2C => pickOp [.vin, .vaux, .vout] (wSub w)
  | 0x30 => pickOp [.vconvAb, .vconvBa, .sconvAb, .sconvBa, .vremask, .vtaint, .staint, .vrand] (wOp w)
  | 0x31 => pickOp [.vdecl] (wSub w)
  | 0x32 => pickOp [.sdecl, .fcmp] (wOp w)
  | _ => none

end Sys2Proof.Machine
end

