-- ==== Sys2Proof/Machine/LibTables.lean ====
section
/-! DEFINITION. The figures of the vendor library, the payment programs, the cipher jobs and the big-number pool: sizes,
allotments and ladders (08_pq_library.md R226, R238 to R247; 09_cipher_digest_payment.md R250, R267;
10_public_key_engines.md R279 to R286, R294). -/

namespace Sys2Proof.Machine

/-- The manifest figures of a job in a profile: release class, allotment or first step, steps, load counted in W. -/
structure Figures where
  ladder : Bool
  allot : Nat
  steps : Nat
  load : Nat
deriving DecidableEq, Repr

def gridFig (a : Nat) : Figures := { ladder := false, allot := a, steps := 0, load := a }
/-- A ladder of `n` steps from `l`, counted at its planning step. -/
def ladderFig (l n planning : Nat) : Figures := { ladder := true, allot := l, steps := n, load := l * 2 ^ planning }

/-- The figure of a profile, 0 for one that is not offered. -/
def byProf (p o h w : Nat) : Nat := if p = 0 then o else if p = 1 then h else w
def offered3 (f : Nat → Figures) (a : Nat) : Option Figures := if a = 0 then none else some (f a)

/-! Post-quantum sizes (R226) -/

def pqPub (alg : Nat) : Nat := match alg with
  | 0x0201 => 800 | 0x0202 => 1184 | 0x0203 => 1568 | 0x0211 => 1312 | 0x0212 => 1952 | 0x0213 => 2592
  | 0x0221 => 32 | 0x0222 => 32 | 0x0223 => 32 | 0x0224 => 32 | 0x0231 => 56 | 0x0232 => 60 | 0x0233 => 68
  | 0x0241 => 897 | 0x0251 => 2249 | 0x0261 => 261120 | 0x0262 => 1047319 | _ => 0

def pqPriv (alg : Nat) : Nat := match alg with
  | 0x0201 => 1632 | 0x0202 => 2400 | 0x0203 => 3168 | 0x0211 => 2560 | 0x0212 => 4032 | 0x0213 => 4896
  | 0x0221 => 64 | 0x0222 => 64 | 0x0223 => 64 | 0x0224 => 64 | 0x0231 => 88 | 0x0232 => 100 | 0x0233 => 132
  | 0x0241 => 1281 | 0x0251 => 2305 | 0x0261 => 6492 | 0x0262 => 13948 | _ => 0

/-- Ciphertext or signature. -/
def pqOut (alg : Nat) : Nat := match alg with
  | 0x0201 => 768 | 0x0202 => 1088 | 0x0203 => 1568 | 0x0211 => 2420 | 0x0212 => 3309 | 0x0213 => 4627
  | 0x0221 => 17088 | 0x0222 => 7856 | 0x0223 => 17088 | 0x0224 => 7856 | 0x0231 => 2828 | 0x0232 => 5396
  | 0x0233 => 2820 | 0x0241 => 666 | 0x0251 => 4433 | 0x0261 => 96 | 0x0262 => 194 | _ => 0

def pqSecret (alg : Nat) : Nat := if alg = 0x0251 then 64 else 32

/-- One-time keys of a stateful set (R242). -/
def otsCount (alg : Nat) : Nat := if alg = 0x0232 then 1073741824 else if alg = 0x0231 ∨ alg = 0x0233 then 1048576 else 0

/-! Program identifiers (R221) -/

/-- Operation codes. -/
def opKeygen : Nat := 0
def opCheck : Nat := 1
def opSign : Nat := 2
def opVerify : Nat := 3
def opEncaps : Nat := 4
def opDecaps : Nat := 5
def opLeaves : Nat := 6
def opLink : Nat := 7

def libId (alg op : Nat) : Nat := 2 ^ 24 * 0x02 + 2 ^ 8 * (alg % 4096 * 16 + op) + 1

/-- LEAVES and LINK: the library programs that RUN_PROGRAM may name (R221, R222). -/
def libRun (id : Nat) : Bool := id / 2 ^ 24 == 2 && (id / 2 ^ 8 % 16 == 6 || id / 2 ^ 8 % 16 == 7)

/-- Algorithms that have an operation. -/
def libHas (alg op : Nat) : Bool :=
  isPq alg && (op == 0 || op == 1 || ((op == 2 || op == 3) && (isMldsa alg || isSlhdsa alg || isStateful alg || alg == 0x0241))
    || ((op == 4 || op == 5) && (isKem alg || isMceliece alg)) || (op == 6 && isStateful alg) || (op == 7 && alg == 0x0232))

def pqAlgs : List Nat :=
  [0x0201, 0x0202, 0x0203, 0x0211, 0x0212, 0x0213, 0x0221, 0x0222, 0x0223, 0x0224, 0x0231, 0x0232, 0x0233, 0x0241, 0x0251,
   0x0261, 0x0262]

/-- The payment and combiner programs. -/
def fixedPrograms : List Nat :=
  [0x01001001, 0x01001101, 0x01001201, 0x01001301, 0x01002001, 0x01003001, 0x01003101, 0x01004001, 0x02F00101, 0x02F00201]

/-- Every library program, in identifier order within its publisher. -/
def libraryIds : List Nat :=
  fixedPrograms ++ pqAlgs.flatMap (fun a => ((List.range 8).filter (libHas a)).map (libId a))

/-- A library program is loaded: not removed since the last full reset (R222). -/
def libLoaded (s : State) (id : Nat) : Bool := libraryIds.contains id && !s.lib.removedLib.contains id

/-! Allotments of the library (R238 to R244, R247) -/

def kemAllot (alg op p : Nat) : Nat :=
  if op = 4 then match alg with
    | 0x0201 => byProf p 7 25 75 | 0x0202 => byProf p 10 40 120 | 0x0203 => byProf p 15 60 180
    | 0x0251 => byProf p 34 40 45 | 0x0261 => byProf p 60 120 180 | 0x0262 => byProf p 240 0 0 | _ => 0
  else match alg with
    | 0x0201 => byProf p 9 30 90 | 0x0202 => byProf p 12 48 144 | 0x0203 => byProf p 18 72 216
    | 0x0251 => byProf p 59 234 584 | 0x0261 => byProf p 50 200 500 | 0x0262 => byProf p 150 0 0 | _ => 0

def verifyAllot (alg : Nat) : Nat := match alg with
  | 0x0211 => 34 | 0x0212 => 50 | 0x0213 => 80 | 0x0241 => 8 | 0x0221 => 260 | 0x0222 => 96 | 0x0223 => 1320
  | 0x0224 => 484 | 0x0231 => 229 | 0x0232 => 458 | 0x0233 => 704 | _ => 0

def signFig (alg p : Nat) : Option Figures := match alg with
  | 0x0211 => some (ladderFig (byProf p 64 512 1280) 6 1)
  | 0x0212 => some (ladderFig (byProf p 80 640 1600) 6 1)
  | 0x0213 => some (ladderFig (byProf p 112 896 2240) 6 1)
  | 0x0241 => offered3 (fun l => ladderFig l 4 0) (byProf p 1024 4096 0)
  | 0x0221 => some (gridFig (byProf p 8667 17334 26000))
  | 0x0222 => some (gridFig (byProf p 182000 364000 546000))
  | 0x0223 => some (gridFig (byProf p 44000 48000 52000))
  | 0x0224 => some (gridFig (byProf p 924000 1008000 1092000))
  | 0x0231 => some (gridFig (byProf p 229 250 271))
  | 0x0232 => some (gridFig (byProf p 229 250 271))
  | 0x0233 => some (gridFig (byProf p 704 768 832))
  | _ => none

/-- Key generation (R241). -/
def keygenFig (alg p : Nat) : Option Figures := match alg with
  | 0x0201 => some (ladderFig (byProf p 8 32 96) 4 0)
  | 0x0202 => some (ladderFig (byProf p 12 48 144) 4 0)
  | 0x0203 => some (ladderFig (byProf p 16 64 192) 4 0)
  | 0x0211 => some (ladderFig (byProf p 40 240 600) 4 0)
  | 0x0212 => some (ladderFig (byProf p 60 360 900) 4 0)
  | 0x0213 => some (ladderFig (byProf p 90 540 1350) 4 0)
  | 0x0241 => offered3 (fun l => ladderFig l 6 0) (byProf p 8192 32768 0)
  | 0x0251 => some (ladderFig (byProf p 60 240 600) 4 0)
  | 0x0221 => some (ladderFig (byProf p 400 800 1200) 1 0)
  | 0x0222 => some (ladderFig (byProf p 24000 48000 72000) 1 0)
  | 0x0223 => some (ladderFig (byProf p 2000 2200 2400) 1 0)
  | 0x0224 => some (ladderFig (byProf p 120000 131000 142000) 1 0)
  | 0x0261 => some (ladderFig (byProf p 65536 262144 655360) 6 0)
  | 0x0262 => offered3 (fun l => ladderFig l 4 0) (byProf p 786432 0 0)
  | 0x0231 => some (gridFig (byProf p 28331 30906 33482))
  | 0x0232 => some (gridFig (byProf p 28331 30906 33482))
  | 0x0233 => some (gridFig (byProf p 84990 92718 100446))
  | _ => none

/-- The figures of a library operation in a profile; none where it is not offered. -/
def libFig (alg op p : Nat) : Option Figures :=
  if op = opSign then signFig alg p
  else if op = opVerify then offered3 gridFig (verifyAllot alg)
  else if op = opEncaps ∨ op = opDecaps then offered3 gridFig (kemAllot alg op p)
  else if op = opLeaves then
    if alg = 0x0233 then some (gridFig (byProf p 84990 92718 100446)) else some (gridFig (byProf p 28331 30906 33482))
  else if op = opLink then some (gridFig (byProf p 453493 494719 535946))
  else if op = opKeygen then keygenFig alg p
  else none

def combinerFig (p : Nat) : Figures := gridFig (byProf p 5 8 11)

/-! Payment programs (R267) -/

def paymentAllot (id p : Nat) (form4 aes : Bool) : Nat := match id with
  | 0x01001001 => if form4 then byProf p 2 3 4 else byProf p 2 4 0
  | 0x01001101 => byProf p 6 12 18
  | 0x01001201 => byProf p 2 3 4
  | 0x01001301 => byProf p 6 12 18
  | 0x01002001 => if aes then byProf p 2 3 5 else byProf p 2 4 0
  | 0x01003001 => byProf p 2 3 0
  | 0x01003101 => byProf p 2 3 0
  | 0x01004001 => byProf p 1 2 3
  | _ => 0

/-! Cipher jobs (R250, R257) -/

/-- P: pieces of an input of `n` bytes in blocks of `b`, at least 1. -/
def pieces (n b : Nat) : Nat := max 1 (ceilDiv n (4096 / b * b))

/-- A for a work figure. -/
def cipherAllot (w f p : Nat) : Nat := max 1 (ceilDiv (w * f + 400 + 320 * p) 1200)

/-- c of R250. -/
def aesCost (alg : Nat) : Nat := if alg = 0x0101 then 250 else if alg = 0x0102 then 300 else 350

/-! The pool (R279 to R286, R294) -/

/-- k bits of RSA material or a public key, when it has the form of R279. -/
def rsaBits (alg cls len : Nat) : Option Nat :=
  if alg ≠ 0x0301 then none
  else
    let kb := if cls = clsPrivate then (len - 4) * 2 / 9 else len - 4
    let ok := if cls = clsPrivate then kb * 9 / 2 + 4 == len && decide (4 ≤ len) else kb + 4 == len
    if ok ∧ (8 * kb) % 64 = 0 ∧ 1024 ≤ 8 * kb ∧ 8 * kb ≤ 16384 then some (8 * kb) else none

/-- Class of a modulus size. -/
def rsaClass (k : Nat) : Nat :=
  if k ≤ 2048 then 0 else if k ≤ 3072 then 1 else if k ≤ 4096 then 2 else if k ≤ 6144 then 3 else if k ≤ 8192 then 4
  else if k ≤ 12288 then 5 else 6

def rsaSecretAllot (k : Nat) (walled : Bool) : Nat :=
  if walled then [444, 1494, 3034, 9684, 22750, 75834, 180834].getD (rsaClass k) 0
  else [317, 1067, 2167, 6917, 16250, 54167, 129167].getD (rsaClass k) 0
def rsaPublicAllot (k : Nat) : Nat := [17, 38, 67, 150, 267, 600, 1067].getD (rsaClass k) 0

def curveSign (alg : Nat) (walled : Bool) : Nat := match alg with
  | 0x0311 => if walled then 175 else 125
  | 0x0312 => if walled then 385 else 275
  | 0x0313 => if walled then 817 else 584
  | 0x0321 => if walled then 129 else 92
  | 0x0322 => if walled then 350 else 250
  | 0x0331 => if walled then 70 else 50
  | 0x0332 => if walled then 199 else 142
  | _ => 0

def curveVerify (alg : Nat) : Nat := match alg with
  | 0x0311 => 100 | 0x0312 => 225 | 0x0313 => 484 | 0x0321 => 75 | 0x0322 => 200 | _ => 0

def deriveAllot (alg : Nat) (walled : Bool) : Nat := match alg with
  | 0x0311 => if walled then 129 else 92
  | 0x0312 => if walled then 292 else 209
  | 0x0313 => if walled then 619 else 442
  | 0x0331 => if walled then 70 else 50
  | 0x0332 => if walled then 199 else 142
  | _ => 0

/-- The allotment of a pool operation by opcode; `k` the modulus of an RSA key. -/
def poolAllot (op alg k p : Nat) : Nat :=
  let w := p == 2
  if op = 0x5005 then deriveAllot alg w
  else if alg = 0x0301 then
    if op = 0x5001 ∨ op = 0x5007 then rsaSecretAllot k w else rsaPublicAllot k
  else if op = 0x5002 then curveVerify alg
  else curveSign alg w

/-- Generation of a classical key (R294); none for a size that is not accepted. -/
def poolKeygenFig (alg k p : Nat) : Option Figures :=
  if alg = 0x0301 then
    if k = 2048 then some (ladderFig 131072 6 0) else if k = 3072 then some (ladderFig 262144 6 0)
    else if k = 4096 then some (ladderFig 1048576 5 0) else if k = 8192 then some (ladderFig 8388608 4 0) else none
  else offered3 (fun l => ladderFig l 4 0) (curveSign alg (p == 2))

end Sys2Proof.Machine
end

