-- ==== Sys2Proof/Machine/Packages.lean ====
section
/-! DEFINITION. Program packages, publishers, firmware images (06_engine_model.md R156, R177 to R182;
17_start_up_reset.md R442, R443). -/

namespace Sys2Proof.Machine

/-! The manifest (R178) -/

def keyEntryAt (b : Bytes) (off : Nat) : KeyEntry :=
  { usage := leAt b off 1, alg := leAt b (off + 2) 2, firstRow := leAt b (off + 4) 2, rows := leAt b (off + 6) 2 }

def manifestParse (b : Bytes) : Manifest :=
  let fl := leAt b 4 1
  { progId := leAt b 0 4, idempotent := fl.testBit 0, ladder := fl.testBit 1, inSecret := fl.testBit 2,
    auxSecret := fl.testBit 3, usesOts := fl.testBit 4, profiles := leAt b 5 1, overlays := leAt b 6 1,
    pubRows := leAt b 8 2, secRows := leAt b 10 2, ports := leAt b 12 2, isScoped := (leAt b 14 2).testBit 15,
    tenant := leAt b 14 2 % 4096, maxOut := leAt b 16 4, inFixed := leAt b 20 4,
    allot := [leAt b 24 4, leAt b 28 4, leAt b 32 4], key0 := keyEntryAt b 36, key1 := keyEntryAt b 44,
    decl := (List.range (min (leAt b 7 1) 64)).map (fun i =>
      (bitsOf (leAt b (64 + 4 * i) 4) 15 12, bitsOf (leAt b (64 + 4 * i) 4) 11 0)) }

/-- Largest material of a named algorithm, for the key rows a manifest must give (R178). -/
def maxMaterial (alg : Nat) : Nat :=
  if alg = 0x0101 ∨ alg = 0x0111 then 16 else if alg = 0x0102 ∨ alg = 0x0112 then 24 else if alg = 0x0103 then 32
  else if isMacAlg alg then 64
  else if isRsa alg then 9220
  else if isClassical alg then ecScalar alg
  else pqPriv alg

/-- A profile is offered only with an allotment, and the rows its shares need (R156, R178). -/
def profileOk (m : Manifest) (p : Nat) : Bool :=
  let a := m.allot.getD p 0
  if m.profiles.testBit p then
    decide (1 ≤ a % 2 ^ 24) && decide (m.pubRows + m.secRows * (p + 1) ≤ 5632)
      && (if m.ladder then decide (a / 2 ^ 28 ≤ a / 2 ^ 24 % 16) else a / 2 ^ 24 == 0)
  else a == 0

/-- A KEY entry: unused and zero, or key rows in the secret region that hold the largest key of its algorithm. -/
def keyEntryOk (m : Manifest) (k : KeyEntry) : Bool :=
  if k.usage = 0 then k.alg == 0 && k.firstRow == 0 && k.rows == 0
  else decide (k.usage ≤ usDukpt) && knownAlg k.alg && decide (m.pubRows ≤ k.firstRow)
    && decide (k.firstRow + k.rows ≤ m.pubRows + m.secRows) && decide (ceilDiv (maxMaterial k.alg) 28 ≤ k.rows)

/-- Lengths of the overlays of a package. -/
def overlayLens (b : Bytes) (k : Nat) : List Nat := (List.range k).map (fun i => leAt b (336 + 4 * i) 4)

/-- Check 1 of R179: MAGIC, FORMAT, lengths, reserved fields, and the manifest's rules. -/
def packageForm (b : Bytes) : Bool :=
  let mb := (b.drop 16).take 320
  let m := manifestParse mb
  let k := m.overlays
  let lens := overlayLens b k
  let code := lens.foldl (· + ·) 0
  let cl := leAt b 12 4
  let declN := leAt mb 7 1
  b.take 4 == [0x49, 0x53, 0x47, 0x50] && leAt b 4 1 == 1 && leAt b 5 3 == 0 && leAt b 8 4 == b.length
    && decide (1 ≤ k ∧ k ≤ 16) && cl % 28 == 0 && decide (cl ≤ 57344)
    && b.length == 336 + 4 * k + code + cl + 3405
    && lens.all (fun l => l % 4 == 0 && decide (4 ≤ l ∧ l ≤ 16384))
    && decide (code + cl ≤ 320 * 1024)
    && decide (leAt mb 4 1 < 32) && decide (leAt mb 5 1 < 8) && decide (declN ≤ 64)
    && decide (m.pubRows + m.secRows ≤ 2048) && decide (cl / 28 ≤ m.pubRows)
    && decide (leAt mb 12 2 < 256) && bitsOf (leAt mb 14 2) 14 12 == 0 && (m.isScoped || m.tenant == 0)
    && decide (m.maxOut ≤ 2097152) && leAt mb 37 1 == 0 && leAt mb 45 1 == 0 && leAt mb 52 12 == 0
    && (List.range 3).all (profileOk m) && keyEntryOk m m.key0 && keyEntryOk m m.key1
    && (List.range 64).all (fun i =>
      let e := leAt mb (64 + 4 * i) 4
      if i < declN then decide (e < 65536) && decide (bitsOf e 15 12 < k)
        && decide (4 * bitsOf e 11 0 < lens.getD (bitsOf e 15 12) 0)
      else e == 0)

/-- 32-bit words of an overlay. -/
def wordsOf (b : Bytes) : List (BitVec 32) := (List.range (b.length / 4)).map (fun i => BitVec.ofNat 32 (leAt b (4 * i) 4))

/-- Split CODE into overlays. -/
def splitCode : List Nat → Bytes → List (List (BitVec 32))
  | [], _ => []
  | l :: r, b => wordsOf (b.take l) :: splitCode r (b.drop l)

def programOf (b : Bytes) : Program :=
  let mb := (b.drop 16).take 320
  let m := manifestParse mb
  let lens := overlayLens b m.overlays
  let code := lens.foldl (· + ·) 0
  let start := 336 + 4 * m.overlays
  { man := m, manBytes := mb, overlays := splitCode lens (b.drop start), const := (b.drop (start + code)).take (leAt b 12 4),
    size := b.length, vendor := false, removed := false }

/-- The keys of a publisher: the vendor's below 0x10 are in the boot ROM (R180). -/
def publisherKeys (s : State) (p : Nat) : Option (Bytes × Bytes) :=
  if p < 0x10 then some (Sys2Proof.Config.vendorEc, Sys2Proof.Config.vendorMl)
  else (kfind s.lib.publishers p).map (fun x => (x.pkEc, x.pkMl))

/-- Both signatures over a signed object whose last 3,405 bytes they are. -/
def signedBy (k : Bytes × Bytes) (b : Bytes) (context : String) : Bool :=
  let n := b.length - 3405
  pairSigned k.1 k.2 (b.take n) context ((b.drop n).take 96) (b.drop (n + 96))

/-- Check 4 of R179 for a publisher and a scope. -/
def scopeOk (s : State) (fn publisher : Nat) (isScoped : Bool) (tenant : Nat) : Bool :=
  let pub := kfind s.lib.publishers publisher
  let pubScope := pub.bind (fun x => if x.isScoped then some x.scope else none)
  if isVf fn then
    decide (0x10 ≤ publisher) && isScoped && tenant == tenantOf s fn
      && (match pubScope with
          | some t => t == tenantOf s fn
          | none => true)
  else match pubScope with
    | some t => isScoped && tenant == t
    | none => true

/-- Figures of a manifest in a profile (R178). -/
def manifestFig (m : Manifest) (p : Nat) : Figures :=
  let a := m.allot.getD p 0
  if m.ladder then ladderFig (a % 2 ^ 24) (a / 2 ^ 24 % 16 + 1) (a / 2 ^ 28) else gridFig a

/-! The library in the program store (R180, R221, R237, R240) -/

/-- What a library operation releases at declassify points, if anything (R237). -/
def libReleases (op : Nat) : Bool := op != opVerify

/-- The manifest figure of an operation in a profile as the ALLOT field holds it. -/
def allotField (f : Option Figures) : Nat := match f with
  | none => 0
  | some f => if f.ladder then f.allot + 2 ^ 24 * (f.steps - 1) + 2 ^ 28 * (if f.load = f.allot then 0 else 1) else f.allot

/-- Largest output of an operation. -/
def libMaxOut (alg op : Nat) : Nat :=
  if op = opSign then pqOut alg else if op = opVerify then 0 else if op = opEncaps then pqOut alg + pqSecret alg
  else if op = opDecaps then pqSecret alg else if op = opLeaves then 2048 else 35652

/-- IDEMPOTENT of a library program: the combiners, LEAVES and LINK set it, stateful SIGN clears it, the rest is not stated
(R243 to R245, R247). -/
def libIdem (id : Nat) : Bool :=
  let alg := 0x0200 + id / 2 ^ 12 % 256
  let op := id / 256 % 16
  if id == 0x02F00101 || id == 0x02F00201 || op == opLeaves || op == opLink then true
  else if op == opSign && isStateful alg then false
  else ((Sys2Proof.Config.libManifest id).getD 4 0).toNat.testBit 0

/-- The manifest of a library program (R178): what the rules state of it, over bytes that they leave open. -/
def libManifest (id : Nat) : Bytes :=
  let b (i : Nat) : Nat := ((Sys2Proof.Config.libManifest id).getD i 0).toNat
  let alg := 0x0200 + id / 2 ^ 12 % 256
  let op := id / 256 % 16
  let fixed := fixedPrograms.contains id
  let combiner := id == 0x02F00101 || id == 0x02F00201
  let figs := (List.range 3).map (fun p => if combiner then some (combinerFig p) else libFig alg op p)
  -- CHECK has no figures in the tables; those of a payment program depend on the form
  let open_ := (fixed && !combiner) || op == opCheck
  let profiles := if open_ then b 5 % 8 else (List.range 3).foldl (fun n p => if (figs.getD p none).isSome then n + 2 ^ p else n) 0
  let ladder := (figs.headD none).any (fun f => f.ladder)
  let keyed := op == opSign || op == opDecaps || op == opLeaves || op == opLink
  let sha2 := op == opSign && (alg == 0x0223 || alg == 0x0224 || isStateful alg)
  let decl := if combiner || (!fixed && !libReleases op) then 0 else 1 + b 7 % 64
  let idem := libIdem id
  let pub := leNat [BitVec.ofNat 8 (b 8), BitVec.ofNat 8 (b 9)] % 1025
  let sec := leNat [BitVec.ofNat 8 (b 10), BitVec.ofNat 8 (b 11)] % 1024
  leBytes 4 id
    ++ leBytes 1 (b2n idem + 2 * b2n ladder + 4 * (b 4 / 4 % 4) + 16 * b2n (op == opSign && isStateful alg && !fixed))
    ++ leBytes 1 profiles ++ leBytes 1 (1 + b 6 % 16) ++ leBytes 1 decl ++ leBytes 2 pub ++ leBytes 2 sec
    ++ leBytes 1 (if sha2 then b 12 % 32 + 32 + 64 * (b 12 / 64 % 2) + 128 else b 12) ++ [0, 0, 0]
    ++ leBytes 4 (if fixed ∨ op = opCheck ∨ op = opKeygen then (if combiner then 4 else b 16) else libMaxOut alg op)
    ++ leBytes 4 (if fixed then 0 else if op = opDecaps then pqOut alg else if op = opLeaves ∨ op = opLink then 16 else 0)
    ++ (List.range 3).flatMap (fun p => leBytes 4 (if open_ then b (24 + p) else allotField (figs.getD p none)))
    ++ (if keyed && !fixed then
          leBytes 1 (if op = opDecaps then usDecaps else usSign) ++ [0] ++ leBytes 2 alg ++ leBytes 2 pub
            ++ leBytes 2 (ceilDiv (pqPriv alg) 28)
        else List.replicate 8 0)
    ++ List.replicate 20 0
    ++ (List.range 64).flatMap (fun i => if i < decl then [BitVec.ofNat 8 (b (64 + 4 * i)), BitVec.ofNat 8 (b (65 + 4 * i)), 0, 0]
        else [0, 0, 0, 0])

/-- The package of a library program in the flash image, its manifest in place. -/
def libPackage (id : Nat) : Bytes :=
  let b := Sys2Proof.Config.libImage id
  b.take 16 ++ libManifest id ++ b.drop 336

/-- The library as it loads from the flash image: a package that its vendor keys do not sign is left out (R180). -/
def libRefused : List Nat :=
  libraryIds.filter (fun id => !signedBy (Sys2Proof.Config.vendorEc, Sys2Proof.Config.vendorMl) (libPackage id) "SX256Q PROGRAM")

/-- Jobs that have not finished LOADING a program. -/
def programBusy (s : State) (id : Nat) : Bool :=
  s.gth.jobs.any (fun j => (j.2.kind == .program || j.2.kind == .library) && j.2.prog == id && j.2.phase == .queued)
    || s.eng.any (fun e => e.2.st == .loading && e.2.progId == id)

/-- Bytes of program store in use: the customers' packages and the library's, a removed one until its last job has finished
LOADING. -/
def storeUsed (s : State) : Nat :=
  s.lib.programs.foldl (fun n p => n + p.2.size) 0
    + (libraryIds.filter (fun id => libLoaded s id || programBusy s id)).foldl (fun n id => n + (libPackage id).length) 0

/-- The highest version that is loaded of the program of a library identifier (R222): the library's own, none of it, or a
package loaded beside it. -/
def libPick (s : State) (id : Nat) : Option (Nat × Option Program) :=
  match (s.lib.programs.filter (fun e => e.1 / 256 == id / 256 && !e.2.removed)).getLast? with
  | some e => if libLoaded s id && decide (e.1 < id) then some (id, none) else some (e.1, some e.2)
  | none => if libLoaded s id then some (id, none) else none

/-- What check 8 selects for a library operation: the picked program with its own figures, or the library's. -/
def pickOr (s : State) (id : Nat) : Res (Nat × Option Program) := match libPick s id with
  | some x => .ok x
  | none => reject stParam 0x0026

/-- KiB a tenant's packages and applet granules take (R352, R376). -/
def programKib (s : State) (t : Nat) : Nat :=
  (s.lib.programs.filter (fun p => p.2.man.isScoped && p.2.man.tenant == t)).foldl (fun n p => n + ceilDiv p.2.size 1024) 0
    + (s.ldg.parts.filter (fun p => p.2.isScoped && p.2.tenant == t)).foldl (fun n p => n + p.2.memKib) 0

/-! USER_CODE (R443) -/

def codeSize : Nat := 4 * 1024 * 1024
def codeUsed (s : State) : Nat := s.boot.code.foldl (fun n e => n + e.length) 0
def codeRoom (s : State) (n : Nat) : Bool := decide (codeUsed s + n + 16 ≤ codeSize)

/-- The first free place for `n` bytes among the entries, in order of place; compaction in the background makes the free
space one run. -/
def codePlace (s : State) (n : Nat) : Nat :=
  let ends := s.boot.code.map (fun e => e.place + e.length)
  let cand := 0 :: ends
  let free (x : Nat) := decide (x + n ≤ codeSize) && s.boot.code.all (fun e => decide (e.place + e.length ≤ x ∨ x + n ≤ e.place))
  ((cand.filter free).foldl (fun a x => match a with
    | none => some x
    | some y => some (min x y)) none).getD (codeUsed s)

def codeAdd (s : State) (kind : CodeKind) (ident : Nat) (b : Bytes) : State :=
  let e : CodeEntry := { kind := kind, ident := ident, place := codePlace s (b.length + 16), length := b.length + 16, bytes := b }
  meterAdd { s with boot := { s.boot with code := s.boot.code ++ [e] } } 7 (b.length + 16)

def codeRemove (s : State) (kind : CodeKind) (ident : Nat) : State :=
  { s with boot := { s.boot with code := s.boot.code.filter (fun e => !(e.kind == kind && e.ident == ident)) } }

/-- USER_CODE_COMPACT: the keeper moves an entry to the lowest place below it that holds it (R443). -/
def execUserCodeCompact (ident : Nat) (applet : Bool) (s : State) : Host.Outcome State Fault Refusal :=
  answer s (
    let kind := if applet then CodeKind.applet else CodeKind.program
    match s.boot.code.find? (fun e => e.kind == kind && e.ident == ident) with
    | none => s
    | some e =>
        let rest := { s with boot := { s.boot with code := s.boot.code.filter (fun x => x != e) } }
        let p := codePlace rest e.length
        if p < e.place then
          { s with boot := { s.boot with code := s.boot.code.map (fun x => if x = e then { e with place := p } else x) } }
        else s)

/-! ADMIN_PROGRAM_LOAD and _REMOVE (R179, R180) -/

def programCheck (s : State) (fn : Nat) (b : Bytes) : Res Program := do
  failIf (!packageForm b) stParam 0x016D
  let p := programOf b
  let pub := p.man.progId / 2 ^ 24
  match publisherKeys s pub with
  | none => reject stDenied 0x0168
  | some k =>
    failIf (!signedBy k b "SX256Q PROGRAM") stDenied 0x016F
    failIf (!scopeOk s fn pub p.man.isScoped p.man.tenant) stDenied 0x0169
    failIf (libLoaded s p.man.progId || (match kfind s.lib.programs p.man.progId with
      | some q => !q.removed
      | none => false)) stDenied 0x016A
    failIf (decide (4 * 1024 * 1024 < storeUsed s + b.length)) stDenied 0x016B
    failIf (p.man.isScoped && decide ((quotaOf s p.man.tenant).programKib < programKib s p.man.tenant + ceilDiv b.length 1024))
      stDenied dQuotaProgram
    failIf (!codeRoom s b.length) stDenied 0x02A4
    .ok p

/-- The record of a program load or removal: a scoped program's carries its tenant (R463). -/
def programTenant (p : Program) : Option Nat := if p.man.isScoped then some p.man.tenant else none

def performProgramLoad (c : Cmd) (s : State) : State :=
  match programCheck s c.fn c.input with
  | .error e => completeCmd s c e.1 e.2
  | .ok p =>
      let s1 := { s with lib := { s.lib with programs := kins s.lib.programs p.man.progId p } }
      let s2 := measOf (codeAdd s1 .program p.man.progId c.input) 3 c.input
      completeCmd (authNotice (critCommitted s2 c) c 8 (programTenant p)) c 0 0

/-- Free the space of a removed program once the last command accepted before the commit has finished LOADING (R180). -/
def programReap (s : State) (id : Nat) : State :=
  match kfind s.lib.programs id with
  | some p => if p.removed && !programBusy s id then { s with lib := { s.lib with programs := kdel s.lib.programs id } } else s
  | none => s

def performProgramRemove (c : Cmd) (s : State) : State :=
  let id := c.desc.select
  match kfind s.lib.programs id with
  | none =>
      if !libLoaded s id then completeCmd s c stParam 0x0026
      else if !scopeOk s c.fn (id / 2 ^ 24) false 0 then completeCmd s c stDenied 0x0169
      else
        let s1 := { s with lib := { s.lib with removedLib := s.lib.removedLib ++ [id] } }
        completeCmd (authNotice (critCommitted s1 c) c 9 none) c 0 0
  | some p =>
      if p.removed then completeCmd s c stParam 0x0026
      else if !scopeOk s c.fn (id / 2 ^ 24) p.man.isScoped p.man.tenant then completeCmd s c stDenied 0x0169
      else
        let s1 := { s with lib := { s.lib with programs := kins s.lib.programs id { p with removed := true } } }
        let s2 := codeRemove (programReap s1 id) .program id
        completeCmd (authNotice (critCommitted s2 c) c 9 (programTenant p)) c 0 0

/-! ADMIN_POLICY_SET with parameter set 0x0002 (R181) -/

def publisherCheck (s : State) (b : Bytes) : Res Unit := do
  let p := leAt b 0 1
  let op := leAt b 1 1
  failIf (b.length != 2057 || decide (p < 0x10) || (op != 1 && op != 2)) stParam 0
  failIf (bitsOf (leAt b 2 2) 14 12 != 0 || leAt b 4 4 != 0) stParam dReserved
  failIf (op == 2 && (b.drop 8).any (fun x => x != 0)) stParam 0
  failIf (op == 1 && (kfind s.lib.publishers p).isSome) stDenied 0x016A
  failIf (op == 2 && (kfind s.lib.publishers p).isNone) stDenied 0x0168
  failIf (op == 1 && decide (240 ≤ s.lib.publishers.length)) stDenied 0x0168

def performPublisherSet (c : Cmd) (s : State) : State :=
  match publisherCheck s c.input with
  | .error e => completeCmd s c e.1 e.2
  | .ok _ =>
      let b := c.input
      let p := leAt b 0 1
      let x : Publisher := { isScoped := (leAt b 2 2).testBit 15, scope := leAt b 2 2 % 4096, pkEc := (b.drop 8).take 97,
                             pkMl := (b.drop 105).take 1952 }
      let m := if leAt b 1 1 = 1 then kins s.lib.publishers p x else kdel s.lib.publishers p
      let s1 := measOf { s with lib := { s.lib with publishers := m } } 5 b
      completeCmd (authNotice (critCommitted s1 c) c 7 none) c 0 0

/-! Firmware (R442) -/

/-- ADMIN_FW_UPDATE writes the image to the inactive slot; whether the image verifies is seen at the next start. -/
def performFwUpdate (c : Cmd) (s : State) : State :=
  let good := signedBy (Sys2Proof.Config.vendorEc, Sys2Proof.Config.vendorMl) c.input "SX256Q FIRMWARE"
  let d := sha384 c.input
  let b := if s.boot.slot = 0 then { s.boot with fwB := good, fwDigestB := d } else { s.boot with fwA := good, fwDigestA := d }
  completeCmd (critCommitted (meterAdd { s with boot := b } 7 c.input.length) c) c 0 0

/-- ADMIN_FW_ACTIVATE rewrites the directory so that it names the other slot for the next start. -/
def performFwActivate (c : Cmd) (s : State) : State :=
  completeCmd (critCommitted { s with boot := { s.boot with dirSlot := 1 - s.boot.slot } } c) c 0 0

/-- RUN_QUERY: a loaded program's manifest (R88). -/
def doRunQuery (c : Cmd) (s : State) : State :=
  match kfind s.lib.programs c.desc.select with
  | some p =>
      if p.removed then completeCmd s c stParam 0x0026
      else if p.man.isScoped && p.man.tenant != tenantOf s c.fn then completeCmd s c stDenied 0
      else completeOut s c p.manBytes
  | none =>
      if libLoaded s c.desc.select then
        completeOut s c (libManifest c.desc.select)
      else completeCmd s c stParam 0x0026

end Sys2Proof.Machine
end

