-- ==== Sys2Proof/Machine/Jobs.lean ====
section
/-! DEFINITION. Jobs from their planning to their end: committed load and release base (01_organisation.md R20 to R23,
02_sundial.md R41 to R44, 10_public_key_engines.md R284), the end of a job, faults and aborts (06_engine_model.md R174,
R175; 10_public_key_engines.md R298, R299), release staging (03_gatehouse.md R91). -/

namespace Sys2Proof.Machine

def getJob (s : State) (n : Nat) : Option Job := kfind s.gth.jobs n
def setJob (s : State) (n : Nat) (j : Job) : State := { s with gth := { s.gth with jobs := kins s.gth.jobs n j } }
def dropJob (s : State) (n : Nat) : State := { s with gth := { s.gth with jobs := kdel s.gth.jobs n } }

/-! Pavilions and the pool -/

def getBne (s : State) (b : Nat) : BnEng := kget (fun _ => bnReset) s.bne.eng b
def setBne (s : State) (b : Nat) (g : BnEng) : State :=
  { s with bne := { s.bne with eng := kset (fun _ => bnReset) s.bne.eng b g } }

/-- E of R42: in-service engines of a pavilion. -/
def engInService (s : State) (p : Nat) : Nat :=
  ((List.range 17).filter (fun k => (getEng s (17 * p + k)).inService)).length

/-- A pavilion that takes jobs. -/
def pavInService (s : State) (p : Nat) : Bool := !s.rep.pavs.contains p && decide (0 < engInService s p)
def pavsInService (s : State) : List Nat := (List.range 16).filter (pavInService s)

/-- Is a big-number engine in the pool (R276)? An engine under orderly quarantine already counts as out (R471). -/
def inPool (s : State) (b : Nat) : Bool :=
  !s.rep.pavs.contains (b / 2) && !s.rep.bnes.contains b && (getBne s b).st != .testing
    && (getBne s b).st != .quarantined && (getBne s b).st != .absent

/-- E_bn of R276. -/
def poolSize (s : State) : Nat := ((List.range 32).filter (inPool s)).length

/-! Load and release base (R42, R284) -/

/-- Engines a job uses. -/
def jobEngines (j : Job) : Nat := match j.kind with
  | .pool true => 2
  | _ => 1

/-- What a job still counts in W: its load less the engine-ticks it has run. -/
def jobLoad (s : State) (j : Job) : Nat := match j.phase with
  | .queued => j.load
  | .running => j.load - jobEngines j * (now s - j.started)
  | _ => 0

def isPool (j : Job) : Bool := match j.kind with
  | .pool _ => true
  | _ => false

def pavLoad (s : State) (p : Nat) : Nat :=
  s.gth.jobs.foldl (fun n e => if !isPool e.2 && e.2.pav == p then n + jobLoad s e.2 else n) 0
def poolLoad (s : State) : Nat := s.gth.jobs.foldl (fun n e => if isPool e.2 then n + jobLoad s e.2 else n) 0

/-- The pavilion with the smallest load among those in service, the lowest index on a tie. -/
def planPav (s : State) : Option Nat :=
  (pavsInService s).foldl (fun b p => match b with
    | none => some p
    | some q => if pavLoad s p < pavLoad s q then some p else some q) none

/-- Q: the load over 16 × E, rounded up, in steps of 16 ticks. -/
def queueTicks (w e : Nat) : Nat := 16 * ceilDiv w (16 * e)

/-- HORIZON (R92): every in-service pavilion is loaded above 65,536 × E. -/
def horizonPaused (s : State) : Bool :=
  pavsInService s != [] && (pavsInService s).all (fun p => decide (65536 * engInService s p < pavLoad s p))
/-- The pool's load is above 65,536 × E_bn (R285). -/
def poolPaused (s : State) : Bool := decide (65536 * poolSize s < poolLoad s)

/-! Release times (R43, R44) -/

def ladderSteps (j : Job) : List Nat := (List.range j.steps).map (fun i => j.base + j.allot * 2 ^ i)

/-- The last tick of a job: B + 4A, or the last ladder step. -/
def jobLimit (j : Job) : Nat := if j.ladder then j.base + j.allot * 2 ^ (j.steps - 1) else j.base + 4 * j.allot

/-- The release tick of a job that ends at `t`, and whether it is late. -/
def releaseAt (j : Job) (t : Nat) : Nat × Bool := match j.rel with
  | .immediate => (t, false)
  | .grid =>
      if t ≤ j.base + j.allot then (j.base + j.allot, false)
      else if t ≤ j.base + 2 * j.allot then (j.base + 2 * j.allot, true)
      else (j.base + 4 * j.allot, true)
  | .ladder => (((ladderSteps j).find? (fun x => decide (t ≤ x))).getD (max t (jobLimit j)), false)

/-! Release staging (R91) -/

def stageUsed (s : State) : Nat := s.gth.jobs.foldl (fun n e => n + e.2.staged) 0
def stageSize : Nat := 4 * 1024 * 1024
def stageFits (s : State) (n : Nat) : Bool := n == 0 || decide (stageUsed s + n ≤ stageSize)

/-! Planning -/

/-- Plan a job: its pavilion and release base at this tick, then its place in acceptance order. Without a pavilion in
service the job is not planned. -/
def planJob (s : State) (j : Job) : Option (State × Nat) :=
  let put (j' : Job) : State × Nat :=
    let n := s.gth.nextJob
    ({ s with gth := { s.gth with jobs := kins s.gth.jobs n j', nextJob := n + 1 } }, n)
  if isPool j then
    some (put { j with base := now s + queueTicks (poolLoad s) (poolSize s) })
  else match planPav s with
    | none => none
    | some p =>
        let r := put { j with pav := p, base := now s + queueTicks (pavLoad s p) (engInService s p) }
        some (pmcPav r.1 p 23 j.load, r.2)

/-! Streams (R82, R260) -/

def isCipher (j : Job) : Bool := match j.kind with
  | .cipher => true
  | _ => false

def isStream (op : Nat) : Bool := op == 0x3003 || op == 0x4002 || op == 0x4003
def streamNo (c : Cmd) : Nat := c.desc.select / 65536
def findStream (s : State) (fn no : Nat) : Option Stream :=
  s.gth.streams.find? (fun x => x.fn == fn && x.number == no)
/-- A stream leaves the table, and its saved context the context store (R258). -/
def dropStream (s : State) (fn no : Nat) : State :=
  { s with
    gth := { s.gth with streams := s.gth.streams.filter (fun x => !(x.fn == fn && x.number == no)) },
    dgs := { s.dgs with store := match findStream s fn no with
      | none => s.dgs.store
      | some x => kdel s.dgs.store x.ident } }
def putStream (s : State) (x : Stream) : State :=
  let s1 := dropStream s x.fn x.number
  { s1 with gth := { s1.gth with streams := s1.gth.streams ++ [x] } }

/-- Open a stream: it is another than any before it of its number. -/
def openStream (s : State) (x : Stream) : State :=
  putStream { s with gth := { s.gth with nextJob := s.gth.nextJob + 1 } } { x with ident := s.gth.nextJob }

/-- Close a stream other than by its last segment. -/
def closeStream (s : State) (fn no : Nat) : State :=
  match findStream s fn no with
  | none => s
  | some _ =>
      let t := dropStream s fn no
      { t with dgs := { t.dgs with streamClosed := satInc 32 t.dgs.streamClosed } }

/-- The stream a segment was accepted for, while it is open (R82, R260). -/
def liveStream (s : State) (j : Job) : Option Stream :=
  if isStream j.cmd.desc.opcode then
    (findStream s j.cmd.fn (streamNo j.cmd)).filter (fun x => x.ident == j.stream)
  else none

/-- What the end of a segment with a status does to its stream. -/
def streamAfter (s : State) (j : Job) (status : Nat) : State :=
  if (liveStream s j).isSome ∧ (status = 0x0106 ∨ status = 0x0601 ∨ status = 0x0801 ∨ status = 0x0105 ∨ status = 0x0502)
  then closeStream s j.cmd.fn (streamNo j.cmd) else s

/-! The end of a job -/

/-- The key-store objects a job has not loaded are no longer waited for (R20, R121). -/
def dropUses (s : State) (j : Job) : State :=
  let s1 := match j.useA with
    | some b => dropWaiting s b
    | none => s
  match j.useB with
    | some b => dropWaiting s1 b
    | none => s1

/-- The context saved between two pieces of a job leaves the context store when the job ends (R258). -/
def dropCtx (s : State) (n : Nat) : State := { s with dgs := { s.dgs with store := kdel s.dgs.store n } }

/-- Opcodes whose completion carries a compare pair (R86). -/
def verifyOp (op : Nat) : Bool :=
  op == 0x3005 || op == 0x4005 || op == 0x5002 || op == 0x3007 || op == 0x3008 || op == 0x300A

def pairMatch : Nat := 0xA5A53C3C * 2 ^ 32 + 0x5A5AC3C3
def pairMiss : Nat := 0xFFFFFFFF * 2 ^ 32

/-- Statuses whose cycles count as wasted (R457). -/
def wastedStatus (st : Nat) : Bool :=
  st == 0x0701 || st == 0x0702 || st == 0x0801 || st == 0x0502 || st == 0x0601 || st == 0x0602

/-- The pavilion counters of an ended job (R457, R458). -/
def countEnd (s0 : State) (j : Job) (status : Nat) : State :=
  if isPool j then s0
  else
    let s := pmcPav s0 j.pav (if wastedStatus status then 1 else 0) j.spent
    let s1 := pmcPav s j.pav (if status = 0 then 5 else 6) 1
    if status = 0x0601 ∨ status = 0x0602 then pmcPav s1 j.pav 7 1 else s1

/-- A job ends with a result: it waits for its release tick. An output that does not fit is not written (R22); an output
leaves only with OK. `early`: a public rejection, released at B + 2 if it is reached by then (R231, R287). -/
def endJob (s : State) (n status detail : Nat) (out : Bytes) (pair : Nat) (early : Bool) : State :=
  match getJob s n with
  | none => s
  | some j =>
      let small := decide (status = 0 ∧ outRoom j.cmd < out.length)
      let st := if small then 0x0104 else status
      let r := if early ∧ now s ≤ j.base + 2 ∧ j.rel ≠ .immediate then (j.base + 2, false) else releaseAt j (now s)
      let j' := { j with
        phase := .done, status := st, detail := if small then 0 else detail, output := if st = 0 then out else [],
        required := if small then out.length else 0, pair := pair, due := r.1, late := r.2, useA := none, useB := none,
        matA := [], matB := [] }
      countEnd (streamAfter (setJob (dropCtx (dropUses s j) n) n j') j st) j st

/-! Faults and aborts of engines -/

/-- The PART payload of an engine record (R464). -/
def engPayload (kind index code core prog tag : Nat) : Bytes := payPart kind index code core prog tag

/-- A key of the fault history: KIND × 512 + INDEX. -/
def faultKey (kind index : Nat) : Nat := 512 * kind + index

/-- Note a FAULT_DETECTED on a part; true at the third within 1,048,576 ticks (R474). -/
def noteFault (s : State) (kind index : Nat) : State × Bool :=
  let k := faultKey kind index
  let old := (kget (fun _ => []) s.rep.faultTicks k).filter (fun t => decide (now s < t + 1048576))
  let l := (now s :: old).take 3
  ({ s with rep := { s.rep with faultTicks := kset (fun _ => []) s.rep.faultTicks k l } }, decide (3 ≤ l.length))

/-- Send an engine to SCRUBBING with the detail of a fault or abort (R174, R175, R183, R184). -/
def engScrub (s : State) (e detail : Nat) (bit : Option Nat) : State :=
  let g := getEng s e
  let p := e / 17
  let s1 := setEng s e { g with
    st := .scrubbing, faultDetail := detail, faultCount := satInc 16 g.faultCount, job := none, staging := [], drained := [], want := .none,
    grant := none }
  let s2 := setPav s1 p { getPav s1 p with scrubs := satInc 32 (getPav s1 p).scrubs }
  match bit with
  | some b => pavInt s2 p b
  | none => s2

/-- Send a big-number engine to SCRUBBING (R298, R301). -/
def bneScrub (s : State) (b detail : Nat) : State :=
  let g := getBne s b
  setBne s b { g with st := .scrubbing, faultDetail := detail, faultCount := satInc 16 g.faultCount, job := none }

/-- Scrub whatever runs a job, with the record of the abort or fault on its first part. -/
def scrubParts (s : State) (j : Job) (ev detail : Nat) (bit : Option Nat) (core : Nat) : State :=
  match j.part with
  | none => s
  | some x =>
      if isPool j then
        let s1 := bneScrub s x detail
        let s2 := match j.part2 with
          | some y => bneScrub s1 y detail
          | none => s1
        record s2 (0x0600 + ev) x sevFault (recTenant s j.cmd.fn) (engPayload 3 x detail 0 j.prog j.cmd.desc.tag)
      else
        record (engScrub s x detail bit) (0x0500 + ev) x sevFault (recTenant s j.cmd.fn)
          (engPayload 1 x detail core j.prog j.cmd.desc.tag)

/-- Mark the parts of a job for quarantine at the end of their scrub. -/
def markQuar (s : State) (j : Job) : State :=
  match j.part with
  | none => s
  | some x =>
      if isPool j then setBne s x { getBne s x with quarAfter := true }
      else setEng s x { getEng s x with quarAfter := true }

/-- A fault ends the job at the instruction or check that raised it (R174, R290, R291): the parts are scrubbed, the
completion follows the release rule. `core`: the core a PORT_INTEGRITY fault is attributed to. -/
def faultJob (s : State) (n status detail core : Nat) : State :=
  match getJob s n with
  | none => s
  | some j =>
      let s1 := scrubParts s j 1 detail (if status = 0x0801 then some 0 else none) core
      let s2 := match j.part with
        | none => s1
        | some x =>
            if status = 0x0801 then
              let r := noteFault s1 (if isPool j then 3 else 1) x
              if r.2 then markQuar r.1 j else r.1
            else s1
      endJob s2 n status detail [] 0 false

/-- An abort event (R175): a job on a part waits for the end of its scrub, any other ends at once. `due`: the earliest
release tick. -/
def abortJob (s : State) (n status detail due : Nat) : State :=
  match getJob s n with
  | none => s
  | some j =>
      let s1 := if j.phase = .running then scrubParts s j 2 detail (some 1) 0 else s
      let waits := decide (j.phase = .running) && j.part.isSome
      let j' := { j with
        phase := if waits then .scrubWait else .done, status := status, detail := detail, output := [], required := 0,
        pair := 0, due := max due (now s), late := false, useA := none, useB := none, matA := [], matB := [] }
      countEnd (streamAfter (setJob (dropCtx (dropUses s1 j) n) n j') j status) j status

/-- The release tick of a job aborted by a quarantine or SUSPEND: B + A or the next ladder step; at once if IMMEDIATE. -/
def abortDue (s : State) (j : Job) : Nat := match j.rel with
  | .immediate => now s
  | .grid => j.base + j.allot
  | .ladder => (releaseAt j (now s)).1

/-- Is a job not yet ended? -/
def jobOpen (j : Job) : Bool := j.phase == .queued || j.phase == .running

/-- Apply an abort to every job that satisfies a test. -/
def abortWhere (s : State) (p : Job → Bool) (status detail : Nat) (due : State → Job → Nat) : State :=
  (s.gth.jobs.filter (fun e => jobOpen e.2 && p e.2)).foldl (fun s e => abortJob s e.1 status detail (due s e.2)) s

/-- The scrub of an engine or big-number engine has ended: the job that waited for it may be released. -/
def scrubDoneJobs (s : State) (pool : Bool) (x : Nat) : State :=
  { s with gth := { s.gth with
      jobs := kmap (fun _ j => if j.phase = .scrubWait ∧ isPool j = pool ∧ (j.part = some x ∨ j.part2 = some x) then
        let left := j.part2.filter (fun y => y != x)
        let first := if j.part = some x then none else j.part
        if left.isNone && first.isNone then { j with phase := .done, part := none, part2 := none, due := max j.due (now s) }
        else { j with part := first, part2 := left }
        else j) s.gth.jobs } }

/-! Material (R20, R121, R146) -/

/-- Deliver the material of a key-store object to a job: none when the object is DAMAGED or its system object failed. -/
def loadObject (s : State) (b : Nat) : Option Bytes :=
  match kfind s.kst.objs b with
  | some o => if o.st = .damaged then none else some o.material
  | none => none

/-- The key-path counters of one delivery (R150, R458). -/
def countDelivery (s : State) (pool : Bool) (p bytes : Nat) : State :=
  let s1 := pmcDev (meterAdd s 8 bytes) 185 1
  if pool then pmcDev { s1 with kst := { s1.kst with bneDeliver := satInc 32 s1.kst.bneDeliver } } 177 1
  else pmcDev { s1 with kst := { s1.kst with
    pathDeliver := kmod (fun _ => 0) s1.kst.pathDeliver p (satInc 32) } } 176 1

/-- Load the keys of a job over a key path: the state and job with the material, or none when one is DAMAGED. -/
def loadKeys (s : State) (n : Nat) (j : Job) (p : Nat) : Option State :=
  let one (s : State) (u : Option Nat) : Option (State × Bytes) := match u with
    | none => some (s, [])
    | some b => match loadObject s b with
      | none => none
      | some m => some (countDelivery (dropWaiting s b) (isPool j) p m.length, m)
  match one s j.useA with
  | none => none
  | some (s1, a) => match one s1 j.useB with
    | none => none
    | some (s2, b) => some (setJob s2 n { j with useA := none, useB := none, matA := if j.useA.isSome then a else j.matA,
                                                 matB := if j.useB.isSome then b else j.matB })

end Sys2Proof.Machine
end

