-- ==== Sys2Proof/Machine/Payment.lean ====
section
/-! DEFINITION. PIN blocks, AES DUKPT and EMV cryptograms (09_cipher_digest_payment.md R268 to R272; ISO 9564-1, ANSI
X9.24-3-2017 and EMV Book 2 Annex A1, which the rules name and do not restate). -/

namespace Sys2Proof.Machine

/-- The nibbles of a byte string, the high one first, and the bytes of an even number of nibbles. -/
def nibbles (b : Bytes) : List Nat := b.flatMap (fun x => [x.toNat / 16, x.toNat % 16])
def fromNibbles (l : List Nat) : Bytes :=
  (List.range (l.length / 2)).map (fun i => BitVec.ofNat 8 (16 * l.getD (2 * i) 0 + l.getD (2 * i + 1) 0))

/-- Digits on the right of a field of `n`, zeros on its left. -/
def rightField (n : Nat) (l : List Nat) : List Nat := List.replicate (n - l.length) 0 ++ l.drop (l.length - n)
/-- Digits on the left of a field of `n`, filled on the right. -/
def leftField (n fill : Nat) (l : List Nat) : List Nat := (l ++ List.replicate (n - l.length) fill).take n

/-- The digits of a string of ASCII digits. -/
def asciiDigits (b : Bytes) : List Nat := b.map (fun x => x.toNat % 16)

/-! PIN blocks (R268): the formats of ISO 9564-1 -/

/-- The PAN field of formats 0 and 3: four zeros and the twelve rightmost digits without the check digit. -/
def panField (pan : List Nat) : Bytes := fromNibbles (rightField 16 (rightField 12 pan.dropLast))

/-- The PAN field of format 4: the length over 12, the digits, zeros. -/
def panField4 (pan : List Nat) : Bytes := fromNibbles (leftField 32 0 ((pan.length - 12) :: pan))

/-- A fill nibble that a format admits after the PIN digits. -/
def fillOk (fmt x : Nat) : Bool :=
  if fmt = 0 then x == 15 else if fmt = 3 then decide (10 ≤ x) else if fmt = 4 then x == 10 else true

/-- The PIN digits of a PIN field: control field, length 4 to 12, decimal digits, fill; none when malformed. -/
def pinField (fmt : Nat) (field : List Nat) : Option (List Nat) :=
  let n := field.getD 1 0
  let ds := (field.drop 2).take n
  if field.headD 16 == fmt && decide (4 ≤ n ∧ n ≤ 12) && ds.all (fun x => decide (x < 10))
      && (((field.take 16).drop (2 + n)).all (fillOk fmt)) then some ds else none

/-- The clear block of an enciphered one: the PIN field in nibbles. Format 4 is enciphered in two passes bound to the PAN. -/
def pinOpen (fmt : Nat) (key blk : Bytes) (pan : List Nat) : List Nat :=
  if fmt = 4 then nibbles (aesDec key (xorBytes (aesDec key blk) (panField4 pan)))
  else if fmt = 1 then nibbles (tdeaDec key blk)
  else nibbles (xorBytes (tdeaDec key blk) (panField pan))

/-- The PIN field of a format: fresh random fill where the format has any. -/
def pinBuild (fmt draw : Nat) (pin : List Nat) : List Nat :=
  let any (i : Nat) : Nat := Sys2Proof.Config.pinFill draw i % 16
  let head := fmt :: pin.length :: pin
  let rest := (List.range (16 - head.length)).map (fun i =>
    if fmt = 0 then 15 else if fmt = 1 then any i else if fmt = 3 then 10 + Sys2Proof.Config.pinFill draw i % 6 else 10)
  head ++ rest ++ (if fmt = 4 then (List.range 16).map (fun i => any (16 + i)) else [])

def pinSeal (fmt : Nat) (key : Bytes) (field pan : List Nat) : Bytes :=
  let f := fromNibbles field
  if fmt = 4 then aesEnc key (xorBytes (aesEnc key f) (panField4 pan))
  else if fmt = 1 then tdeaEnc key f
  else tdeaEnc key (xorBytes f (panField pan))

/-! AES DUKPT (R270) -/

/-- Key usage, algorithm and length of a derivation by the length of its result, then what it is bound to. -/
def dukptData (usage len : Nat) (bound : Bytes) (block : Nat) : Bytes :=
  beBytes 1 1 ++ beBytes 1 block ++ beBytes 2 usage ++ beBytes 2 (if len = 16 then 2 else if len = 24 then 3 else 4)
    ++ beBytes 2 (8 * len) ++ bound

def dukptDerive (key : Bytes) (usage : Nat) (bound : Bytes) : Bytes :=
  let n := key.length
  ((List.range (ceilDiv n 16)).flatMap (fun i => aesEnc key (dukptData usage n bound (i + 1)))).take n

/-- The initial key of a base key and an initial key ID. -/
def dukptInitial (base iden : Bytes) : Bytes := dukptDerive base 0x8001 iden

/-- The PIN encryption key of an initial key and a KSN: one step for every bit of the counter, from the highest. -/
def dukptPinKey (initial ksn : Bytes) : Bytes :=
  let c := beAt ksn 8 4
  let iden := (ksn.drop 4).take 4
  let go (x : Bytes × Nat) (i : Nat) : Bytes × Nat :=
    if c.testBit (31 - i) then
      let w := x.2 + 2 ^ (31 - i)
      (dukptDerive x.1 0x8000 (iden ++ beBytes 4 w), w)
    else x
  dukptDerive ((List.range 32).foldl go (initial, 0)).1 0x1000 (iden ++ beBytes 4 c)

/-! EMV (R271) -/

def sha1Round (s : List Nat) (x : Nat × Nat) : List Nat := match s with
  | [a, b, c, d, e] =>
      let f := if x.1 < 20 then (b &&& c) ||| ((b ^^^ 0xFFFFFFFF) &&& d) else if x.1 < 40 then b ^^^ c ^^^ d
        else if x.1 < 60 then (b &&& c) ||| (b &&& d) ||| (c &&& d) else b ^^^ c ^^^ d
      let k := if x.1 < 20 then 0x5A827999 else if x.1 < 40 then 0x6ED9EBA1 else if x.1 < 60 then 0x8F1BBCDC else 0xCA62C1D6
      [(rorW 32 a 27 + f + e + k + x.2) % 2 ^ 32, a, rorW 32 b 2, c, d]
  | _ => s

/-- The 80 words of a block, newest first. -/
def sha1Words : Nat → List Nat → List Nat
  | 0, l => l
  | n + 1, l => sha1Words n (rorW 32 (l.getD 2 0 ^^^ l.getD 7 0 ^^^ l.getD 13 0 ^^^ l.getD 15 0) 31 :: l)

def sha1Block (s : List Nat) (b : Bytes) : List Nat :=
  let w := (sha1Words 64 (beWords 4 16 b).reverse).reverse
  List.zipWith (fun x y => (x + y) % 2 ^ 32) s (((List.range 80).zip w).foldl sha1Round s)

def sha1 (m : Bytes) : Bytes :=
  let p := shaPad 64 m
  ((chunks 64 (p.length / 64) p).foldl sha1Block
    [0x67452301, 0xEFCDAB89, 0x98BADCFE, 0x10325476, 0xC3D2E1F0]).flatMap (beBytes 4)

/-- The decimal digits of nibbles in order, then the others less ten. -/
def decimalize (l : List Nat) : List Nat := l.filter (fun x => decide (x < 10)) ++ (l.filter (fun x => decide (10 ≤ x))).map (· - 10)

/-- The card master key (Annex A1.4): for TDEA by option A for a PAN of 16 digits or fewer, else by option B; for AES by option
C. `psn`: two digits. -/
def emvMaster (aes : Bool) (key : Bytes) (pan : List Nat) (psn : Nat) : Bytes :=
  let ds := pan ++ [psn / 16, psn % 16]
  let ones (b : Bytes) : Bytes := b.map (fun x => x ^^^ 0xFF)
  if aes then
    let y := fromNibbles (rightField 32 ds)
    (aesEnc key y ++ aesEnc key (ones y)).take key.length
  else
    let even := if ds.length % 2 = 0 then ds else 0 :: ds
    let y := if pan.length ≤ 16 then fromNibbles (rightField 16 ds)
      else fromNibbles ((decimalize (nibbles (sha1 (fromNibbles even)))).take 16)
    oddParity (tdeaEnc key y ++ tdeaEnc key (ones y))

/-- The session key of an application cryptogram (Annex A1.3, common session key derivation). -/
def emvSession (aes : Bool) (key : Bytes) (pan : List Nat) (psn : Nat) (atc : Bytes) : Bytes :=
  let mk := emvMaster aes key pan psn
  let r (n : Nat) (third : Byte) : Bytes := atc ++ [third] ++ List.replicate (n - 3) 0
  if aes then
    (if mk.length = 16 then aesEnc mk (r 16 0) else (aesEnc mk (r 16 0xF0) ++ aesEnc mk (r 16 0x0F)).take mk.length)
  else tdeaEnc mk (r 8 0xF0) ++ tdeaEnc mk (r 8 0x0F)

/-- ISO/IEC 9797-1 MAC algorithm 3 with two DES keys over whole blocks. -/
def retailMac (key m : Bytes) : Bytes :=
  let k1 := key.take 8
  let k2 := (key.drop 8).take 8
  desEnc k1 (desDec k2 (cbcMac (desEnc k1) 8 (m.length / 8) (List.replicate 8 0) m))

/-- Padding method 2: a one bit, then zeros to a whole block. -/
def padMethod2 (k : Nat) (m : Bytes) : Bytes :=
  let n := m.length + 1
  m ++ [0x80] ++ List.replicate (ceilDiv n k * k - n) 0

/-- The 8-byte cryptogram under a session key. -/
def emvMac (aes : Bool) (sk m : Bytes) : Bytes :=
  if aes then (cmac (aesEnc sk) 16 m).take 8 else retailMac sk (padMethod2 8 m)

/-- The response cryptogram: method 1 over the ARC, method 2 over the CSU. -/
def emvArpc (aes method1 : Bool) (sk arqc data : Bytes) : Bytes :=
  if method1 then tdeaEnc sk (xorBytes arqc (padTo 8 (data.take 2))) else (emvMac aes sk (arqc ++ data.take 4)).take 4

end Sys2Proof.Machine
end

