-- ==== Sys2Proof/Machine/LibResults.lean ====
section
/-! DEFINITION. What a library or payment program returns (08_pq_library.md R227 to R247; 09_cipher_digest_payment.md
R267 to R273): status, detail, output, compare pair, early rejection. -/

namespace Sys2Proof.Machine

/-- The end of a job. -/
structure JobEnd where
  st : Nat
  dt : Nat
  out : Bytes
  pair : Nat
  early : Bool
deriving DecidableEq, Repr

def okEnd (out : Bytes) : JobEnd := { st := 0, dt := 0, out := out, pair := 0, early := false }
def failEnd (st dt : Nat) : JobEnd := { st := st, dt := dt, out := [], pair := 0, early := false }
/-- A public rejection (R231, R287). -/
def earlyEnd (st dt : Nat) : JobEnd := { st := st, dt := dt, out := [], pair := 0, early := true }
def matchEnd (out : Bytes) : JobEnd := { st := 0, dt := 0, out := out, pair := pairMatch, early := false }
/-- A verification that fails carries the mismatch pair (R86). -/
def missEnd (st dt : Nat) (early : Bool) : JobEnd := { st := st, dt := dt, out := [], pair := pairMiss, early := early }

/-! Buffers of an item (R227, R228, R282) -/

/-- Opcodes whose single form has an auxiliary part: their batch items carry the item header. -/
def headerOp (op : Nat) : Bool :=
  (decide (0x5001 ≤ op) && decide (op ≤ 0x5007)) || op == 0x1004 || op == 0x3005 || op == 0x3006 || op == 0x3007
    || op == 0x3008 || op == 0x300A || op == 0x4005

/-- Auxiliary part and input part of a job; none for a malformed item. -/
def itemParts (j : Job) : Option (Bytes × Bytes) :=
  if j.item.isNone then some (j.cmd.aux, j.cmd.input)
  else if headerOp j.cmd.desc.opcode || (j.cmd.desc.opcode == 0x2001 && libRun j.prog) then
    let b := j.cmd.input
    let a := leAt b 0 2
    let n := leAt b 2 2
    if b.length < 4 + a + n ∨ (b.drop (4 + a + n)).any (fun x => x != 0) then none
    else some ((b.drop 4).take a, (b.drop (4 + a)).take n)
  else some ([], j.cmd.input)

def selAlg (c : Cmd) : Nat := c.desc.select % 4096
def selPrehash (c : Cmd) : Nat := c.desc.select / 4096 % 4
def selOption (c : Cmd) : Bool := c.desc.select.testBit 14

/-- The public key of a job: the object's material, or the leading bytes of the auxiliary part; and what follows it. -/
def takePub (j : Job) (aux : Bytes) (n : Nat) : Bytes × Bytes :=
  if j.attrA.isSome then (j.matA, aux) else (aux.take n, aux.drop n)

/-! Shared-secret and derived objects (R130, R229, R247) -/

/-- The attribute block of an object that a job creates; `dt` the detail of an attribute the rules do not allow. -/
def derivedAttr (b : Bytes) (tenant : Nat) (algs : List Nat) (parkOk exportOk : Bool) (floor dt : Nat) : Res Attr := do
  let a := attrParse b
  failIf (leAt b 0 1 != 1) stParam dAttrForm
  failIf (!(attrReservedOk b && attrDeviceZero a)) stParam dReserved
  failIf (!algs.contains a.alg || (attrFlag a flParkWide && !parkOk) || (attrFlag a flExportable && !exportOk)
    || decide (storedFloor a < floor)) stParam dt
  hostAttr b tenant 0

/-- The block of a shared-secret object (R229): a usage that R127 does not list is among the attributes it forbids. -/
def sharedAttr (b : Bytes) (tenant : Nat) (algs : List Nat) (exportOk : Bool) (floor : Nat) : Res Attr :=
  match derivedAttr b tenant algs false exportOk floor 0x0189 with
  | .error e => if e.1 = stUsage then reject stParam 0x0189 else .error e
  | .ok a => .ok a

/-- Create the object: a zero key is refused, allocation failures follow R120. -/
def createDerived (s : State) (a : Attr) (mat : Bytes) : Except (Nat × Nat) (State × Nat) :=
  if mat.all (fun x => x == 0) then .error (stKeyInvalid, dZeroKey) else createObj s { a with origin := 3 } mat

def attrFloor (a : Option Attr) : Nat := (a.map (fun x => x.floor)).getD 0
def attrHas (a : Option Attr) (f : Nat) : Bool := (a.map (fun x => attrFlag x f)).getD false

/-! Key encapsulation (R227, R229, R232, R234) -/

def kemAlgs (alg : Nat) : List Nat := if alg = 0x0251 then [0x0121, 0x0122] else [0x0103, 0x0121, 0x0122]

/-- The shared secret of a job leaves as a handle, or itself under RETURN_SECRET. -/
def secretOut (s : State) (j : Job) (attr : Bytes) (algs : List Nat) (floor : Nat) (ss ct : Bytes) : State × JobEnd :=
  if selOption j.cmd then (s, okEnd (ct ++ ss))
  else match sharedAttr attr (tenantOf s j.cmd.fn) algs (attrHas j.attrA flExportable) floor with
    | .error e => (s, earlyEnd e.1 e.2)
    | .ok a => match createDerived s a ss with
        | .error e => (s, failEnd e.1 e.2)
        | .ok (s1, h) => (s1, okEnd (ct ++ leBytes 4 h))

/-- The attribute block is checked among the public inputs, before the operation. -/
def attrEarly (s : State) (j : Job) (attr : Bytes) (algs : List Nat) (floor : Nat) : Option (Nat × Nat) :=
  if selOption j.cmd then none
  else match sharedAttr attr (tenantOf s j.cmd.fn) algs (attrHas j.attrA flExportable) floor with
    | .error e => some e
    | .ok _ => none

def encapsResult (s : State) (j : Job) (aux : Bytes) : State × JobEnd :=
  let alg := selAlg j.cmd
  let r := takePub j aux (pqPub alg)
  let floor := if j.attrA.isSome then attrFloor j.attrA else j.profile
  if decide (alg ≤ 0x0203) && j.attrA.isNone && kemModulusBad alg r.1 then (s, earlyEnd stKeyInvalid 0x0181)
  else match attrEarly s j r.2 (kemAlgs alg) floor with
    | some e => (s, earlyEnd e.1 e.2)
    | none =>
        let x := kemSeal (s.freeCtr + 1) alg r.1
        secretOut (bumpCtr s) j r.2 (kemAlgs alg) floor (padTo (pqSecret alg) x.2) (padTo (pqOut alg) x.1)

def decapsResult (s : State) (j : Job) (aux ct : Bytes) : State × JobEnd :=
  let alg := selAlg j.cmd
  -- the last ciphertext byte of McEliece-6960119 carries 1,547 − 1,544 = 3 bits; the rest is padding
  if decide (alg = 0x0262 ∧ 8 ≤ (ct.getLast?.getD 0).toNat) then (s, earlyEnd stRange 0)
  else match attrEarly s j aux (kemAlgs alg) (attrFloor j.attrA) with
    | some e => (s, earlyEnd e.1 e.2)
    | none =>
        secretOut s j aux (kemAlgs alg) (attrFloor j.attrA)
          (padTo (pqSecret alg) (kemOpen alg j.matA ct)) []

/-! Signatures (R227, R232, R233, R242) -/

def signResult (s : State) (j : Job) (aux msg : Bytes) : State × JobEnd :=
  let alg := selAlg j.cmd
  if isStateful alg then
    let r := statefulSign alg j.matA j.index aux msg
    if leAt aux 0 8 ≠ j.index then (s, earlyEnd stParam 0x0186)
    else if !r.1 then (s, failEnd stParam 0x0187)
    else (s, okEnd (padTo (pqOut alg) r.2))
  else if selOption j.cmd then (s, okEnd (padTo (pqOut alg) (pqSign alg (selPrehash j.cmd) true 0 j.matA aux msg)))
  else (bumpCtr s, okEnd (padTo (pqOut alg) (pqSign alg (selPrehash j.cmd) false (s.freeCtr + 1) j.matA aux msg)))

def verifyResult (s : State) (j : Job) (aux msg : Bytes) : State × JobEnd :=
  let alg := selAlg j.cmd
  let r := takePub j aux (pqPub alg)
  let sig := r.2.take (pqOut alg)
  let ctx := r.2.drop (pqOut alg)
  if alg = 0x0241 ∧ j.attrA.isNone ∧ !fnPubOk r.1 then (s, missEnd stSig 0x0181 true)
  else if !pqSigOk alg r.1 sig then (s, missEnd stSig 0x0183 true)
  else if (if isStateful alg then statefulVerify alg r.1 sig msg
      else pqVerify alg (selPrehash j.cmd) r.1 ctx msg sig) then (s, matchEnd [])
  else (s, missEnd stSig 0x0184 false)

/-- Lengths of an item's parts (R227): what check 2 of R18 tests on a single form. -/
def pqLensOk (op alg : Nat) (keyed prehash secret : Bool) (aux inp : Nat) : Bool :=
  let pk := if keyed then 0 else pqPub alg
  let msgOk := if prehash then inp == 64 else decide (inp ≤ 1024)
  if op = 0x5001 then
    msgOk && (if isStateful alg then aux == (if alg = 0x0232 then 8 + 320 + 2884 else 8 + 640) else decide (aux ≤ 255))
  else if op = 0x5002 then
    msgOk && (if isStateful alg then aux == pk + pqOut alg else decide (pk + pqOut alg ≤ aux ∧ aux ≤ pk + pqOut alg + 255))
  else if op = 0x5003 then inp == 0 && aux == pk + (if secret then 0 else 64)
  else if op = 0x5004 then inp == pqOut alg && aux == (if secret then 0 else 64)
  else false

def itemForm (j : Job) : JobEnd :=
  if j.cmd.desc.opcode = 0x5002 then missEnd stSig 0x0185 true
  else if verifyOp j.cmd.desc.opcode then missEnd stMac 0x0185 false
  else earlyEnd stParam 0x0185

/-- A PK opcode of the library. -/
def pqResult (s : State) (j : Job) : State × JobEnd :=
  let op := j.cmd.desc.opcode
  let alg := selAlg j.cmd
  match itemParts j with
  | none => (s, itemForm j)
  | some (aux, inp) =>
      if !pqLensOk op alg j.attrA.isSome (selPrehash j.cmd != 0) (selOption j.cmd) aux.length inp.length then (s, itemForm j)
      else if op = 0x5001 then signResult s j aux inp
      else if op = 0x5002 then verifyResult s j aux inp
      else if op = 0x5003 then encapsResult s j aux
      else decapsResult s j aux inp

/-! LEAVES and LINK (R243, R244) -/

def leavesResult (s : State) (j : Job) : State × JobEnd :=
  let b := ((itemParts j).getD ([], [])).2
  let first := leAt b 8 4
  if b.length ≠ 16 ∨ leAt b 0 8 ≠ 0 ∨ first % 64 ≠ 0 ∨ 2 ^ 20 ≤ first ∨ leAt b 12 4 ≠ 0 then (s, earlyEnd stParam 0x0185)
  else (s, okEnd (statefulLeaves ((j.attrA.map (fun a => a.alg)).getD 0) j.matA first))

def linkResult (s : State) (j : Job) : State × JobEnd :=
  let p := (itemParts j).getD ([], [])
  let b := p.2
  let t := leAt b 0 8
  if b.length ≠ 16 ∨ t = 0 ∨ 2 ^ 20 < t ∨ leAt b 8 8 ≠ 0 ∨ p.1.length ≠ 640 then (s, earlyEnd stParam 0x0185)
  else
    let r := hssLink j.matA (t - 1) p.1
    if !r.1 then (s, failEnd stParam 0x0187) else (s, okEnd r.2)

/-! KEY_DERIVE: the combiners (R247) and the DUKPT initial key (R270) -/

def deriveResult (s : State) (j : Job) : State × JobEnd :=
  match itemParts j with
  | none => (s, itemForm j)
  | some (aux, _) =>
      let ps := j.cmd.desc.select % 65536
      let t := tenantOf s j.cmd.fn
      let block := aux.take 64
      let rest := aux.drop 64
      if ps = 0x0D01 then
        if aux.length ≠ 72 then (s, itemForm j)
        else
          let alg := (j.attrA.map (fun a => a.alg)).getD 0
          match derivedAttr block t [alg] (attrHas j.attrA flParkWide) (attrHas j.attrA flExportable) (attrFloor j.attrA) 0 with
          | .error e => (s, failEnd e.1 e.2)
          | .ok a =>
              let mat := dukptInitial j.matA rest
              match createDerived s a mat with
              | .error e => (s, failEnd e.1 e.2)
              | .ok (s1, h) => (s1, okEnd (leBytes 4 h))
      else
        if aux.length < 64 ∨ 64 + 4096 < aux.length then (s, itemForm j)
        else
          match derivedAttr block t [0x0103, 0x0121, 0x0122] (attrHas j.attrA flParkWide && attrHas j.attrB flParkWide)
              (attrHas j.attrA flExportable && attrHas j.attrB flExportable)
              (max (attrFloor j.attrA) (attrFloor j.attrB)) 0x0189 with
          | .error e => (s, failEnd e.1 e.2)
          | .ok a =>
              let mat := if ps = 0x0F01 then kmac256 (j.matA ++ j.matB) rest (ascii "SX256Q HYBRID") 32
                else sha3_256 (j.matA ++ j.matB ++ rest ++ ascii "SX256Q HYBRID")
              match createDerived s a mat with
              | .error e => (s, failEnd e.1 e.2)
              | .ok (s1, h) => (s1, okEnd (leBytes 4 h))

/-! Payment functions (R268 to R273) -/

/-- The value of an ASCII digit. -/
def digitOf (b : Byte) : Option Nat := if 0x30 ≤ b.toNat ∧ b.toNat ≤ 0x39 then some (b.toNat - 0x30) else none

/-- A PAN field of 20 bytes: length 12 to 19, ASCII digits, zero-filled. -/
def panOk (b : Bytes) : Bool :=
  let n := leAt b 0 1
  decide (12 ≤ n ∧ n ≤ 19) && ((b.drop 1).take n).all (fun x => (digitOf x).isSome)
    && ((b.drop (1 + n)).take (19 - n)).all (fun x => x == 0)
def panDigits (b : Bytes) : Bytes := (b.drop 1).take (leAt b 0 1)

def selInFmt (c : Cmd) : Nat := c.desc.select % 16
def selOutFmt (c : Cmd) : Nat := c.desc.select / 16 % 16
def selDukpt (c : Cmd) : Bool := c.desc.select.testBit 8

/-- The transaction counter of a KSN is zero or has more than 16 bits set (R270). -/
def ksnBad (ksn : Bytes) : Bool :=
  let c := beAt ksn 8 4
  c == 0 || decide (16 < ((List.range 32).filter (fun i => c.testBit i)).length)

/-- The key a PIN block comes under: KEY_A, or the DUKPT PIN key of the KSN. -/
def pinKey (j : Job) (ksn : Bytes) : Bytes :=
  if selDukpt j.cmd then dukptPinKey (dukptInitial j.matA (ksn.take 8)) ksn else j.matA

/-- Fields of the auxiliary buffer that a form does not use must be zero. -/
def pinAuxOk (c : Cmd) (aux : Bytes) : Bool := selDukpt c || ((aux.drop 20).take 12).all (fun x => x == 0)

def pinTranslate (s : State) (j : Job) (aux inp : Bytes) : State × JobEnd :=
  let fi := selInFmt j.cmd
  let fo := selOutFmt j.cmd
  let oneToOne := decide (fi = 1 ∧ fo = 1)
  let ksn := (aux.drop 20).take 12
  let pan := if oneToOne then [] else asciiDigits (panDigits aux)
  if !(if oneToOne then (aux.take 20).all (fun x => x == 0) else panOk aux) || !pinAuxOk j.cmd aux then
    (s, earlyEnd stParam 0x01AA)
  else if selDukpt j.cmd && ksnBad ksn then (s, earlyEnd stRange 0x01A9)
  else match pinField fi (pinOpen fi (pinKey j ksn) inp pan) with
    | none => (s, failEnd stDerive 0x01A8)
    | some pin => (bumpCtr s, okEnd (pinSeal fo j.matB (pinBuild fo (s.freeCtr + 1) pin) pan))

def pinVerify (s : State) (j : Job) (aux inp : Bytes) : State × JobEnd :=
  let fi := selInFmt j.cmd
  let ksn := (aux.drop 20).take 12
  let pan := asciiDigits (panDigits aux)
  let ref := (aux.drop 32).take 16
  let refKey := if selDukpt j.cmd then dukptInitial j.matA (ksn.take 8) else j.matA
  if !panOk aux || !pinAuxOk j.cmd aux then (s, missEnd stMac 0x01AA false)
  else if selDukpt j.cmd && ksnBad ksn then (s, missEnd stMac 0x01A9 false)
  else match pinField fi (pinOpen fi (pinKey j ksn) inp pan), pinField 4 (pinOpen 4 refKey ref pan) with
    | some a, some b => if a = b then (s, matchEnd []) else (s, missEnd stMac 0x01AE false)
    | _, _ => (s, missEnd stMac 0x01A8 false)

def emvVerify (s : State) (j : Job) (aux inp : Bytes) : State × JobEnd :=
  let aes := isAes ((j.attrA.map (fun a => a.alg)).getD 0)
  let arqc := (aux.drop 24).take 8
  let sk := emvSession aes j.matA (asciiDigits (panDigits aux)) (leAt aux 20 1) ((aux.drop 22).take 2)
  if !panOk aux || !(leAt aux 21 1 == 0) || !(leAt aux 36 4 == 0) then (s, missEnd stMac 0x01AA false)
  else if emvMac aes sk inp ≠ arqc then (s, missEnd stMac 0x01AD false)
  else if j.cmd.desc.select.testBit 0 then
    (s, matchEnd (emvArpc aes (!j.cmd.desc.select.testBit 1) sk arqc ((aux.drop 32).take 4)))
  else (s, matchEnd [])

/-- The card verification value of R272: three ASCII digits. -/
def cvvOf (key inp : Bytes) : Bytes :=
  let m := fromNibbles (leftField 32 0 (asciiDigits (panDigits inp ++ (inp.drop 20).take 7)))
  ((decimalize (nibbles (retailMac key m))).take 3).map (fun x => BitVec.ofNat 8 (0x30 + x))

/-- The input of the CVV opcodes: PAN, expiry and service code in ASCII digits, zeros. -/
def cvvInputOk (b : Bytes) : Bool :=
  panOk b && ((b.drop 20).take 7).all (fun x => (digitOf x).isSome) && ((b.drop 27).take 5).all (fun x => x == 0)

def cvvGen (s : State) (j : Job) (inp : Bytes) : State × JobEnd :=
  if !cvvInputOk inp then (s, earlyEnd stParam 0x01AA) else (s, okEnd (cvvOf j.matA inp ++ [0]))

def cvvVerify (s : State) (j : Job) (aux inp : Bytes) : State × JobEnd :=
  if !cvvInputOk inp then (s, missEnd stMac 0x01AA false)
  else if cvvOf j.matA inp = aux then (s, matchEnd []) else (s, missEnd stMac 0x01AF false)

/-- Lengths of a payment item's parts (R268, R271, R272). -/
def payLensOk (c : Cmd) (aux inp : Nat) : Bool :=
  let op := c.desc.opcode
  let blk := if selInFmt c = 4 then 16 else 8
  if op = 0x3006 then inp == blk && aux == 32
  else if op = 0x3007 then inp == blk && aux == 48
  else if op = 0x3008 then decide (1 ≤ inp ∧ inp ≤ 256) && aux == 40
  else if op = 0x3009 then inp == 32 && aux == 0
  else inp == 32 && aux == 3

def paymentResult (s : State) (j : Job) : State × JobEnd :=
  let op := j.cmd.desc.opcode
  match itemParts j with
  | none => (s, itemForm j)
  | some (aux, inp) =>
      if !payLensOk j.cmd aux.length inp.length then (s, itemForm j)
      else if op = 0x3006 then pinTranslate s j aux inp
      else if op = 0x3007 then pinVerify s j aux inp
      else if op = 0x3008 then emvVerify s j aux inp
      else if op = 0x3009 then cvvGen s j inp
      else cvvVerify s j aux inp

/-- Is the end decided before any key or random value is touched (R231)? -/
def endsEarly (r : State × JobEnd) : Bool := r.2.early

/-- What a library job returns, by its opcode. -/
def libResult (s : State) (j : Job) : State × JobEnd :=
  let op := j.cmd.desc.opcode
  if op = 0x1004 then deriveResult s j
  else if op = 0x2001 then (if j.prog / 256 % 16 = 7 then linkResult s j else leavesResult s j)
  else if op / 4096 = 3 then paymentResult s j
  else pqResult s j

end Sys2Proof.Machine
end

