-- ==== Sys2Proof/Machine/PoolResults.lean ====
section
/-! DEFINITION. What a big-number operation returns (10_public_key_engines.md R278 to R293). -/

namespace Sys2Proof.Machine

/-- K of an RSA key's material or public key (R280). -/
def rsaK (alg cls len : Nat) : Nat := ((rsaBits alg cls len).getD 0) / 8


/-- The limits of R279 on an RSA public key. -/
def rsaPubOk (k : Nat) (m : Bytes) : Bool :=
  (rsaN k m).testBit 0 && (rsaN k m).testBit (8 * k - 1) && (rsaE k m).testBit 0 && decide (3 ≤ rsaE k m ∧ rsaE k m ≤ 65537)

/-- The public-key checks of R287 and R295; the detail of a failure. -/
def pubBad (alg : Nat) (pk : Bytes) : Option Nat :=
  if alg = 0x0301 then
    match rsaBits alg clsPublic pk.length with
    | none => some 0x0181
    | some k => if rsaPubOk (k / 8) pk then none else some 0x0181
  else if isEcdsa alg then (if leAt pk 0 1 = 4 ∧ wOnCurve alg pk then none else some 0x01C1)
  else if isEddsa alg then (if !ePointOk alg pk then some 0x01C2 else if eIdentity alg pk then some 0x01C1 else none)
  else none

def selHash (c : Cmd) : Nat := c.desc.select / 4096 % 4

def keyCls (j : Job) : Nat := (j.attrA.map (fun a => a.cls)).getD clsPublic

/-- Size of the public key that leads the auxiliary part of a verification without KEY_A. -/
def auxPub (j : Job) (alg : Nat) (aux : Bytes) : Nat :=
  if j.attrA.isSome then 0 else if alg = 0x0301 then (aux.length - 4) / 2 + 4 else ecPub alg

def poolSign (s : State) (j : Job) (aux msg : Bytes) : State × JobEnd :=
  let alg := selAlg j.cmd
  let h := selHash j.cmd
  let k := rsaK alg clsPrivate j.matA.length
  let draw := s.freeCtr + 1
  -- PKCS #1 v1.5, deterministic ECDSA and EdDSA draw no value of their own
  if isEddsa alg then (s, okEnd (edSign alg j.matA aux msg))
  else if isRsa alg then
    (if selOption j.cmd then (s, okEnd (rsaSign true h k j.matA [] msg))
      else if pssFits h k then (bumpCtr s, okEnd (rsaSign false h k j.matA (randBytes draw (hashLen h)) msg))
      else (bumpCtr s, okEnd (padTo k (Sys2Proof.Config.sigMake draw alg j.matA aux msg))))
  else if selOption j.cmd then (s, okEnd (padTo (ecSig alg) ((ecdsaDet alg h j.matA msg).getD [])))
  else (bumpCtr s, okEnd (padTo (ecSig alg) (ecdsaDraw alg draw j.matA msg)))

/-- Does a well-formed signature verify? -/
def poolSigOk (j : Job) (alg : Nat) (pk ctx msg sig : Bytes) : Bool :=
  if isRsa alg then rsaVerify (selOption j.cmd) (selHash j.cmd) (rsaK alg clsPublic pk.length) pk msg sig
  else if isEddsa alg then edVerify alg pk ctx msg sig
  else ecdsaVerify alg pk msg sig

/-- The range and encoding checks on a signature (R287). -/
def sigRangeBad (alg : Nat) (pk sig : Bytes) : Option Nat :=
  if alg = 0x0301 then
    let k := rsaK alg clsPublic pk.length
    if beNat sig = 0 ∨ rsaN k pk ≤ beNat sig then some 0x01C0 else none
  else if isEcdsa alg then
    let h := sig.length / 2
    let r := beNat (sig.take h)
    let x := beNat (sig.drop h)
    let n := curveOrder alg
    if r = 0 ∨ n ≤ r ∨ x = 0 ∨ n ≤ x then some 0x01C0 else none
  else
    let h := sig.length / 2
    if curveOrder alg ≤ leNat (sig.drop h) then some 0x01C0
    else if !(ePointOk alg (sig.take h) && ePointOk alg pk) then some 0x01C2
    else none

def poolVerify (s : State) (j : Job) (aux msg : Bytes) : State × JobEnd :=
  let alg := selAlg j.cmd
  let r := takePub j aux (auxPub j alg aux)
  let n := if alg = 0x0301 then rsaK alg clsPublic r.1.length else ecSig alg
  let sig := r.2.take n
  let bad := match (if j.attrA.isNone then pubBad alg r.1 else none) with
    | some d => some d
    | none => sigRangeBad alg r.1 sig
  match bad with
  | some d => (s, missEnd stSig d true)
  | none =>
      if poolSigOk j alg r.1 (r.2.drop n) msg sig then (s, matchEnd [])
      else (s, missEnd stSig 0x0184 false)

/-- Algorithms of the object that holds Z (R229, R293); none for P-521. -/
def deriveAlgs (alg : Nat) : List Nat := if alg = 0x0313 then [] else [0x0103, 0x0121, 0x0122]

def zLen (alg : Nat) : Nat := if isEcdsa alg then ecScalar alg else ecPub alg

def poolDerive (s : State) (j : Job) (aux peer : Bytes) : State × JobEnd :=
  let alg := selAlg j.cmd
  -- Z of 32 bytes fits every algorithm, a longer one only HMAC and KMAC secrets
  let algs := if zLen alg = 32 then deriveAlgs alg else (deriveAlgs alg).filter (fun a => a != 0x0103)
  if isEcdsa alg && leAt peer 0 1 != 4 then (s, earlyEnd stPoint 0x01C2)
  else if isEcdsa alg && !wOnCurve alg peer then (s, earlyEnd stPoint 0x01C1)
  else match attrEarly s j aux algs (attrFloor j.attrA) with
    | some e => (s, earlyEnd e.1 e.2)
    | none =>
        match ecAgree alg j.matA peer with
        | none => (s, failEnd stDerive 0x01C4)
        | some z =>
            let z := padTo (zLen alg) z
            if isXdh alg && z.all (fun x => x == 0) then (s, failEnd stDerive 0x01C4)
            else secretOut s j aux algs (attrFloor j.attrA) z []

def poolEncrypt (s : State) (j : Job) (aux msg : Bytes) : State × JobEnd :=
  let k := rsaK 0x0301 clsPublic j.matA.length
  (bumpCtr s, okEnd (rsaEncrypt (selHash j.cmd) k j.matA (randBytes (s.freeCtr + 1) (hashLen (selHash j.cmd))) aux msg))

def poolDecrypt (s : State) (j : Job) (aux ct : Bytes) : State × JobEnd :=
  let k := rsaK 0x0301 clsPrivate j.matA.length
  if beNat ct = 0 ∨ rsaN k j.matA ≤ beNat ct then (s, earlyEnd stRange 0x01C3)
  else match rsaDecrypt (selHash j.cmd) k j.matA aux ct with
    | none => (s, failEnd stDerive 0x01C5)
    | some m => (s, okEnd m)

/-- k of R279 from the auxiliary length of an RSA verification without KEY_A: AUX_LEN = 2K + 4. -/
def auxRsaBits (aux : Nat) : Option Nat :=
  if aux < 4 ∨ (aux - 4) % 2 = 1 then none else rsaBits 0x0301 clsPublic ((aux - 4) / 2 + 4)

/-- Lengths of a pool item's parts (R281); the detail of a failure. -/
def poolLens (op alg hash : Nat) (opt : Bool) (key : Option Attr) (aux inp : Nat) : Option Nat :=
  let cls := (key.map (fun a => a.cls)).getD clsPublic
  let k := match key with
    | some a => rsaK alg cls a.len
    | none => ((auxRsaBits aux).getD 0) / 8
  let bad (b : Bool) : Option Nat := if b then none else some 0
  if op = 0x5001 then
    if isEddsa alg then bad (decide (inp ≤ 1024) && (if alg = 0x0322 then decide (aux ≤ 255) else aux == 0))
    else bad (inp == hashLen hash && aux == 0)
  else if op = 0x5002 then
    if alg = 0x0301 then
      if key.isNone then (if (auxRsaBits aux).isNone then some 0x01C8 else bad (inp == hashLen hash))
      else bad (inp == hashLen hash && aux == k)
    else
      let pk := if key.isSome then 0 else ecPub alg
      let n := pk + ecSig alg
      if isEddsa alg then bad (decide (inp ≤ 1024) && (if alg = 0x0322 then decide (n ≤ aux ∧ aux ≤ n + 255) else aux == n))
      else bad (inp == hashLen hash && aux == n)
  else if op = 0x5005 then bad (inp == ecPub alg && aux == (if opt then 0 else 64))
  else if op = 0x5006 then bad (decide (inp + 2 * hashLen hash + 2 ≤ k ∧ aux ≤ 255))
  else bad (inp == k && decide (aux ≤ 255))

/-- A pool operation, by its opcode. -/
def poolResult (s : State) (j : Job) : State × JobEnd :=
  let op := j.cmd.desc.opcode
  match itemParts j with
  | none => (s, itemForm j)
  | some (aux, inp) =>
      if (poolLens op (selAlg j.cmd) (selHash j.cmd) (selOption j.cmd) j.attrA aux.length inp.length).isSome then (s, itemForm j)
      else if op = 0x5001 then poolSign s j aux inp
      else if op = 0x5002 then poolVerify s j aux inp
      else if op = 0x5005 then poolDerive s j aux inp
      else if op = 0x5006 then poolEncrypt s j aux inp
      else poolDecrypt s j aux inp

end Sys2Proof.Machine
end

