-- ==== Sys2Proof/Machine/Lodge.lean ====
section
/-! DEFINITION. The Lodge: applet partitions, calls and gates, mailbox rings, protection units, holds on power
(14_lodge_protection.md R374 to R398; 01_organisation.md R28 to R30). -/

namespace Sys2Proof.Machine

def ldgInt (s : State) (b : Nat) : State :=
  let d := { s.ldg with intStatus := s.ldg.intStatus ||| 2 ^ b }
  vectorFor { s with ldg := d } (newBit s.ldg.intStatus b) d.intEnable 55

def setPart (s : State) (p : Nat) (a : Applet) : State := { s with ldg := { s.ldg with parts := kins s.ldg.parts p a } }

/-! Protection units (R386 to R392) -/

def mpuIx (m r : Nat) : Nat := 16 * m + r
def getRegion (s : State) (m r : Nat) : Region := kget (fun _ => regionReset) s.mpu.active (mpuIx m r)
def getFault (s : State) (m : Nat) : MpuFault := kget (fun _ => mpuFaultReset) s.mpu.fault m

/-- A region write of the keeper: form (R388). -/
def regionForm (b : Bytes) : Bool :=
  let z := leAt b 4 1
  b.length == 16 && (z == 0 || (decide (12 ≤ z ∧ z ≤ 32) && leAt b 0 4 % 2 ^ z == 0))
    && bitsOf (leAt b 5 1) 6 3 == 0 && decide (leAt b 6 2 < 1024 ∧ leAt b 8 2 < 1024) && leAt b 10 6 == 0

def regionParse (b : Bytes) : Region :=
  { base := leAt b 0 4, sizeLog2 := leAt b 4 1, perm := leAt b 5 1, master := leAt b 6 2, mask := leAt b 8 2 }

def regionLocked (r : Region) : Bool := r.perm.testBit 7

/-- Put a region into the staged copy; while a commit drains the write is held (R392). -/
def stageRegion (s : State) (ix : Nat) (r : Region) : State :=
  if s.mpu.committing then { s with mpu := { s.mpu with heldWrites := s.mpu.heldWrites ++ [(ix, r)] } }
  else { s with mpu := { s.mpu with staged := kset (fun _ => regionReset) s.mpu.staged ix r } }

/-- MPU_REGION_WRITE: ignored and recorded if malformed; a locked region ignores it and sets LOCKED_WRITE (R388, R390). -/
def execMpuRegionWrite (mpu : Fin 24) (region : Fin 16) (bytes : Bytes) (s : State) : Host.Outcome State Fault Refusal :=
  answerLive s (
    let ix := mpuIx mpu.val region.val
    if !regionForm bytes then record s 0x0A04 mpu.val sevWarning none (payState 0 0 1 region.val 0)
    else if regionLocked (getRegion s mpu.val region.val) then
      record { s with mpu := { s.mpu with lockedWrite := true } } 0x0A04 mpu.val sevWarning none (payState 0 0 0 region.val 0)
    else stageRegion s ix (regionParse bytes))

/-- The commit edge: every staged change becomes active together, and the epoch advances (R392). -/
def mpuEdge (s : State) (old : Nat) : State :=
  { s with mpu := { s.mpu with
      active := s.mpu.staged, epoch := (s.mpu.epoch + 1) % 2 ^ 32, commits := satInc 32 s.mpu.commits,
      committing := decide (0 < old), draining := old, drainTick := s.tick } }

/-- A commit of a command that changes rules (R393), with no old-epoch access outstanding. -/
def mpuCommitNow (s : State) : State := mpuEdge s 0

/-- MPU_COMMIT: the keeper commits staged rules; `old` accesses of the old epoch are in flight. Commits are
serialised. -/
def execMpuCommit (old : Nat) (s : State) : Host.Outcome State Fault Refusal :=
  answer s (if s.mpu.committing then s else mpuEdge s old)

/-- The staging writes held during the drain take effect on the staged copy. -/
def applyHeld (s : State) : State :=
  { s with mpu := { s.mpu with
      staged := s.mpu.heldWrites.foldl (fun m w => kset (fun _ => regionReset) m w.1 w.2) s.mpu.staged, heldWrites := [] } }

/-- MPU_DRAIN_DONE: old-epoch accesses have retired and the commit returns. -/
def execMpuDrainDone (s : State) : Host.Outcome State Fault Refusal :=
  answer s (if s.mpu.committing then applyHeld { s with mpu := { s.mpu with committing := false, draining := 0 } } else s)

/-- MPU_DRAIN_TIMEOUT: more than 2 µs after the edge the drain has not ended: the new rules stay active and a full reset
is requested (R392). 2 µs is 2.1 ticks. -/
def execMpuDrainTimeout (s : State) : Host.Outcome State Fault Refusal :=
  answer s (if s.mpu.committing && decide (0 < s.mpu.draining) && decide (s.mpu.drainTick + 3 ≤ s.tick) then
      let s1 := ldgInt { s with mpu := { s.mpu with drainTimeout := true } } 4
      requestReset (record s1 0x0A05 0 sevFault none (payState 0 0 0 s.mpu.epoch s.mpu.draining)) 9 0 false false
    else s)

/-- The kind of an access and the right it needs. -/
def accessRight : Access → Nat
  | .read => 0 | .write => 1 | .exec => 2

/-- A region matches an access (R389). -/
def regionMatch (r : Region) (master addr : Nat) : Bool :=
  r.sizeLog2 != 0 && decide (r.base ≤ addr ∧ addr < r.base + 2 ^ r.sizeLog2) && ((master ^^^ r.master) &&& r.mask) == 0

/-- The first matching region of 0 to 15. -/
def firstMatch (s : State) (m master addr : Nat) : Option Region :=
  ((List.range 16).map (getRegion s m)).find? (fun r => regionMatch r master addr)

/-- The default map of a privileged master (R389). -/
def defaultMap (s : State) (m master : Nat) (k : Access) : Bool :=
  let rw := k == .read || k == .write
  if master = 0x000 then rw && !s.ldg.assignLock
  else if master = 0x001 then rw
  else if master = 0x002 then rw && (m == 1 || m == 3)
  else if master = 0x100 then
    (rw && (m == 3 || m == 8 || m == 18 || m == 19 || m == 23)) || (k == .read && m == 2)
  else if master = 0x101 then (k == .read && m == 2) || (rw && m == 20)
  else false

/-- What an MPU decides: granted, or denied with NO_MATCH and the deciding region's lock. -/
inductive Decision where
  | grant
  | deny (noMatch locked : Bool)
deriving DecidableEq, Repr

def mpuDecide (s : State) (m master addr : Nat) (k : Access) : Decision :=
  match firstMatch s m master addr with
  | some r => if r.perm.testBit (accessRight k) then .grant else .deny false (regionLocked r)
  | none => if defaultMap s m master k then .grant else .deny true false

/-- The record of a denial (R391). -/
def denialRecord (s : State) (m master addr : Nat) (k : Access) (noMatch locked : Bool) : State :=
  let f := getFault s m
  let f' : MpuFault := { addr := addr, master := master, write := k == .write, noMatch := noMatch, locked := locked,
                         epoch := s.mpu.epoch % 256, count := if f.count < 255 then f.count + 1 else 255 }
  let s1 := { s with mpu := { s.mpu with fault := kset (fun _ => mpuFaultReset) s.mpu.fault m f', denied := satInc 32 s.mpu.denied } }
  let s2 := record (ldgInt s1 0) 0x0A01 m sevWarning none (payState 0 0 0 addr master)
  pmcDev s2 198 1

/-! Applet partitions (R376 to R381) -/

/-- The partition that waits next after `lastPart`, in round robin: one with a call running or queued that no core serves. -/
def wantsCore (s : State) (p : Nat) : Bool :=
  match kfind s.ldg.parts p with
  | some a => !a.faulted && (match a.running with
      | some r => r.ret.isNone
      | none => a.queue != []) && !s.ldg.cores.any (fun c => c.2 == p)
  | none => false

def nextPart (s : State) : Option Nat :=
  let order := (List.range 63).map (fun i => (s.ldg.lastPart + i) % 63 + 1)
  order.find? (wantsCore s)

/-- Give a free core of 4 to 7 to the next partition; its first queued call starts (R375, R379). -/
def giveCore (s : State) (core : Nat) : State :=
  match nextPart s with
  | none => s
  | some p =>
      match kfind s.ldg.parts p with
      | none => s
      | some a =>
          let a' := match a.running, a.queue with
            | none, c :: r => { a with
                running := some { cmd := c, since := s.tick, ret := none }, queue := r, calls := a.calls + 1, gateOut := 0 }
            | _, _ => a
          setPart { s with ldg := { s.ldg with cores := kins s.ldg.cores core p, lastPart := p } } p a'

/-- Cores 4 to 7 that serve no partition take the next ones. -/
def dispatchApplets (s : State) : State :=
  [4, 5, 6, 7].foldl (fun s c => if (kfind s.ldg.cores c).isSome then s else giveCore s c) s

/-- Take the partition off its core. -/
def freeCore (s : State) (p : Nat) : State :=
  { s with ldg := { s.ldg with cores := kfilter (fun _ q => q != p) s.ldg.cores } }

/-- SLICE_TIMER: every 64 ticks cores 4 to 7 switch to the next pending partitions (R375). -/
def execSliceTimer (s : State) : Host.Outcome State Fault Refusal :=
  answer s (if s.ldg.visitorUp ∧ s.ldg.sliceTick + 64 ≤ s.tick then
      dispatchApplets { s with ldg := { s.ldg with cores := [], sliceTick := s.tick } }
    else s)

/-- End the running call of a partition with a status; queued calls go on (R379). -/
def endCall (s : State) (p : Nat) (status detail : Nat) (out : Bytes) : State :=
  match kfind s.ldg.parts p with
  | none => s
  | some a =>
      match a.running with
      | none => s
      | some r =>
          let s1 := freeCore (setPart s p { a with running := none, gateOut := 0 }) p
          if status = 0 then completeOut s1 r.cmd out else completeCmd s1 r.cmd status detail

/-- Zero a partition's granules and take it away; the removal commits (R378). -/
def removePart (s : State) (p : Nat) (c : Cmd) : State :=
  match kfind s.ldg.parts p with
  | none => s
  | some a =>
      let s1 := mpuCommitNow { s with ldg := { s.ldg with parts := kdel s.ldg.parts p } }
      completeCmd (critCommitted { codeRemove s1 .applet a.ident with aut := { s1.aut with busy := none } } c) c 0 0

/-- After a call has ended: a waiting removal proceeds, else the cores go on. -/
def afterCall (s : State) (p : Nat) : State :=
  match kfind s.ldg.parts p with
  | none => dispatchApplets s
  | some a =>
      match a.removing with
      | some c => dispatchApplets (removePart s p c)
      | none => dispatchApplets s

/-- Statuses an applet may return (R379). -/
def appletStatuses : List Nat := [0x0000, 0x0101, 0x0606, 0x0405, 0x0104]

/-- APPLET_RETURN: the call returns once all its gate commands have completed (R379, R380). -/
def appletReturn (go : State → State) (p status : Nat) (output : Bytes) (s : State) : State :=
  match kfind s.ldg.parts p with
  | none => s
  | some a =>
      if a.running.isNone then s
      else if a.gateOut ≠ 0 then
        dispatchApplets (freeCore (setPart s p { a with running := a.running.map (fun r => { r with ret := some (status, output) }) }) p)
      else if a.removing.isSome then go (afterCall (endCall s p stDenied 0x0244 []) p)
      else if !appletStatuses.contains status then afterCall (endCall s p stProgram 0x014E []) p
      else if status = stOutSmall then
        match a.running with
        | some r => afterCall (complete (freeCore (setPart s p { a with running := none }) p) r.cmd.fn r.cmd.queue
            r.cmd.desc.tag stOutSmall 0 output.length 0) p
        | none => s
      else afterCall (endCall s p status 0 output) p

/-- The calls whose applet has returned and whose last gate command has completed. -/
def finishReturns (go : State → State) (s : State) : State :=
  s.ldg.parts.foldl (fun s e => match kfind s.ldg.parts e.1 with
    | none => s
    | some a => match a.running with
      | none => s
      | some r => match r.ret with
        | some x => if a.gateOut = 0 then appletReturn go e.1 x.1 x.2 s else s
        | none => s) s

/-- CALL_BUDGET_EXPIRE: a call still running at its budget ends with ABORTED; its gate commands' completions are
discarded (R379, R380). -/
def budgetExpire (go : State → State) (p : Nat) (s : State) : State :=
  match kfind s.ldg.parts p with
  | none => s
  | some a =>
      match a.running with
      | none => s
      | some r =>
          if r.since + a.budget ≤ s.tick then
            if a.removing.isSome then go (afterCall (endCall s p stDenied 0x0244 []) p)
            else afterCall (endCall s p stAborted 0x0247 []) p
          else s

/-- A partition faults (R381). -/
def faultPart (s : State) (p : Nat) : State :=
  match kfind s.ldg.parts p with
  | none => s
  | some a =>
      let s1 := endCall s p stAborted 0x0246 []
      let s2 := a.queue.foldl (fun s c => completeCmd s c stDenied 0x0246) s1
      let s3 := match kfind s2.ldg.parts p with
        | some b => setPart s2 p { b with faulted := true, queue := [] }
        | none => s2
      dispatchApplets (freeCore (record (ldgInt s3 1) 0x0A02 p sevWarning (if a.isScoped then some a.tenant else none)
        (payState 0 0 0 a.ident 0)) p)

/-- STAGE2_FAULT: an access without mapping or right, or an undefined operation, in a partition. A fault in partition 0
is a Lodge fault (R375, R381). -/
def stage2Fault (go : State → State) (p : Nat) (s : State) : State :=
  if p = 0 then requestReset s 7 0 false false
  else match kfind s.ldg.parts p with
    | none => s
    | some a =>
        match a.removing with
        | some c => go (removePart (faultPart s p) p c)
        | none => faultPart s p

/-- LODGE_FAULT: a fault in partition 0, the hypervisor or the keeper world (R381, R450). -/
def execLodgeFault (s : State) : Host.Outcome State Fault Refusal := answer s (requestReset s 7 0 false false)

/-- MPU_DENIAL: an access reaches an MPU; when it is denied, it is recorded and the master responds (R389, R391). -/
def mpuDenial (go : State → State) (m master addr : Nat) (k : Access) (s : State) : State :=
  match mpuDecide s m master addr k with
  | .grant => s
  | .deny noMatch locked =>
      let s1 := denialRecord s m master addr k noMatch locked
      if master = 0x001 then requestReset s1 7 0 false false
      else if 0x040 ≤ master ∧ master < 0x080 then stage2Fault go (master - 0x040) s1
      else s1

/-- ADMIN_APPLET_CALL at its acceptance by the vendor command firmware (R379). -/
def doAppletCall (c : Cmd) (s : State) : State :=
  let p := c.desc.select % 64
  match kfind s.ldg.parts p with
  | none => completeCmd s c stDenied 0x0244
  | some a =>
      if (a.isScoped && a.tenant != tenantOf s c.fn) || a.removing.isSome then completeCmd s c stDenied 0x0244
      else if a.faulted then completeCmd s c stDenied 0x0246
      else if 64 ≤ a.queue.length then completeCmd s c stDenied 0x0245
      else if 65536 < c.desc.inLen ∨ 65536 < c.desc.outLen then completeCmd s c stLength 0
      else dispatchApplets (pmcDev (setPart s p { a with queue := a.queue ++ [c] }) 197 1)

/-- The opcodes a gate admits: non-critical KEY, RUN, SYM, DIGEST, PK and RNG (R380). -/
def gateOpcode (op : Nat) : Bool := decide (1 ≤ op / 4096 ∧ op / 4096 ≤ 6) && !op.testBit 4

/-- GATE_SUBMIT: only while a call runs; the command comes from the calling function, and its queue tells the call. `accept` is the gatehouse's
acceptance. -/
def gateSubmit (accept : Cmd → State → State) (p : Nat) (c : Cmd) (inMap : Bool) (s : State) : State :=
  match kfind s.ldg.parts p with
  | none => s
  | some a =>
      match a.running with
      | none => s
      | some r =>
          if 64 ≤ a.gateOut ∨ r.ret.isSome then s
          else
            let c' := { c with fn := r.cmd.fn, queue := 256 + 64 * a.calls + p }
            let s1 := setPart s p { a with gateOut := a.gateOut + 1 }
            if !gateOpcode c.desc.opcode then completeReject s1 c' stParam 0x0021
            else if !inMap then completeReject s1 c' stDma 0
            else accept c' s1

/-! Applet images (R377, R378) -/

def appletForm (b : Bytes) : Bool :=
  let resident := (leAt b 5 1).testBit 0
  let ways := leAt b 6 1
  let mem := leAt b 16 4
  let cl := leAt b 20 4
  b.take 4 == [0x41, 0x50, 0x4C, 0x54] && leAt b 4 1 == 1 && decide (leAt b 5 1 < 2)
    && (if resident then decide (1 ≤ ways ∧ ways ≤ 4) else ways == 0) && leAt b 7 1 == 0
    && bitsOf (leAt b 12 2) 14 12 == 0 && ((leAt b 12 2).testBit 15 || leAt b 12 2 == 0) && leAt b 14 2 == 0
    && mem % 64 == 0 && decide (64 ≤ mem ∧ mem ≤ 1024) && decide (cl ≤ mem * 1024) && decide (1 ≤ leAt b 24 2)
    && leAt b 26 2 == 0 && decide (leAt b 28 4 < cl) && b.length == 32 + cl + 3405

/-- Visitor ways that resident partitions hold, partition 0's included, and how many (R382). -/
def heldWays (s : State) : List Nat := (if s.ldg.visitorUp then s.ldg.p0Ways else []) ++ s.ldg.parts.flatMap (fun p => p.2.ways)
def residentWays (s : State) : Nat := (heldWays s).length
def residentCount (s : State) : Nat :=
  (if s.ldg.visitorUp then 1 else 0) + (s.ldg.parts.filter (fun p => p.2.ways != [])).length

/-- `n` of the ways not held, one draw each. -/
def takeWays (held : List Nat) : Nat → Nat → List Nat
  | 0, _ => []
  | n + 1, draw =>
      let free := (List.range 12).filter (fun w => !held.contains w)
      match free[Sys2Proof.Config.wayChoice draw % free.length]? with
      | some w => w :: takeWays (w :: held) n (draw + 1)
      | none => []

def granuleFree (s : State) (g : Nat) : Bool := s.ldg.parts.all (fun p => !p.2.granules.contains g)
def freeGranules (s : State) : List Nat := (List.range 96).filter (granuleFree s)

def freePart (s : State) : Option Nat := (List.range 63).find? (fun i => (kfind s.ldg.parts (i + 1)).isNone)

def appletCheck (s : State) (fn : Nat) (b : Bytes) : Res (Nat × Applet) := do
  failIf (!appletForm b) stParam 0x0240
  let id := leAt b 8 4
  let pub := id / 2 ^ 24
  let isScoped := (leAt b 12 2).testBit 15
  let tenant := leAt b 12 2 % 4096
  let mem := leAt b 16 4
  let ways := leAt b 6 1
  match publisherKeys s pub with
  | none => reject stDenied 0x0168
  | some k =>
    failIf (!signedBy k b "SX256Q APPLET") stDenied 0x016F
    failIf (!scopeOk s fn pub isScoped tenant) stDenied 0x0169
    failIf (s.ldg.parts.any (fun p => p.2.ident / 256 == id / 256)) stDenied 0x016A
    match freePart s with
    | none => reject stDenied 0x0241
    | some i =>
      failIf (decide ((freeGranules s).length < mem / 64)) stDenied 0x0242
      failIf (isScoped && decide ((quotaOf s tenant).programKib < programKib s tenant + mem)) stDenied dQuotaProgram
      failIf (ways != 0 && (decide (12 < residentWays s + ways) || decide (12 ≤ residentCount s))) stDenied 0x0243
      failIf (!codeRoom s b.length) stDenied 0x02A4
      .ok (i + 1, { ident := id, isScoped := isScoped, tenant := tenant, granules := (freeGranules s).take (mem / 64),
                    memKib := mem, ways := takeWays (heldWays s) ways s.freeCtr, budget := leAt b 24 2, entry := leAt b 28 4,
                    queue := [], running := none, calls := 0, gateOut := 0, faulted := false, removing := none })

def performAppletLoad (c : Cmd) (s : State) : State :=
  match appletCheck s c.fn c.input with
  | .error e => completeCmd s c e.1 e.2
  | .ok (p, a) =>
      if outRoom c < 4 then complete s c.fn c.queue c.desc.tag stOutSmall 0 4 0
      else
        let s0 := { s with freeCtr := s.freeCtr + a.ways.length }
        let s1 := measOf (codeAdd (mpuCommitNow (setPart s0 p a)) .applet a.ident c.input) 4 c.input
        completeOut (critCommitted s1 c) c (leBytes 1 p ++ [0, 0, 0])

/-- Removal: queued calls end; a running call ends first, when it returns or reaches its budget (R378). -/
def performAppletRemove (c : Cmd) (s : State) : State :=
  let p := leAt c.input 0 1
  if leAt c.input 1 3 ≠ 0 then completeCmd s c stParam dReserved
  else match kfind s.ldg.parts p with
    | none => completeCmd s c stDenied 0x0244
    | some a =>
        if isVf c.fn && !(a.isScoped && a.tenant == tenantOf s c.fn) then completeCmd s c stDenied 0x0244
        else
          let s1 := a.queue.foldl (fun s q => completeCmd s q stDenied 0x0244) (setPart s p { a with queue := [], removing := some c })
          if a.running.isSome then { s1 with aut := { s1.aut with busy := some c } } else removePart s1 p c

/-! Mailbox rings (R384, R385) -/

/-- A ring takes an entry unless its 64 places are full: then its writer waits. -/
def ringPut (ring : List Bytes) (e : Bytes) : List Bytes := if ring.length < 64 then ring ++ [e] else ring

/-- KREQ_ENTRY: partition 0 has written an entry and rung the doorbell; the keeper takes the oldest entry of the ring. `known`: it
knows the TYPE. -/
def execKreqEntry (entry : Bytes) (known : Bool) (s : State) : Host.Outcome State Fault Refusal :=
  answerLive s (
    let ring := ringPut s.ldg.kreq entry
    let e := ring.headD []
    let s1 := pmcDev { s with ldg := { s.ldg with kreq := ring.drop 1 } } 199 1
    if known ∧ leAt e 2 2 ≤ 56 ∧ leAt e 4 4 = s.ldg.kreqSeq then
      { s1 with ldg := { s1.ldg with kreqSeq := (s.ldg.kreqSeq + 1) % 2 ^ 32 } }
    else
      let d := if s.ldg.discards < 65535 then s.ldg.discards + 1 else 65535
      record (ldgInt { s1 with ldg := { s1.ldg with discards := d } } 5) 0x0A03 0 sevWarning none
        (payState 0 0 0 (leAt e 0 2) (leAt e 4 4)))

/-- The entry the keeper writes next: TYPE, LEN, SEQ and a payload (R384). What it says, the spec leaves to the keeper: its type,
length and payload are free values (log 62). -/
def knoteBytes (s : State) : Bytes :=
  leBytes 2 (Sys2Proof.Config.knoteType s.freeCtr) ++ leBytes 2 (Sys2Proof.Config.knoteLen s.freeCtr % 57)
    ++ leBytes 4 s.ldg.knoteSeq ++ (List.range 56).map (fun i => Sys2Proof.Config.knotePayload s.freeCtr i)

/-- KNOTE_ENTRY: the keeper has written an entry and rung the doorbell; partition 0 takes the oldest entry of the ring. -/
def execKnoteEntry (s : State) : Host.Outcome State Fault Refusal :=
  answerLive s (pmcDev (bumpCtr { s with ldg := { s.ldg with
    knote := (ringPut s.ldg.knote (knoteBytes s)).drop 1, knoteSeq := (s.ldg.knoteSeq + 1) % 2 ^ 32 } }) 199 1)

/-- ASSIGN_LOCK, W1S, by the boot firmware (R383). -/
def execAssignLock (s : State) : Host.Outcome State Fault Refusal :=
  answerLive s { s with ldg := { s.ldg with assignLock := true } }

/-! Power (R28 to R30, R395) -/

/-- Is a domain in use (R395)? `inService p`: pavilion p takes jobs. -/
def domainInUse (s : State) (d : Nat) : Bool :=
  if d < 16 then !s.rep.pavs.contains d
  else if d = 16 ∨ d = 17 then s.prk.st != .alone
  else if d = 18 then s.aut.wait.isSome || s.aut.ceremony.isSome || s.aut.startCmd.isSome
  else decide (64 ≤ unflushed s) || s.evt.erasing

def gateBit (s : State) (d : Nat) : State := { s with pwr := { s.pwr with gated := s.pwr.gated ||| 2 ^ d } }
def gateDenied (s : State) : State := ldgInt s 3

/-- GATING_REQUEST of the visitor world: an ungating request is never held. -/
def execGatingRequest (domain : Fin 20) (ungate : Bool) (s : State) : Host.Outcome State Fault Refusal :=
  answerLive s (
    let d := domain.val
    if ungate then
      { s with pwr := { s.pwr with gated := bitClear s.pwr.gated d } }
    else if (kfind s.pwr.pendingGate d).isSome then gateDenied s
    else if domainInUse s d then gateDenied s
    else if s.pwr.hold.testBit d then
      if s.pwr.holdTimeout = 0 then gateDenied s
      else ldgInt { s with pwr := { s.pwr with pendingGate := kins s.pwr.pendingGate d (s.tick + s.pwr.holdTimeout) } } 2
    else gateBit s d)

/-- HOLD_TIMEOUT: a held request times out with HELD. -/
def execHoldTimeout (domain : Fin 20) (s : State) : Host.Outcome State Fault Refusal :=
  answer s (match kfind s.pwr.pendingGate domain.val with
    | some due =>
        if due ≤ s.tick then
          record (gateDenied { s with pwr := { s.pwr with pendingGate := kdel s.pwr.pendingGate domain.val } })
            0x0A06 0 sevWarning none (payState 0 0 0 domain.val 0)
        else s
    | none => s)

/-- PWR_HOLD_WRITE by the keeper: a pending request whose HOLD bit is cleared proceeds. -/
def execPwrHoldWrite (value : BitVec 20) (s : State) : Host.Outcome State Fault Refusal :=
  answerLive s (
    let v := value.toNat
    let s1 := { s with pwr := { s.pwr with hold := v } }
    let free := (s1.pwr.pendingGate.filter (fun p => !v.testBit p.1)).map (fun p => p.1)
    free.foldl (fun s d => gateBit { s with pwr := { s.pwr with pendingGate := kdel s.pwr.pendingGate d } } d) s1)

/-- PWR_CAP_WRITE: a value from 40 to 110 is taken from the next window; another is ignored and sets CAP_ERR (R29, R30). -/
def execPwrCapWrite (value : BitVec 32) (s : State) : Host.Outcome State Fault Refusal :=
  answerLive s (
    let v := value.toNat % 128
    if 40 ≤ v ∧ v ≤ 110 then { s with pwr := { s.pwr with capNext := v } }
    else { s with pwr := { s.pwr with capErr := true } })

end Sys2Proof.Machine
end

