-- ==== Sys2Proof/Machine/Tamper.lean ====
section
/-! DEFINITION. Tamper sources, their responses, the quench, the peat domain and its operation on the cell
(15_tamper_peat.md R399 to R418) and the power window (01_organisation.md R28, R29). -/

namespace Sys2Proof.Machine

def getSrcCfg (s : State) (i : Nat) : SrcCfg := kget srcCfgDefault s.tmp.cfg i
def getCnt (s : State) (i : Nat) : SrcCount := kget (fun _ => srcCountReset) s.tmp.cnt i
def setCnt (s : State) (i : Nat) (c : SrcCount) : State :=
  { s with tmp := { s.tmp with cnt := kset (fun _ => srcCountReset) s.tmp.cnt i c } }
def getWin (s : State) (v : Nat) : Nat × Nat := kget winDefault s.tmp.win v

def tmpInt (s : State) (b : Nat) : State :=
  let d := { s.tmp with intStatus := s.tmp.intStatus ||| 2 ^ b }
  vectorFor { s with tmp := d } (newBit s.tmp.intStatus b) d.intEnable 52

/-- SEALED, FIELD or RETURN. -/
def serving (s : State) : Bool := decide (2 ≤ s.lcs.state ∧ s.lcs.state ≤ 4)

/-- The QUENCHED condition of R416. -/
def quenched (s : State) : Bool := s.peat.latch.isSome && serving s

/-- Key use is suspended: the detail of check 3 (R404, R434). -/
def suspendDetail (s : State) : Option Nat :=
  if s.tmp.level = 3 then some 0x0264 else if s.dbg.suspending then some 0x0280 else none

/-- A job names a key, or holds key material of a blob or a generation (R404). -/
def jobKeyed (j : Job) : Bool :=
  j.attrA.isSome || j.attrB.isSome || j.crit || j.cmd.desc.opcode == 0x1001

/-- The key-suspension of R404 and R434: running jobs that hold key material are aborted at once; a waiting one is aborted
when it would start. -/
def suspendJobs (s : State) : State :=
  abortWhere s (fun j => j.phase == .running && jobKeyed j) stAborted 0x0163 abortDue

/-! The quench (R405 to R408) -/

/-- The defaults that apply after a quench and on entry to SEALED (R415), or in RAW and TEST. -/
def tmpDefaults (s : State) : State :=
  if s.lcs.state < 2 then
    { s with tmp := { s.tmp with
        defaults := true, cfg := (List.range 16).map (fun i => (i, { srcCfgDefault i with resp := 1 })) |>.filter
          (fun p => decide (p.2 ≠ srcCfgDefault p.1)), win := [], tempLow := -45, tempHigh := 115, cellTempLow := -45,
        cellTempHigh := 115, meshEn := 0, throttleDuty := 32 } }
  else
    { s with tmp := { s.tmp with
        defaults := true, cfg := [], win := [], tempLow := -45, tempHigh := 115, cellTempLow := -45, cellTempHigh := 115,
        meshEn := 15, throttleDuty := 32 } }

/-- Clear the secret regions of the BBRAM and write the latch (R408). -/
def peatClear (s : State) (cause source resp : Nat) (onCell : Bool) : State :=
  { s with peat := { s.peat with
      roots := [], ember := [], chan := [], meters := [],
      latch := some { cause := cause, source := source, response := resp, onCell := onCell, hours := s.peat.hours,
                      cycles := s.peat.cycles },
      quenchOutLow := true, quenchOutTick := s.tick } }

/-- Steps 1 and 2 of R405: the part stops, every job in flight is dropped without a completion, the secret regions are
cleared, and the latch is written. -/
def quenchStart (s : State) (cause source resp : Nat) : State :=
  let s1 := peatClear s cause source resp false
  { s1 with
    gth := { s1.gth with jobs := [], held := [], batches := [], ideHeld := [] },
    tmp := { s1.tmp with level := resp, source := source, quench := some { since := s.tick, halt := resp == 5 } } }

/-! Firing (R401 to R403) -/

def respSeverity (resp : Nat) : Nat :=
  if resp = 1 then sevNotice else if resp = 2 then sevWarning else if resp = 3 then sevFault else sevAlarm

/-- What a response does when it fires, a more severe one superseding a lesser one (R402, R403). -/
def respond (s : State) (src resp : Nat) : State :=
  match s.tmp.quench with
  | some q =>
      if resp = 5 then
        { s with tmp := { s.tmp with level := 5, quench := some { q with halt := true } },
                 peat := { s.peat with latch := s.peat.latch.map (fun l => { l with response := 5 }) } }
      else s
  | none =>
      if 4 ≤ resp then quenchStart s 1 src resp
      else if resp = 3 then
        if s.tmp.level < 3 then
          suspendJobs (tmpInt { s with tmp := { s.tmp with level := 3, source := src, throttling := [] } } 1)
        else s
      else if resp = 2 then
        if s.tmp.level < 3 then
          let t := { s.tmp with
            throttling := addOnce s.tmp.throttling src, level := 2, source := if s.tmp.level = 2 then s.tmp.source else src }
          if s.tmp.level = 2 then { s with tmp := t } else tmpInt { s with tmp := t } 2
        else s
      else s

/-- A source fires. -/
def fireSource (s : State) (src : Nat) : State :=
  let resp := (getSrcCfg s src).resp
  let old := s.tmp.level
  let s1 := setCnt s src { getCnt s src with fired := true, recent := [] }
  let s2 := tmpInt { s1 with tmp := { s1.tmp with
    fired := kmod (fun _ => 0) s1.tmp.fired resp (satInc 32), lastSource := src, lastResp := resp, lastTime := now s } } 0
  let s3 := respond s2 src resp
  record s3 0x0B01 src (respSeverity resp) none (payState old s3.tmp.level resp (src + 16 * resp) (now s))

/-- A loop that is not enabled produces no event; the others always watch. -/
def srcWatched (s : State) (src : Nat) : Bool :=
  if 10 ≤ src ∧ src ≤ 13 then s.tmp.meshEn.testBit (src - 10) else true

/-- What a detector sampled, for the registers: a supply in mV, a temperature in quarter degrees, the CLOCK conditions, or
whether a mesh loop returned what was driven (0) or not. A sound VBAT ends CELL_LOW (DEDUCED: it shows the present VBAT). -/
def sampleValue (s : State) (src : Nat) (value : Int) : State :=
  if src ≤ 7 then
    let mv := value.toNat % 8192
    let s1 := { s with tmp := { s.tmp with volt := kset (fun _ => 0) s.tmp.volt (src / 2) mv } }
    if src / 2 = 3 then { s1 with peat := { s1.peat with vbat := mv, cellLow := s1.peat.cellLow && decide (mv < 2200) } } else s1
  else if src ≤ 9 then { s with tmp := { s.tmp with temp := kset (fun _ => 0) s.tmp.temp (src - 8) value } }
  else if src ≤ 13 then
    let b := 2 ^ (src - 10)
    if value = 0 then { s with tmp := { s.tmp with meshOk := s.tmp.meshOk ||| b } }
    else { s with tmp := { s.tmp with
        meshMiss := kmod (fun _ => 0) s.tmp.meshMiss (src - 10) (satInc 16), meshOk := bitClear s.tmp.meshOk (src - 10) } }
  else if src = 15 then { s with tmp := { s.tmp with clockOk := value.toNat % 8 } }
  else s

/-- The reference of a supply window in mV (R400). -/
def winRef (v : Nat) : Nat := if v = 0 then 750 else if v = 1 then 800 else if v = 2 then 1800 else 3000

/-- A supply outside its window, set in 0.5 % steps of its reference (R400). -/
def outsideWindow (s : State) (v : Nat) (mv : Int) : Bool :=
  decide (mv * 200 < (winRef v * (200 - (getWin s v).1) : Nat)) || decide ((winRef v * (200 + (getWin s v).2) : Nat) < mv * 200)

/-- Is the sample of a detector an event with main power (R399)? A glitch detector and the shield report nothing else. -/
def detects (s : State) (src : Nat) (value : Int) : Bool :=
  if src < 8 then src % 2 == 0 || outsideWindow s (src / 2) value
  else if src ≤ 9 then decide (value < 4 * s.tmp.tempLow ∨ 4 * s.tmp.tempHigh < value)
  else if src ≤ 13 then value != 0
  else src == 14 || value.toNat % 8 != 7

/-- DETECTOR_EVENT with main power (R401): the sliding window of W ticks, firing at the N-th event. -/
def detectorEvent (src : Nat) (value : Int) (s : State) : State :=
  if !s.peat.main || !s.boot.pwrGood || s.tmp.halted || !srcWatched s src then s
  else if !detects s src value then sampleValue s src value
  else
    let c := getSrcCfg s src
    let k := getCnt s src
    let recent := k.recent.filter (fun t => decide (s.tick < t + c.w)) ++ [s.tick]
    let s1 := setCnt (sampleValue s src value) src
      { k with events := satInc 16 k.events, recent := recent, last := some s.tick }
    let s2 := pmcDev { s1 with tmp := { s1.tmp with events := satInc 32 s1.tmp.events } } 202 1
    if c.n ≤ recent.length then fireSource s2 src else s2

def execDetectorEvent (src : Fin 16) (value : Int) (s : State) : Host.Outcome State Fault Refusal :=
  answer s (detectorEvent src.val value s)

/-- THROTTLE_END: W ticks have passed with no event of a throttling source. -/
def execThrottleEnd (src : Fin 16) (s : State) : Host.Outcome State Fault Refusal :=
  answer s (
    let quiet := match (getCnt s src.val).last with
      | some t => decide (t + (getSrcCfg s src.val).w ≤ s.tick)
      | none => true
    if s.tmp.throttling.contains src.val && quiet then
      let l := s.tmp.throttling.filter (fun x => x != src.val)
      if l = [] ∧ s.tmp.level = 2 then { s with tmp := { s.tmp with throttling := [], level := 0, source := 0 } }
      else { s with tmp := { s.tmp with throttling := l } }
    else s)

/-- The SRAM that step 3 of R405 scrubs: key store, engines, big-number engines, program caches, Lodge memory, queues,
kiln and fountain state, and the ring; with the root the keeper region is lost, and the schedule with the key store
(R52, R351, R416). Pages of the history are kept. -/
def sramScrub (s : State) : State :=
  { s with
    kst := { kstReset with scrubEn := s.kst.scrubEn },
    eng := [], pav := [], bne := bneReset,
    lib := libReset,
    aut := { autReset with consoleUp := s.aut.consoleUp, card0 := s.aut.card0, card1 := s.aut.card1 },
    ten := tenReset,
    prk := { prkReset with headStrap := s.prk.headStrap },
    ldg := { s.ldg with parts := [], cores := [] },
    rng := { rngReset with srcs := s.rng.srcs },
    gth := { gthReset with
      linkWidth := s.gth.linkWidth, linkSpeed := s.gth.linkSpeed, linkUp := s.gth.linkUp, pci := s.gth.pci, msix := s.gth.msix,
      pba := s.gth.pba },
    dgs := { s.dgs with ctxKey := [], ctxKeyValid := false, store := [] },
    evt := { s.evt with ring := [], dropPending := 0 },
    boot := { s.boot with coldRecs := [], code := [] },
    sdl := { s.sdl with sched := [], limitS := 3600 } }

/-- The full reset after a quench: a reset that was pending or running restarts with its own, first, cause, and QUENCH is
recorded as a further one; else QUENCH is the cause (R418, R453). -/
def resetAfterQuench (s : State) : State :=
  let s1 := { s with boot := { s.boot with start := none, request := none } }
  match s.boot.request, s.boot.start with
  | some r, _ => requestReset (requestReset s1 r.cause 0 r.time r.cold) 4 0 false false
  | none, some x =>
      if x.kind = .power then requestReset s1 4 0 false false
      else requestReset (requestReset s1 s.boot.resetCause 0 x.time (x.kind == .adminCold)) 4 0 false false
  | none, none => requestReset s1 4 0 false false

/-- QUENCH_SCRUB_DONE: the scrub ends; a full reset begins, or the part halts (R405, R406). `clearNs` and `scrubUs` are
the times TMP_QUENCH_TIME records. -/
def execQuenchScrubDone (clearNs scrubUs : Fin 65536) (s : State) : Host.Outcome State Fault Refusal :=
  answer s (match s.tmp.quench with
    | none => s
    | some q =>
        let s1 := tmpDefaults (sramScrub s)
        let s2 := { s1 with tmp := { s1.tmp with
          quench := none, halted := q.halt, level := if q.halt then 5 else 0, source := if q.halt then s1.tmp.source else 0,
          cnt := [], clearNs := clearNs.val, scrubUs := scrubUs.val } }
        if q.halt then { s2 with gth := { s2.gth with linkUp := false } }
        else resetAfterQuench s2)

/-! On the cell alone (R411 to R413) -/

/-- The clear on the cell (R407, R409). -/
def cellQuench (s : State) (cause source resp : Nat) : State := tmpDefaults (peatClear s cause source resp true)

def cellLogAdd (s : State) (src : Nat) : State :=
  if s.peat.cellLog.length < 16 then
    { s with peat := { s.peat with
        cellLog := s.peat.cellLog ++ [{ source := src, hours := s.peat.hours % 2 ^ 28 }] } }
  else { s with peat := { s.peat with cellOverflow := satInc 8 s.peat.cellOverflow } }

/-- The sources the peat domain watches on the cell (R399, R411). -/
def cellWatched (s : State) (src : Nat) : Bool :=
  serving s && (src == 7 || src == 8 || src == 14 || (decide (10 ≤ src ∧ src ≤ 13) && s.tmp.meshEn.testBit (src - 10)))

/-- Does a sample on the cell fail: VBAT in mV, TEMP0 in quarter degrees against the cell limits, a mesh loop (R399, R411)? -/
def cellFails (s : State) (src : Nat) (value : Int) : Bool :=
  if src = 7 then outsideWindow s 3 value
  else if src = 8 then decide (value < 4 * s.tmp.cellTempLow ∨ 4 * s.tmp.cellTempHigh < value)
  else src == 14 || value != 0

/-- CELL_DETECTOR_EVENT: a failing 1 ms sample; `fresh` when the sample before it did not fail. A sample that does not fail
ends the run of failing ones (R401). -/
def execCellDetectorEvent (src : Fin 16) (fresh : Bool) (value : Int) (s : State) : Host.Outcome State Fault Refusal :=
  answer s (if s.peat.main || s.peat.latch.isSome || !cellWatched s src.val then s
    else if !cellFails s src.val value then setCnt s src.val { getCnt s src.val with cellRun := 0 }
    else
      let c := getSrcCfg s src.val
      let k := getCnt s src.val
      let run := if fresh then 1 else k.cellRun + 1
      if c.n ≤ run then
        let s1 := setCnt s src.val { k with cellRun := 0 }
        if 10 ≤ src.val then cellQuench s1 1 src.val 4
        else if c.cellQuench then cellQuench s1 1 src.val 4
        else cellLogAdd s1 src.val
      else setCnt s src.val { k with cellRun := run })

/-- CELL_FAIL: VBAT, in mV, below 2.2 V on the cell alone. -/
def execCellFail (mv : Nat) (s : State) : Host.Outcome State Fault Refusal :=
  answer s (if s.peat.main || !serving s || s.peat.latch.isSome || decide (2200 ≤ mv) then s
    else cellQuench { s with peat := { s.peat with vbat := mv } } 2 0 0)

/-- CELL_LOW: the same with main power present. -/
def execCellLow (mv : Nat) (s : State) : Host.Outcome State Fault Refusal :=
  answer s (if s.peat.main && decide (mv < 2200) then
      tmpInt { s with peat := { s.peat with vbat := mv, cellLow := true } } 4
    else s)

/-- QUENCH_OUT_RELEASE: 1 ms after a quench on the cell. -/
def execQuenchOutRelease (s : State) : Host.Outcome State Fault Refusal :=
  answer s (if !s.peat.main && s.peat.quenchOutLow && decide (s.peat.quenchOutTick + 1048 ≤ s.tick) then
      { s with peat := { s.peat with quenchOutLow := false } }
    else s)

/-- HOURS_TICK: 1/1,024 hour is 3,686,400 ticks. -/
def execHoursTick (s : State) : Host.Outcome State Fault Refusal :=
  answer s (if s.peat.main && decide (s.peat.hoursAt + 3686400 ≤ s.tick) then
      { s with peat := { s.peat with hours := (s.peat.hours + 1) % 2 ^ 32, hoursAt := s.peat.hoursAt + 3686400 } }
    else s)

/-! The power window (R28, R29) -/

/-- The admission duty that applies now: the lower of the power manager's and the THROTTLE response's (R29). -/
def dutyNow (s : State) : Nat := if s.tmp.level = 2 then min s.pwr.duty s.tmp.throttleDuty else s.pwr.duty

/-- Demand of the blocks that are never throttled, in 1/256 mW (28.5 W together). -/
def demandFixed : Nat := 28500 * 256

/-- Demand of an engine in 1/256 mW: its share of the full-rate demand of the engines, of the cipher cores and of the
Keccak cores, as the work on it uses them. That each unit draws an equal share is the model's choice (log 137). -/
def engDemand (s : State) (g : Eng) : Nat :=
  let keccak := if g.grant.any (fun k => decide (k.core < 4)) then 25600 else 0
  if g.st ≠ .running ∧ g.st ≠ .loading then 0
  else match g.job.bind (getJob s) with
    | none => 0
    | some j =>
        (if j.kind = .cipher then (if j.cmd.desc.opcode / 4096 = 4 then 0 else 2700)
         else if g.profile = 0 then 51000 else if g.profile = 1 then 58650 else 66300) + keccak

/-- Demand of a big-number engine: its share of 11 W while it works. -/
def bneDemand (g : BnEng) : Nat := if g.st = .busy then 88000 else 0

/-- Demand of the whole device at this tick, all jobs in flight included (R28). -/
def demandNow (s : State) : Nat :=
  demandFixed + (s.eng.map (fun e => engDemand s e.2)).sum + (s.bne.eng.map (fun e => bneDemand e.2)).sum

/-- The activity of one more tick of the window. -/
def powerTick (s : State) : State := { s with pwr := { s.pwr with activity := s.pwr.activity + demandNow s } }

/-- VDD_CORE moves towards its setpoint, 5 mV in no less than 5 µs, and only while the part serves: the self-tests of its start
have ended (R482). -/
def avsTick (s : State) : State :=
  if s.boot.phase ≠ .service ∨ s.pwr.vcore = s.pwr.vcoreWant ∨ s.tick < s.pwr.vcoreTick + 6 then s
  else
    let v := if s.pwr.vcore < s.pwr.vcoreWant then s.pwr.vcore + 5 else s.pwr.vcore - 5
    emit { s with pwr := { s.pwr with vcore := v, vcoreTick := s.tick } } (.coreSetpoint v)

/-- The setpoint the power manager asks for, 0.70 to 0.80 V in 5 mV steps, once the part serves; none where it asks for no
other, or the regulator does not answer AVSBus (R482). -/
def vcoreAsk (setpoint : Option (Fin 21)) (s : State) : State :=
  match setpoint with
  | some n => if s.boot.phase = .service then { s with pwr := { s.pwr with vcoreWant := 700 + 5 * n.val } } else s
  | none => s

/-- The estimate of a window in milliwatts: its activity over the `n` ticks it was counted in. -/
def powerEstimate (s : State) : Nat := s.pwr.activity / (256 * (s.tick - s.pwr.windowTick))

/-- POWER_WINDOW: a window of 64 ticks ends, and the power manager may ask for another setpoint of VDD_CORE; when it does and
which, the spec leaves to the part, so the command carries it (log 136). Where more than 64 ticks have passed, the windows share their activity evenly. -/
def execPowerWindow (setpoint : Option (Fin 21)) (s : State) : Host.Outcome State Fault Refusal :=
  answer s (if s.tick < s.pwr.windowTick + 64 then s
    else
      let n := s.tick - s.pwr.windowTick
      let mw := powerEstimate s
      let cap := 1000 * s.pwr.capW
      let duty := if cap < mw then s.pwr.duty - 1
        else if mw + 2000 < cap ∧ s.pwr.duty < 64 then s.pwr.duty + 1 else s.pwr.duty
      let s1 := { s with pwr := { s.pwr with
        duty := duty, estW := mw / 1000 % 128, capW := s.pwr.capNext, windowTick := s.pwr.windowTick + 64,
        activity := s.pwr.activity * (n - 64) / n } }
      vcoreAsk setpoint (pmcDev (pmcDev s1 200 1) 201 (dutyNow s1)))

/-! Configuration and recommissioning (R414 to R417) -/

/-- A signed byte. -/
def signedByte (b : Nat) : Int := if 128 ≤ b % 256 then (b % 256 : Int) - 256 else (b % 256 : Int)

def tamperCfgAt (b : Bytes) (i : Nat) : SrcCfg :=
  { resp := leAt b (32 + 8 * i) 1 % 8, cellQuench := (leAt b (32 + 8 * i) 1).testBit 4, n := leAt b (33 + 8 * i) 1,
    w := leAt b (34 + 8 * i) 2 }

/-- The values of R414 in their ranges. -/
def tamperForm (s : State) (b : Bytes) : Bool :=
  let temp (i : Nat) := signedByte (leAt b i 1)
  let tempOk (i : Nat) := decide (-55 ≤ temp i ∧ temp i ≤ 125)
  let srcOk (i : Nat) :=
    let c := tamperCfgAt b i
    let r := leAt b (32 + 8 * i) 1
    decide (1 ≤ c.resp ∧ c.resp ≤ 5) && decide (r < 32) && !r.testBit 3 && decide (1 ≤ c.n) && decide (1 ≤ c.w)
      && leAt b (36 + 8 * i) 4 == 0 && (!c.cellQuench || i == 7 || i == 8)
  let mesh := leAt b 1 1
  let field := s.lcs.state == 3
  leAt b 0 1 == 1 && decide (mesh < 16) && decide (1 ≤ leAt b 2 1 ∧ leAt b 2 1 ≤ 63) && leAt b 3 1 == 0
    && (List.range 8).all (fun i => decide (1 ≤ leAt b (4 + i) 1 ∧ leAt b (4 + i) 1 ≤ 40))
    && tempOk 12 && tempOk 13 && tempOk 14 && tempOk 15 && decide (temp 12 < temp 13) && decide (temp 14 < temp 15)
    && leAt b 16 16 == 0 && (List.range 16).all srcOk
    && (!field || (mesh != 0 && decide (4 ≤ (tamperCfgAt b 14).resp)
        && (List.range 4).all (fun l => !mesh.testBit l || decide (4 ≤ (tamperCfgAt b (10 + l)).resp))))

/-- LIFE_TAMPER_SET at its commit (R414). -/
def performTamperSet (c : Cmd) (s : State) : State :=
  if s.lcs.state = 0 then completeCmd s c stDenied 0
  else if !tamperForm s c.input then completeCmd s c stParam 0x0262
  else
    let b := c.input
    let cfg := (List.range 16).foldl (fun m i => kset srcCfgDefault m i (tamperCfgAt b i)) []
    let win := (List.range 4).foldl (fun m v => kset winDefault m v (leAt b (4 + 2 * v) 1, leAt b (5 + 2 * v) 1)) []
    let t := { s.tmp with
      defaults := false, cfg := cfg, win := win, tempLow := signedByte (leAt b 12 1), tempHigh := signedByte (leAt b 13 1),
      cellTempLow := signedByte (leAt b 14 1), cellTempHigh := signedByte (leAt b 15 1), meshEn := leAt b 1 1,
      throttleDuty := leAt b 2 1, cfgSeq := satInc 32 s.tmp.cfgSeq,
      cnt := kmap (fun _ k => { k with recent := [], cellRun := 0 }) s.tmp.cnt }
    let s1 := tmpInt { s with tmp := t } 5
    let s2 := record (measOf s1 7 b) 0x0B02 0 sevNotice none (payState 0 0 0 t.cfgSeq 0)
    completeCmd (critCommitted s2 c) c 0 0

/-- Has a source whose response is QUENCH or higher produced an event within the last second (R417)? -/
def tamperActive (s : State) : Bool :=
  (List.range 16).any (fun i => decide (4 ≤ (getSrcCfg s i).resp) && (match (getCnt s i).last with
    | some t => decide (s.tick < t + 1048576)
    | none => false))

/-- Create the root of a life-cycle state from the GEN instance (R427). -/
def makeRoot (s : State) (slot : Nat) : State :=
  let r := genDraw s 64
  { r.2 with peat := { r.2.peat with roots := kset (fun _ => []) r.2.peat.roots slot r.1 } }

/-- The two values of a latch in a record's payload: PEAT_LATCH, then hours and cycles. -/
def latchWord (l : TLatch) : Nat := l.cause + 2 ^ 8 * l.source + 2 ^ 12 * l.response + 2 ^ 15 * b2n l.onCell
def latchPayload (l : TLatch) : Bytes := payState 0 0 l.cause (latchWord l) (l.hours + 2 ^ 32 * l.cycles)

/-- LIFE_RECOMMISSION at its commit (R417). -/
def performRecommission (c : Cmd) (s : State) : State :=
  match s.peat.latch with
  | none => completeCmd s c stDenied 0x0265
  | some l =>
      if !quenched s then completeCmd s c stDenied 0x0265
      else if tamperActive s then completeCmd s c stDenied 0x0261
      else if 64 ≤ s.peat.recom then completeCmd s c stDenied 0x0263
      else if !genReady s then kilnHold s c
      else
        let s1 := makeRoot s (s.lcs.state - 1)
        let s2 := { s1 with
          peat := { s1.peat with recom := s1.peat.recom + 1, latch := none, quenchOutLow := false },
          aut := { s1.aut with chanKey := [], custodians := [], policy := policyDefault },
          boot := { s1.boot with keeperKey := storageKey s1 0x04 0 } }
        completeCmd (critCommitted (record s2 0x0C05 0 sevNotice none (latchPayload l)) c) c 0 0

end Sys2Proof.Machine
end

