-- ==== Sys2Proof/Machine/Checks.lean ====
section
/-! DEFINITION. The acceptance checks on one key: checks 3 to 7 of R18 (05_key_store.md R126, R128, R131, R135;
12_park.md R327; 15_tamper_peat.md R404). -/

namespace Sys2Proof.Machine

/-- Park-wide keys outside FORMED (R327). -/
def parkKeyCheck (s : State) (a : Attr) : Res Unit :=
  if !attrFlag a flParkWide then .ok ()
  else match s.prk.st with
    | .detached | .resyncing => reject stDenied 0x0203
    | .walking | .assembled => reject stDenied 0x0200
    | .alone | .formed => .ok ()

/-- Check 3: suspension, the handle, the owner, the park state. -/
def keyLookup (s : State) (c : Cmd) (h : Nat) : Res (Nat × Obj) :=
  if h = 0 then reject stNotFound 0
  else match suspendDetail s with
    | some d => reject stSuspended d
    | none => match findKey s (tenantOf s c.fn) h with
      | none => reject stNotFound 0
      | some r => do
          parkKeyCheck s r.2.attr
          .ok r

/-- Check 6: a validity window against grid time (R126). -/
def keyWindow (s : State) (a : Attr) : Res Unit := do
  failIf ((a.notBefore != 0 || a.notAfter != 0) && untraceable s) stTime 0
  failIf ((a.notBefore != 0 && decide (now s < a.notBefore)) || (a.notAfter != 0 && decide (a.notAfter < now s))) stWindow 0

/-- What a command of `items` items charges the meter of a key (R134): the charge by kind. -/
def meterUnits (a : Attr) (gcm tdea ots items : Nat) : Nat :=
  if !attrFlag a flMetered then 0
  else if a.meterKind = 1 then gcm
  else if a.meterKind = 2 then tdea
  else if a.meterKind = 3 then ots
  else items

/-- Check 7: the meter covers the charge (R135). -/
def keyMeter (s : State) (a : Attr) (n : Nat) : Res Unit := failIf (!meterCovers s a n) stExhausted 0

/-- A meter that does not cover a charge is counted. -/
def countExhausted (s : State) (st : Nat) : State :=
  if st = stExhausted then kstInt { s with kst := { s.kst with exhausted := satInc 32 s.kst.exhausted } } 3 else s

end Sys2Proof.Machine
end

