-- ==== Sys2Proof/Machine/KeyBlock.lean ====
section
/-! DEFINITION. Key blocks of ANSI X9.143 version "D" (05_key_store.md R143, R144): the derivation of the two keys, the binding
and the optional blocks are those of the standard, which the rules name and do not restate (PRESUMED, log 144). -/

namespace Sys2Proof.Machine

def asciiHex (x : Nat) : Byte := BitVec.ofNat 8 (if x < 10 then 0x30 + x else 0x37 + x)
def toHex (b : Bytes) : Bytes := b.flatMap (fun x => [asciiHex (x.toNat / 16), asciiHex (x.toNat % 16)])
def hexValue (b : Byte) : Option Nat :=
  let x := b.toNat
  if 0x30 ≤ x ∧ x ≤ 0x39 then some (x - 0x30) else if 0x41 ≤ x ∧ x ≤ 0x46 then some (x - 0x37) else none
/-- Bytes of an even string of hexadecimal digits. -/
def ofHex : Bytes → Option Bytes
  | [] => some []
  | a :: b :: r => match hexValue a, hexValue b, ofHex r with
    | some x, some y, some t => some (BitVec.ofNat 8 (16 * x + y) :: t)
    | _, _, _ => none
  | [_] => none

/-- A key derived of the block protection key: usage 0 to encrypt, 1 to authenticate. -/
def x9Derive (key : Bytes) (usage : Nat) : Bytes :=
  let al := if key.length = 16 then 2 else if key.length = 24 then 3 else 4
  ((List.range (ceilDiv key.length 16)).flatMap (fun i =>
    cmac (aesEnc key) 16 (leBytes 1 (i + 1) ++ beBytes 2 usage ++ [0] ++ beBytes 2 al ++ beBytes 2 (8 * key.length)))).take key.length

/-- Length of a block without optional blocks that wraps `n` bytes: the padding fills the last block of the cipher. -/
def x9Length (n : Nat) : Nat := 16 + 32 * ceilDiv (2 + n) 16 + 32

/-- The block: header, encrypted length and key with random padding, binding. -/
def x9Seal (key pad head mat : Bytes) : Bytes :=
  let n := ceilDiv (2 + mat.length) 16
  let text := (beBytes 2 (8 * mat.length) ++ mat ++ pad).take (16 * n)
  let tag := cmac (aesEnc (x9Derive key 1)) 16 (head ++ text)
  head ++ toHex (cbcEnc (aesEnc (x9Derive key 0)) 16 n tag text) ++ toHex tag

/-- Two decimal digits. -/
def digits2 (b : Bytes) : Option Nat := match (b.take 2).map hexValue with
  | [some x, some y] => if x < 10 ∧ y < 10 then some (10 * x + y) else none
  | _ => none

/-- Length of an optional block, its header included: two hexadecimal digits, or 00, the number of digits and the digits. -/
def x9OptLen (b : Bytes) : Option Nat := match ofHex ((b.drop 2).take 2) with
  | some [0] => (match ofHex ((b.drop 4).take 2) with
    | some [k] => (ofHex ((b.drop 6).take k.toNat)).map beNat
    | _ => none)
  | some [n] => some n.toNat
  | _ => none

/-- The optional blocks at the front of `b`: how many bytes they take, and the value of KC. -/
def x9Options : Nat → Bytes → Option (Nat × Option Bytes)
  | 0, _ => some (0, none)
  | k + 1, b => match x9OptLen b with
    | none => none
    | some n =>
        if n < 4 ∨ b.length < n then none
        else match x9Options k (b.drop n) with
          | none => none
          | some (m, kc) =>
              if b.take 2 = ascii "KC" then (ofHex ((b.take n).drop 6)).map (fun v => (n + m, some v))
              else some (n + m, kc)

/-- A block taken apart: the header with its optional blocks, the value of KC, the encrypted part, the binding. -/
def x9Parts (b : Bytes) : Option (Bytes × Option Bytes × Bytes × Bytes) :=
  match (digits2 (b.drop 12)).bind (fun k => x9Options k (b.drop 16)) with
  | none => none
  | some (n, kc) =>
      let rest := b.drop (16 + n)
      if rest.length < 64 then none
      else match ofHex (rest.take (rest.length - 32)), ofHex (rest.drop (rest.length - 32)) with
        | some c, some t => if c.length % 16 = 0 then some (b.take (16 + n), kc, c, t) else none
        | _, _ => none

/-- The key of a block, if its binding holds. -/
def x9Key (key head c t : Bytes) : Option Bytes :=
  let text := cbcDec (aesDec (x9Derive key 0)) 16 (c.length / 16) t c
  let bits := beAt text 0 2
  if cmac (aesEnc (x9Derive key 1)) 16 (head ++ text) ≠ t ∨ bits % 8 ≠ 0 ∨ text.length < 2 + bits / 8 then none
  else some ((text.drop 2).take (bits / 8))

end Sys2Proof.Machine
end

