-- ==== Sys2Proof/Machine/LifeCycle.lean ====
section
/-! DEFINITION. Life-cycle transitions, vendor certificates, debug rights and sessions, and the test access port
(16_life_cycle_debug.md R422 to R440; 19_electrical_package.md R494). -/

namespace Sys2Proof.Machine

def lcsInt (s : State) (b : Nat) : State :=
  let d := { s.lcs with intStatus := s.lcs.intStatus ||| 2 ^ b }
  vectorFor { s with lcs := d } (newBit s.lcs.intStatus b) d.intEnable 53

/-! Certificates (R428, R429) -/

def certSize : Nat := 3501
def certRegions (b : Bytes) : List Nat := (List.range (leAt b 43 1)).map (fun i => leAt b (48 + 2 * i) 2)
def certRights (b : Bytes) : Nat := leAt b 36 7

/-- VERSION, KIND, reserved fields, unused entries, ranges. -/
def certForm (b : Bytes) : Bool :=
  let kind := leAt b 1 1
  let count := leAt b 43 1
  let entry (i : Nat) := leAt b (48 + 2 * i) 2
  let entryOk (i : Nat) := if i < count then decide (entry i % 32 ≤ 23) && entry i &&& 0xF0E0 == 0 else entry i == 0
  b.length == certSize && leAt b 0 1 == 1 && (kind == 1 || kind == 2) && leAt b 80 16 == 0 && decide (count ≤ 16)
    && (List.range 16).all entryOk
    && (if kind = 2 then decide (1 ≤ leAt b 44 4 ∧ leAt b 44 4 ≤ 86400) && leAt b 3 1 == 0 && decide (certRights b < 1024)
        else leAt b 44 4 == 0 && certRights b == 0 && count == 0)

/-- The checks of R429 in order, for a command of a kind with a target. -/
def certCheck (s : State) (b : Bytes) (kind target : Nat) : Res Unit := do
  let nb := leAt b 20 8
  let na := leAt b 28 8
  let sealedOn := decide (2 ≤ s.lcs.state ∧ s.lcs.state ≤ 4)
  failIf (!certForm b) stParam 0x0287
  failIf (!signedBy (Sys2Proof.Config.vendorEc, Sys2Proof.Config.vendorMl) b "SX256Q VENDORCERT") stDenied 0x0282
  failIf ((b.drop 4).take 16 != s.lcs.deviceId || leAt b 1 1 != kind || leAt b 2 1 != s.lcs.state
    || (kind == 1 && leAt b 3 1 != target)) stDenied 0x0282
  failIf (sealedOn && (nb == 0 || na == 0 || decide (604800 * 2 ^ 20 < na - nb))) stParam 0x0287
  failIf ((nb != 0 || na != 0) && untraceable s) stTime 0
  failIf ((nb != 0 && decide (s.aut.check6 < nb)) || (na != 0 && decide (na < s.aut.check6))) stDenied 0x0283

/-! Transitions (R423, R424, R427, R430) -/

/-- The transitions of R423; true where a certificate is required. -/
def transitionCert (frm tgt : Nat) : Option Bool :=
  if frm = 0 ∧ tgt = 1 then some true
  else if frm = 1 ∧ tgt = 2 then some true
  else if frm = 2 ∧ tgt = 3 then some false
  else if frm = 3 ∧ tgt = 4 then some true
  else if frm < 5 ∧ tgt = 5 then some false
  else none

/-- Mark `k` of the target is burned whole; no mark is burned twice, a partly burned one to completion. -/
def burnMark (s : State) (k : Nat) : State :=
  { s with lcs := { s.lcs with fuse := kset (fun _ => 0) s.lcs.fuse (3 * s.lcs.target + k) 8 } }

/-- The burn of a step begins: it ends within 100 µs (R430). -/
def burnBegin (s : State) (step : Nat) : State :=
  { s with freeCtr := s.freeCtr + 1,
           lcs := { s.lcs with step := some step, burnEnd := s.tick + 1 + Sys2Proof.Config.burnTime s.freeCtr % 104 } }

/-- Step 2 of R430: the new root; for SCRAP the device secret is burned. On a resume, a latch that holds a quench when the step
falls due leaves the target without a root. None while the kiln has not released output. -/
def transitionRoot (s : State) (resume : Bool) : Option State :=
  if s.lcs.target = 5 then some { s with lcs := { s.lcs with secret := false } }
  else if resume && s.peat.latch.isSome then some s
  else if !genReady s then none
  else some (makeRoot s (s.lcs.target - 1))

/-- Step 4 of R430: the root slot of the state left is zeroised, every slot for SCRAP. -/
def transitionZeroise (s : State) : State :=
  let frm := s.lcs.state
  { s with peat := { s.peat with
    roots := if s.lcs.target = 5 then [] else if frm = 0 then s.peat.roots else kdel s.peat.roots (frm - 1) } }

/-- Step 5 of R430 with DONE burned: the target is in force. The schedule is emptied and the holdover limit returns (R52). A
command that waits completes here; without one this was a resume. -/
def transitionDone (s : State) : State :=
  let tgt := s.lcs.target
  let frm := s.lcs.state
  let s1 := { burnMark s 2 with sdl := { s.sdl with sched := [], limitS := 3600 } }
  let s2 := { s1 with lcs := { s1.lcs with
    state := tgt, step := some 6, history := s.lcs.history ||| 2 ^ tgt, lastTime := now s, doneTick := s.tick } }
  let s3 := if tgt = 2 then tmpDefaults s2 else s2
  let s4 := measState s3 (now s3)
  let s5 := lcsInt (record s4 0x0C01 0 sevNotice none (payState frm tgt 0 (now s4) 0)) 0
  let resumed := lcsInt (record s5 0x0C02 0 sevNotice none (payState frm tgt 0 (now s5) 0)) 1
  match s5.aut.busy with
  | some c =>
      if c.desc.opcode = 0xA010 then completeCmd (critCommitted { s5 with aut := { s5.aut with busy := none } } c) c 0 0
      else resumed
  | none => resumed

/-- A transition goes on at a tick: a burn that has ended lets the next step start (R430). -/
def transitionTick (s : State) : State :=
  if !live s then s
  else match s.lcs.step with
    | some 1 => if s.lcs.burnEnd ≤ s.tick then
          let s1 := burnMark s 0
          { s1 with lcs := { s1.lcs with step := some 2 } }
        else s
    | some 2 => match transitionRoot s s.aut.busy.isNone with
        | some s1 => burnBegin s1 3
        | none => s
    | some 3 => if s.lcs.burnEnd ≤ s.tick then burnBegin (transitionZeroise (burnMark s 1)) 5 else s
    | some 5 => if s.lcs.burnEnd ≤ s.tick then transitionDone s else s
    | _ => s

/-- Power is lost or a reset begins: a burn under way stops with some of its bits burned; the marks tell the boot ROM the rest. -/
def transitionStop (s : State) : State :=
  let cut (k : Nat) : State :=
    let ix := 3 * s.lcs.target + k
    let had := kget (fun _ => 0) s.lcs.fuse ix
    { s with freeCtr := s.freeCtr + 1,
             lcs := { s.lcs with
               step := none, fuse := kset (fun _ => 0) s.lcs.fuse ix (max had (Sys2Proof.Config.burnBits s.freeCtr % 9)) } }
  match s.lcs.step with
  | some 1 => cut 0
  | some 3 => cut 1
  | some 5 => cut 2
  | _ => { s with lcs := { s.lcs with step := none } }

/-- LIFE_TRANSITION past check 6 (R426, R430). -/
def performTransition (c : Cmd) (s : State) : State :=
  let target := leAt c.input 0 1
  match transitionCert s.lcs.state target with
  | none => completeCmd s c stDenied 0x0281
  | some cert =>
      if c.desc.inLen ≠ (if cert then 3517 else 16) then completeCmd s c stLength 0
      else if leAt c.input 1 15 ≠ 0 then completeCmd s c stParam dReserved
      else if s.dbg.isOpen then completeCmd s c stDenied 0x0208
      else match (if cert then certCheck s (c.input.drop 16) 1 target else .ok ()) with
        | .error e => completeCmd s c e.1 e.2
        | .ok _ =>
            burnBegin { s with lcs := { s.lcs with target := target }, aut := { s.aut with busy := some c } } 1

/-- TRANSITION_RESET: 1,048 ticks after DONE a full reset is requested (step 6); until it begins nothing else runs. -/
def execTransitionReset (s : State) : Host.Outcome State Fault Refusal :=
  answerLive s (if s.lcs.step == some 6 && decide (s.lcs.doneTick + 1048 ≤ s.tick) && s.boot.request.isNone then
      requestReset s 5 0 false false
    else s)

/-- What a start does with the marks it finds (R430, R444): BEGIN and ROOT are resumed at once, BEGIN alone when the kiln
releases output; with all three the target is in force. The burns of a resume fall within the time of the start. -/
def transitionResume (s : State) (kiln : Bool) : State :=
  if lcsMarks s.lcs = 1 ∧ kiln then match transitionRoot s true with
    | some s1 => transitionDone (transitionZeroise (burnMark s1 1))
    | none => { s with lcs := { s.lcs with step := some 2 } }
  else if lcsMarks s.lcs = 3 then transitionDone (transitionZeroise s)
  else if lcsMarks s.lcs = 7 ∧ s.lcs.state ≠ s.lcs.target then
    let s1 := { s with lcs := { s.lcs with state := s.lcs.target, history := s.lcs.history ||| 2 ^ s.lcs.target } }
    if s1.lcs.state = 2 then tmpDefaults s1 else s1
  else s

/-! Debug (R431 to R436) -/

/-- The rights a state permits (R432). -/
def rightsPermitted (state : Nat) : Nat :=
  if state = 2 ∨ state = 4 then 0x2DF else if state = 3 then 0x057 else 0x3FF

/-- The permission a set of rights gives on a target: bit 0 R, bit 1 W; 0 for none (R431, R432). -/
def rightsPerm (rights state target : Nat) : Nat :=
  let has (b : Nat) := rights.testBit b
  let regs := [7, 8, 10, 13, 20, 21, 22, 23].contains target
  let mems := [1, 3, 14, 15, 20, 21].contains target || (decide (state ≤ 1) && (target == 4 || target == 5))
  let r := (has 0 && (target == 18 || target == 19)) || (has 2 && regs) || (has 3 && regs) || (has 6 && mems) || (has 7 && mems)
  let w := (has 3 && regs) || (has 7 && mems)
  b2n r + 2 * b2n w

/-- The highest free region of a protection unit, in the staged copy. -/
def freeRegion (s : State) (m : Nat) : Option Nat :=
  ((List.range 16).reverse).find? (fun r => (kget (fun _ => regionReset) s.mpu.staged (mpuIx m r)).sizeLog2 == 0)

/-- Stage the debug region of one target. -/
def installDebug (rights : Nat) (s : State) (m : Nat) : State :=
  let perm := rightsPerm rights s.lcs.state m
  if perm = 0 then s
  else match freeRegion s m with
    | none => record s 0x0C03 0 sevNotice none (payState 0 0 1 m 0)
    | some r =>
        let s1 := stageRegion s (mpuIx m r) { base := 0, sizeLog2 := 32, perm := perm, master := 0x3FF, mask := 0x3FF }
        { s1 with dbg := { s1.dbg with installed := s1.dbg.installed ++ [(m, r)] } }

def beyondCounters (rights : Nat) : Bool := rights &&& 0x3FE != 0

/-- LIFE_DEBUG_OPEN past check 6 (R426, R433, R434). -/
def performDebugOpen (c : Cmd) (s : State) : State :=
  let b := c.input
  if s.dbg.isOpen then completeCmd s c stDenied 0x0285
  else match certCheck s b 2 0 with
    | .error e => completeCmd s c e.1 e.2
    | .ok _ =>
        let rights := certRights b
        if rights &&& rightsPermitted s.lcs.state ≠ rights then completeCmd s c stDenied 0x0284
        else
          let na := leAt b 28 8
          let last := now s + leAt b 44 4 * 2 ^ 20
          let s1 := (List.range 24).foldl (installDebug rights) s
          let s2 := mpuCommitNow s1
          let s3 := { s2 with dbg := { s2.dbg with
            isOpen := true, rights := rights, regions := certRegions b, endTick := if na = 0 then last else min last na,
            opens := satInc 32 s2.dbg.opens } }
          let s4 := lcsInt (record (measState s3 (now s3)) 0x0C03 0 sevNotice none (payState 0 1 0 rights s3.dbg.endTick)) 2
          let s5 := if s4.lcs.state = 3 ∧ beyondCounters rights then
              suspendJobs (lcsInt { s4 with dbg := { s4.dbg with suspending := true } } 5)
            else s4
          completeCmd (critCommitted s5 c) c 0 0

/-! What the park sees of debug (R435) -/

def prkInt (s : State) (b : Nat) : State :=
  let d := { s.prk with intStatus := s.prk.intStatus ||| 2 ^ b }
  vectorFor { s with prk := d } (newBit s.prk.intStatus b) d.intEnable 54

def parkCode : ParkState → Nat
  | .alone => 0 | .walking => 1 | .assembled => 2 | .formed => 3 | .detached => 4 | .resyncing => 5

def parkRecord (s : State) (ev sev old new v0 v1 : Nat) : State :=
  record s (0x0800 + ev) s.prk.address sev none (payState old new 0 v0 v1)

/-- Leases run from the moment the unit begins to send heartbeats (R333, R334). Every change of the park state is recorded and sets STATE_CHG; entering DETACHED sets DETACHED (R350, R463). -/
def parkGoto (s : State) (st : ParkState) : State :=
  let beats (x : ParkState) : Bool := x == .assembled || x == .formed
  let since := if beats st && !beats s.prk.st then s.tick else s.prk.beatsSince
  let s1 := parkRecord { s with prk := { s.prk with st := st, beatsSince := since } } 1 sevNotice (parkCode s.prk.st) (parkCode st) s.prk.epoch 0
  let s2 := prkInt s1 0
  if st = .detached then prkInt s2 4 else s2

/-- PARK_FLAG (R435). -/
def parkFlag (s : State) : Bool := (s.dbg.isOpen && beyondCounters s.dbg.rights) || s.dbg.suspending

/-- When the flag clears, the unit enters DETACHED at the same moment. -/
def flagCleared (before : Bool) (s : State) : State :=
  if before && !parkFlag s && s.prk.st == .formed then parkGoto s .detached else s

/-- Debug closes: its regions are removed, MEAS[6] is extended with zero rights; SUSPENDING stays and awaits a reset
(R434, R436). -/
def closeDebug (s : State) : State :=
  let s1 := s.dbg.installed.foldl (fun s x => stageRegion s (mpuIx x.1 x.2) regionReset) s
  let s2 := mpuCommitNow s1
  let s3 := { s2 with dbg := { s2.dbg with
    isOpen := false, rights := 0, regions := [], endTick := 0, installed := [], resetPending := s2.dbg.suspending } }
  flagCleared (parkFlag s) (lcsInt (record (measState s3 (now s3)) 0x0C04 0 sevNotice none (payState 1 0 0 0 (now s3))) 3)

/-- A session is open past its end tick. -/
def sessionOver (s : State) : Bool := s.dbg.isOpen && decide (s.dbg.endTick ≤ now s)

/-- LIFE_DEBUG_CLOSE, and the keeper world's own close of a session that is over (R436). -/
def performDebugClose (c : Cmd) (s : State) : State :=
  if c.fn = fnKeeper then (if sessionOver s then lcsInt (closeDebug s) 4 else s)
  else completeCmd (critCommitted (if s.dbg.isOpen then closeDebug s else s) c) c 0 0

/-- DEBUG_SESSION_END: the end tick starts the close, which the keeper world performs at its turn (R436, R437). -/
def sessionEnd (go : State → State) (s : State) : State :=
  if !live s || !sessionOver s then s
  else go { s with aut := { s.aut with mailbox := s.aut.mailbox ++ [keeperClose] } }

/-- DBG_STATUS (R440). -/
def dbgStatus (s : State) : Nat :=
  b2n s.dbg.isOpen + 2 * b2n s.dbg.suspending + 4 * b2n s.dbg.resetPending + 8 * b2n (parkFlag s)

/-- LIFE_STATUS (R439). -/
def doLifeStatus (c : Cmd) (s : State) : State :=
  completeOut s c (leBytes 1 s.lcs.state ++ leBytes 1 (lcsMarks s.lcs) ++ leBytes 1 (dbgStatus s) ++ leBytes 7 s.dbg.rights
    ++ List.replicate 6 0 ++ s.lcs.deviceId)

/-! The test access port (R431, R494) -/

def tapPut (s : State) (i : TapInstr) (d : Nat) : State :=
  emit { s with tap := { s.tap with instr := i, data := d } } (.port .tap (leBytes 4 d))

def execTapIdcode (s : State) : Host.Outcome State Fault Refusal := answerLive s (tapPut s .idcode 0x1025655B)
def execTapStatus (s : State) : Host.Outcome State Fault Refusal := answerLive s (tapPut s .status (dbgStatus s))

/-- BYPASS, or any instruction that is not implemented while debug is closed: the one-bit register captures 0. -/
def execTapBypass (s : State) : Host.Outcome State Fault Refusal :=
  answerLive s { s with tap := { s.tap with instr := .bypass, data := 0 } }

/-- TRST_N low for 100 ns: the TAP alone is reset. -/
def execTapReset (s : State) : Host.Outcome State Fault Refusal := answer s { s with tap := tapReset }

def debugRight (s : State) (b : Nat) : Bool := s.dbg.isOpen && s.dbg.rights.testBit b

/-- BOUNDARY_SCAN: SAMPLE/PRELOAD shifts the boundary register; EXTEST drives the pins from it (IEEE 1149.1). Without the
right the instruction selects BYPASS. -/
def execBoundaryScan (extest : Bool) (bits : Bytes) (s : State) : Host.Outcome State Fault Refusal :=
  answerLive s (if !debugRight s 1 then { s with tap := { s.tap with instr := .bypass, data := 0 } }
    else
      let s1 := emit s (.port .tap s.tap.boundary)
      { s1 with tap := { s1.tap with
          instr := if extest then .extest else .samplePreload, boundary := bits, extest := extest } })

/-- What a probe asks of a halted Lodge core. -/
def coreRight (core : Nat) : Nat := if core < 2 then 5 else 4

/-- DEBUG_HALT: with VISITOR_HALT or KEEPER_HALT open, halt a core, let it go, step it, or access its registers; what a
Lodge core's registers hold is not the part's to state (a free value). -/
def execDebugHalt (core : Fin 8) (op : Fin 4) (s : State) : Host.Outcome State Fault Refusal :=
  answerLive s (if !debugRight s (coreRight core.val) then { s with tap := { s.tap with instr := .bypass, data := 0 } }
    else
      let others := s.tap.halted.filter (fun x => x != core.val)
      if op.val = 0 then { s with tap := { s.tap with halted := others ++ [core.val] } }
      else if op.val = 1 then { s with tap := { s.tap with halted := others } }
      else if !s.tap.halted.contains core.val then s
      else bumpCtr (emit s (.port .tap (leBytes 8 (Sys2Proof.Config.debugRead s.freeCtr (24 + core.val) op.val)))))

/-- SCAN_CHAIN: with SCAN open the probe shifts the internal chains; their content is a free value. -/
def execScanChain (bits : Nat) (s : State) : Host.Outcome State Fault Refusal :=
  answerLive s (if !debugRight s 8 then { s with tap := { s.tap with instr := .bypass, data := 0 } }
    else
      let s1 := { s with tap := { s.tap with instr := .scan } }
      bumpCtr (emit s1 (.port .tap (leBytes (bits / 8 + 1) (Sys2Proof.Config.debugRead s.freeCtr 32 bits)))))

end Sys2Proof.Machine
end

