-- ==== Sys2Proof/Machine/Repair.lean ====
section
/-! DEFINITION. Replaceable parts: quarantine, substitution, tests and return to service
(18_counters_recorder_service.md R470 to R478). Parts are named by KIND and INDEX as R470 numbers them. -/

namespace Sys2Proof.Machine

def kdEngine : Nat := 1
def kdPavilion : Nat := 2
def kdBne : Nat := 3
def kdKeccak : Nat := 4
def kdSha2 : Nat := 5
def kdSource : Nat := 6
def kdPeer : Nat := 7

/-- How many parts a kind has. -/
def kindCount (kind : Nat) : Nat :=
  if kind = 1 then 272 else if kind = 2 then 16 else if kind = 3 then 32 else if kind = 4 then 64 else if kind = 5 then 32
  else if kind = 6 then 8 else if kind = 7 then 2 else 0

/-- The pavilion a part stands in. -/
def partPav (kind index : Nat) : Option Nat :=
  if kind = 1 then some (index / 17) else if kind = 2 then some index else if kind = 3 then some (index / 2)
  else if kind = 4 then some (index / 4) else if kind = 5 then some (index / 2) else none

/-- Slot or core number within the pavilion. -/
def partLocal (kind index : Nat) : Nat :=
  if kind = 1 then index % 17 else if kind = 3 ∨ kind = 5 then index % 2 else if kind = 4 then index % 4 else 0

def findWork (s : State) (kind index : Nat) : Option Repair :=
  s.rep.work.find? (fun r => r.kind == kind && r.index == index)
def dropWork (s : State) (kind index : Nat) : State :=
  { s with rep := { s.rep with work := s.rep.work.filter (fun r => !(r.kind == kind && r.index == index)) } }
def putWork (s : State) (r : Repair) : State :=
  let s1 := dropWork s r.kind r.index
  { s1 with rep := { s1.rep with work := s1.rep.work ++ [r] } }

def isTesting (r : Repair) : Bool := match r.work with
  | .testing => true
  | _ => false

/-- The part takes no new work: it is listed out of service, or an orderly quarantine of it drains. -/
def outOfService (s : State) (kind index : Nat) : Bool :=
  if kind = 1 then (getEng s index).st == .quarantined || (getEng s index).st == .testing || (findWork s 1 index).isSome
  else if kind = 2 then s.rep.pavs.contains index
  else if kind = 3 then s.rep.bnes.contains index || (getBne s index).st == .testing
  else if kind = 4 then s.rep.kecs.contains index
  else if kind = 5 then s.rep.shas.contains index
  else if kind = 6 then (getSrc s index).st == .quarantined
  else s.rep.peers.contains index

def isAbsent (s : State) (kind index : Nat) : Bool :=
  if kind = 1 then (getEng s index).st == .absent
  else if kind = 2 then (List.range 17).all (fun k => (getEng s (17 * index + k)).st == .absent)
  else if kind = 3 then (getBne s index).st == .absent
  else if kind = 6 then (getSrc s index).st == .absent
  else false

/-- QUARANTINED: out of service and nothing of it drains or is tested. -/
def isQuarantined (s : State) (kind index : Nat) : Bool := outOfService s kind index && (findWork s kind index).isNone

/-! Records and counters -/

/-- A REPAIR record and the device-wide registers that follow it (R464, R479). -/
def repRecord (s : State) (ev sev kind index code v0 v1 : Nat) : State :=
  let s1 := record s (0x0D00 + ev) (kind * 0x1000 + index) sev none (payPart kind index code 0 v0 v1)
  { s1 with rep := { s1.rep with lastKind := kind, lastIndex := index, lastEvent := ev } }

def modPav (s : State) (p : Nat) (f : Pav → Pav) : State := setPav s p (f (getPav s p))

/-- The counters of one quarantine (R478), and the interrupts of an automatic one. -/
def quarCounts (s : State) (kind index cause : Nat) : State :=
  let s1 := match partPav kind index with
    | some p => modPav s p (fun v => { v with quarCount := satInc 32 v.quarCount, lastCause := cause })
    | none => s
  let s2 := repInt (pmcDev s1 206 1) 0
  if cause = 3 ∨ cause = 5 then repInt s2 5 else s2

/-! Being idle -/

/-- Is a job planned onto a pavilion and not ended? -/
def pavHasJobs (s : State) (p : Nat) : Bool :=
  s.gth.jobs.any (fun e => !isPool e.2 && e.2.pav == p && jobOpen e.2)

def engAtRest (s : State) (e : Nat) : Bool :=
  let st := (getEng s e).st
  st == .idle || st == .quarantined || st == .absent

def bneAtRest (s : State) (b : Nat) : Bool :=
  let st := (getBne s b).st
  st == .idle || st == .quarantined || st == .absent

/-- The engine to which a Keccak or SHA-2 core is granted (R13). -/
def coreHolder (s : State) (kind index : Nat) : Option Nat :=
  let p := if kind = 4 then index / 4 else index / 2
  let k := if kind = 4 then index % 4 else 4 + index % 2
  ((s.eng.find? (fun e => e.1 / 17 == p && e.2.st == .running && e.2.grant.any (fun g => g.core == k)))).map (fun e => e.1)

/-- Nothing runs on the part. -/
def partIdle (s : State) (kind index : Nat) : Bool :=
  if kind = 1 then engAtRest s index
  else if kind = 2 then
    !pavHasJobs s index && (List.range 17).all (fun k => engAtRest s (17 * index + k)) && bneAtRest s (2 * index)
      && bneAtRest s (2 * index + 1)
  else if kind = 3 then bneAtRest s index
  else if kind = 4 ∨ kind = 5 then !(coreHolder s kind index).isSome
  else true

/-! Entering QUARANTINED (R472, R473) -/

/-- Complete the commands that wait for work on a part. -/
def answerWaiters (s : State) (r : Repair) (status detail : Nat) : State :=
  r.waiters.foldl (fun s w => complete s w.1 w.2.1 w.2.2 status detail 0 0) s

/-- The spare of a pavilion, when it is held, idle and not itself draining. -/
def freeSpare (s : State) (p : Nat) : Option Nat :=
  match (getPav s p).spare with
  | none => none
  | some k =>
      let e := 17 * p + k
      if (getEng s e).st = .idle ∧ (findWork s 1 e).isNone then some e else none

/-- The position of an engine that leaves service is taken by the spare, or becomes vacant. -/
def substitute (s : State) (e : Nat) : State :=
  let p := e / 17
  let g := getEng s e
  if g.spare then modPav (setEng s e { g with spare := false }) p (fun v => { v with spare := none })
  else if !g.inService then s
  else
    let s1 := setEng s e { g with inService := false }
    match freeSpare s1 p with
    | none => s1
    | some x =>
        let s2 := setEng s1 x { getEng s1 x with inService := true, spare := false, position := g.position }
        let s3 := modPav s2 p (fun v => { v with spare := none, substCount := satInc 32 v.substCount })
        repInt (repRecord s3 2 sevNotice 1 e 0 0 (x % 17)) 1

/-- Put a part on the list of those out of service. -/
def listOut (s : State) (kind index : Nat) : State :=
  let r := s.rep
  if kind = 2 then { s with rep := { r with pavs := if r.pavs.contains index then r.pavs else r.pavs ++ [index] } }
  else if kind = 3 then { s with rep := { r with bnes := if r.bnes.contains index then r.bnes else r.bnes ++ [index] } }
  else if kind = 4 then { s with rep := { r with kecs := if r.kecs.contains index then r.kecs else r.kecs ++ [index] } }
  else if kind = 5 then { s with rep := { r with shas := if r.shas.contains index then r.shas else r.shas ++ [index] } }
  else if kind = 7 then { s with rep := { r with peers := if r.peers.contains index then r.peers else r.peers ++ [index] } }
  else s

def listIn (s : State) (kind index : Nat) : State :=
  let r := s.rep
  let out (l : List Nat) := l.filter (fun x => x != index)
  if kind = 2 then { s with rep := { r with pavs := out r.pavs } }
  else if kind = 3 then { s with rep := { r with bnes := out r.bnes } }
  else if kind = 4 then { s with rep := { r with kecs := out r.kecs } }
  else if kind = 5 then { s with rep := { r with shas := out r.shas } }
  else if kind = 7 then { s with rep := { r with peers := out r.peers } }
  else s

/-- The part's own state as QUARANTINED; an engine leaves its position and a peer port its link. -/
def markQuarantined (s : State) (kind index : Nat) : State :=
  let s1 := listOut s kind index
  if kind = 1 then substitute (setEng s1 index { getEng s1 index with st := .quarantined, quarAfter := false }) index
  else if kind = 3 then setBne s1 index { getBne s1 index with st := .quarantined, quarAfter := false }
  else if kind = 6 then srcQuarantine s1 index
  else if kind = 7 then
    let down (p : PeerPort) := { p with linkUp := false, fecLock := false, neighbour := none }
    if index = 0 then { s1 with prk := { s1.prk with portA := down s1.prk.portA } }
    else { s1 with prk := { s1.prk with portB := down s1.prk.portB } }
  else s1

/-- A part enters QUARANTINED: recorded, counted, and whoever waited for it is answered. -/
def enterQuarantine (s : State) (kind index cause : Nat) : State :=
  let w := findWork s kind index
  let s1 := markQuarantined (dropWork s kind index) kind index
  let s2 := quarCounts (repRecord s1 1 sevNotice kind index 0 0 0) kind index cause
  match w with
  | some r => answerWaiters s2 r 0 0
  | none => s2

/-- A part that cannot be brought to QUARANTINED is wedged: recorded, and a full reset is requested (R472). -/
def wedge (s : State) (kind index : Nat) : State :=
  requestReset (repRecord (dropWork s kind index) 6 sevAlarm kind index 0 0 0) 10 0 false false

/-- Abort what runs on a part, and for a pavilion what is queued there (R175, R472). -/
def forceOff (s : State) (kind index : Nat) : State :=
  if kind = 1 then abortWhere s (fun j => j.phase == .running && !isPool j && j.part == some index) 0x0601 0x0162 abortDue
  else if kind = 3 then
    abortWhere s (fun j => j.phase == .running && isPool j && (j.part == some index || j.part2 == some index)) 0x0601 0x0162
      abortDue
  else if kind = 2 then
    abortWhere s (fun j => if isPool j then j.phase == .running && ((j.part.map (· / 2)) == some index
        || (j.part2.map (· / 2)) == some index) else j.pav == index) 0x0601 0x0162 abortDue
  else if kind = 4 ∨ kind = 5 then match coreHolder s kind index with
    | some e => abortWhere s (fun j => j.phase == .running && !isPool j && j.part == some e) 0x0601 0x0162 abortDue
    | none => s
  else s

/-- Begin a forced quarantine, or make an orderly one in progress forced. -/
def beginForced (s : State) (kind index cause : Nat) (w : List (Nat × Nat × Nat)) : State :=
  let old := match findWork s kind index with
    | some r => r.waiters
    | none => []
  let s1 := forceOff (listOut (putWork s
    { kind := kind, index := index, work := .forcing s.tick, testOnly := false, cause := cause, started := s.tick,
      waiters := old ++ w, thenReturn := false }) kind index) kind index
  if partIdle s1 kind index then enterQuarantine s1 kind index cause else s1

/-- A pavilion with no engine, or no core of a kind, leaves service as a whole (R473). -/
def pavStarved (s : State) (p : Nat) : Bool :=
  engInService s p == 0 || (List.range 4).all (fun k => s.rep.kecs.contains (4 * p + k))
    || (List.range 2).all (fun k => s.rep.shas.contains (2 * p + k))

def afterLoss (s : State) (kind index : Nat) : State :=
  if kind = 1 ∨ kind = 4 ∨ kind = 5 then
    match partPav kind index with
    | none => s
    | some p =>
        if pavStarved s p ∧ !s.rep.pavs.contains p then
          if (pavsInService s).filter (fun x => x != p) = [] then wedge s 2 p else beginForced s 2 p 2 []
        else s
  else s

/-- Enter QUARANTINED, and what follows for the pavilion. -/
def quarantineNow (s : State) (kind index cause : Nat) : State := afterLoss (enterQuarantine s kind index cause) kind index

/-- Parts whose forced quarantine has nothing left to wait for. -/
def settleForced (s : State) : State :=
  s.rep.work.foldl (fun s r => match r.work with
    | .forcing _ => if partIdle s r.kind r.index then quarantineNow s r.kind r.index r.cause else s
    | _ => s) s

/-! ADMIN_QUARANTINE and ADMIN_SERVICE_RETURN (R471, R475) -/

def repKind (c : Cmd) : Nat := c.desc.select % 16
def repIndex (c : Cmd) : Nat := c.desc.select / 16 % 512
def repFlag (c : Cmd) : Bool := c.desc.select.testBit 13

/-- KIND, INDEX and the reserved bits. -/
def repForm (c : Cmd) : Res Unit := do
  failIf (decide (kindCount (repKind c) ≤ repIndex c)) stParam dParamSet
  failIf (c.desc.select / 2 ^ 14 % 4 != 0) stParam dReserved

/-- The quarantine would leave no pavilion in service, no core in a pavilion, or a park unit without a link (R471). -/
def lastUnit (s : State) (kind index : Nat) : Bool :=
  if kind = 1 then
    let p := index / 17
    (getEng s index).inService && (freeSpare s p).isNone && engInService s p == 1
      && (pavsInService s).filter (fun x => x != p) == []
  else if kind = 2 then (pavsInService s).filter (fun x => x != index) == []
  else if kind = 4 then (List.range 4).all (fun k => 4 * (index / 4) + k == index || s.rep.kecs.contains (4 * (index / 4) + k))
  else if kind = 5 then (List.range 2).all (fun k => 2 * (index / 2) + k == index || s.rep.shas.contains (2 * (index / 2) + k))
  else if kind = 7 then
    s.prk.st != .alone && !(if index = 0 then s.prk.portB.linkUp && !s.rep.peers.contains 1
      else s.prk.portA.linkUp && !s.rep.peers.contains 0)
  else false

def quarantineCheck (s : State) (c : Cmd) : Res Unit := do
  repForm c
  let k := repKind c
  let i := repIndex c
  failIf (isAbsent s k i) stDenied 0x02C0
  match findWork s k i with
  | some r => failIf (isTesting r) stDenied 0x02C1
  | none =>
    if isQuarantined s k i then .ok ()
    else do
      failIf (lastUnit s k i) stDenied 0x02C2
      failIf (k == kdSource && srcQuarantineLow s i) stDenied 0x01E2

def doQuarantine (c : Cmd) (s : State) : State :=
  let k := repKind c
  let i := repIndex c
  let me := (c.fn, c.queue, c.desc.tag)
  match quarantineCheck s c with
  | .error e => completeCmd s c e.1 e.2
  | .ok _ =>
    if isQuarantined s k i then completeCmd s c 0 0
    else if repFlag c then afterLoss (beginForced s k i 2 [me]) k i
    else match findWork s k i with
      | some r => putWork s { r with waiters := r.waiters ++ [me] }
      | none =>
          let s1 := listOut (putWork s
            { kind := k, index := i, work := .draining, testOnly := false, cause := 1, started := s.tick, waiters := [me],
              thenReturn := false }) k i
          if partIdle s1 k i then quarantineNow s1 k i 1 else s1

/-- The pavilion's test registers while a test runs (R478). -/
def noteTest (s : State) (kind index : Nat) : State :=
  match partPav kind index with
  | some p => modPav s p (fun v => { v with
      testState := 1, testKind := kind, testLocal := partLocal kind index, tests := satInc 32 v.tests })
  | none => s

/-- Start a part's test; a gated pavilion is ungated first (R475). -/
def startTest (s : State) (kind index : Nat) (testOnly : Bool) (cause : Nat) (w : List (Nat × Nat × Nat)) : State :=
  let s0 := if kind = 2 ∧ s.pwr.gated.testBit index then
      { s with pwr := { s.pwr with gated := bitClear s.pwr.gated index } } else s
  let s1 := noteTest (pmcDev (putWork s0
    { kind := kind, index := index, work := .testing, testOnly := testOnly, cause := cause, started := s.tick, waiters := w,
      thenReturn := false }) 207 1) kind index
  if kind = 1 then setEng s1 index { getEng s1 index with st := .testing, testOnly := testOnly }
  else if kind = 3 then setBne s1 index { getBne s1 index with st := .testing }
  else if kind = 6 then srcReturn s1 index testOnly
  else s1

def returnCheck (s : State) (c : Cmd) : Res Unit := do
  repForm c
  let k := repKind c
  let i := repIndex c
  failIf (isAbsent s k i) stDenied 0x02C0
  failIf (findWork s k i).isSome stDenied 0x02C1
  failIf (!outOfService s k i) stDenied 0x02C3

def doServiceReturn (c : Cmd) (s : State) : State :=
  match returnCheck s c with
  | .error e => completeCmd s c e.1 e.2
  | .ok _ => startTest s (repKind c) (repIndex c) (repFlag c) 1 [(c.fn, c.queue, c.desc.tag)]

/-! Ends of tests -/

/-- The lowest vacant position of a pavilion. -/
def vacantPos (s : State) (p : Nat) : Option Nat :=
  (List.range 16).find? (fun i => (List.range 17).all (fun k =>
    !((getEng s (17 * p + k)).inService && (getEng s (17 * p + k)).position == i)))

/-- A tested engine returns: to the lowest vacant position, else as the spare (R473). -/
def engReturn (s : State) (e : Nat) : State :=
  let p := e / 17
  let g := getEng s e
  match vacantPos s p with
  | some i => setEng s e { engIdle true false i with
      fnt := g.fnt, faultDetail := g.faultDetail, faultCount := g.faultCount, eccCorrected := g.eccCorrected }
  | none =>
      modPav (setEng s e { engIdle false true 0 with
        fnt := g.fnt, faultDetail := g.faultDetail, faultCount := g.faultCount, eccCorrected := g.eccCorrected }) p
        (fun v => { v with spare := some (e % 17) })

/-- A part returns to service after its test. -/
def partReturn (s : State) (kind index : Nat) : State :=
  let s1 := listIn s kind index
  if kind = 1 then engReturn s1 index
  else if kind = 3 then setBne s1 index { bnReset with
    faultDetail := (getBne s1 index).faultDetail, faultCount := (getBne s1 index).faultCount }
  else s1

/-- A part that failed its test, or passed it with TEST_ONLY, stays out. -/
def partStay (s : State) (kind index : Nat) : State :=
  if kind = 1 then setEng s index { getEng s index with st := .quarantined, testOnly := false }
  else if kind = 3 then setBne s index { getBne s index with st := .quarantined }
  else if kind = 6 then setSrc s index { getSrc s index with st := .quarantined, test := false, testOnly := false }
  else s

/-- The registers and the record of a test's result. -/
def testResult (s : State) (kind index : Nat) (fail : Option Nat) (ticks : Nat) : State :=
  let s1 := match partPav kind index with
    | some p => modPav s p (fun v => { v with
        testState := if fail.isNone then 2 else 3, testKind := kind, testLocal := partLocal kind index,
        failCode := fail.getD 0, testFails := if fail.isNone then v.testFails else satInc 32 v.testFails,
        testTime := ticks })
    | none => s
  match fail with
  | none => repInt (repRecord s1 3 sevNotice kind index 0 ticks 0) 2
  | some f => repInt (repRecord s1 4 sevFault kind index f ticks 0) 3

/-- The parts of a pavilion that failed in the pavilion's test are quarantined as any part is (R473, R475); one that was out
stays out. -/
def pavPartFails (s : State) (failed : List (Nat × Nat × Nat)) (cause : Nat) : State :=
  failed.foldl (fun s x =>
    if (x.1 = 1 ∨ x.1 = 3 ∨ x.1 = 4 ∨ x.1 = 5) ∧ !outOfService s x.1 x.2.1 then
      quarantineNow (repInt (repRecord s 4 sevFault x.1 x.2.1 x.2.2 0 0) 3) x.1 x.2.1 cause
    else s) s

/-- A part's test has ended (R475): `fail` the first failing vector; `failed` the parts of a pavilion that failed, each
with its first failing vector. -/
def partTestEnd (s : State) (kind index : Nat) (fail : Option Nat) (failed : List (Nat × Nat × Nat)) : State :=
  match findWork s kind index with
  | none => s
  | some r =>
      if !isTesting r then s
      else
        let s1 := testResult (dropWork s kind index) kind index fail (s.tick - r.started)
        if fail.isSome then answerWaiters (partStay s1 kind index) r stDenied 0x02C4
        else if r.testOnly then answerWaiters (partStay s1 kind index) r 0 0
        else
          let s2 := partReturn s1 kind index
          let s3 := if kind = 2 then
              pavPartFails s2 (failed.filter (fun x => partPav x.1 x.2.1 == some index)) r.cause else s2
          let s4 := repInt (repRecord s3 5 sevNotice kind index 0 (s.tick - r.started) 0) 4
          answerWaiters s4 r 0 0

def execPartTestEnd (kind : Fin 8) (index : Fin 272) (fail : Option (Fin 65536)) (failed : List (Fin 8 × Fin 272 × Fin 65536))
    (s : State) : Host.Outcome State Fault Refusal :=
  answer s (partTestEnd s kind.val index.val (fail.map (fun f => f.val)) (failed.map (fun x => (x.1.val, x.2.1.val, x.2.2.val))))

/-- QUARANTINE_DRAINED: an orderly quarantine's part has become idle; a SELFTEST action goes on with its return. -/
def execQuarantineDrained (kind : Fin 8) (index : Fin 272) (s : State) : Host.Outcome State Fault Refusal :=
  answer s (match findWork s kind.val index.val with
    | some r =>
        if r.work = .draining ∧ partIdle s kind.val index.val then
          let s1 := quarantineNow s kind.val index.val r.cause
          if r.thenReturn then startTest s1 kind.val index.val false 4 [] else s1
        else s
    | none => s)




/-- WEDGE_TIMEOUT: 1,048 ticks after a part was forced it is not QUARANTINED (R472). -/
def execWedgeTimeout (kind : Fin 8) (index : Fin 272) (s : State) : Host.Outcome State Fault Refusal :=
  answer s (match findWork s kind.val index.val with
    | some r => match r.work with
        | .forcing t => if t + 1048 ≤ s.tick then wedge s kind.val index.val else s
        | _ => s
    | none => s)

/-! Automatic quarantine (R474) -/

/-- A scrub of an engine ends in quarantine: the read-back failed, or it was marked. -/
def autoQuarantine (s : State) (kind index : Nat) : State :=
  let cause := match findWork s kind index with
    | some r => r.cause
    | none => 3
  quarantineNow s kind index cause

/-- The third PORT_INTEGRITY fault attributed to one core within a second takes it out. -/
def coreFaultNote (s : State) (kind index : Nat) : State :=
  let r := noteFault s kind index
  if r.2 ∧ !outOfService r.1 kind index then quarantineNow r.1 kind index 3 else r.1

/-- The SELFTEST schedule action (R47, R475): false when it has no effect. -/
def selftestPavilion (s : State) (p : Nat) : State × Bool :=
  if s.rep.pavs.contains p || (findWork s 2 p).isSome || (pavsInService s).filter (fun x => x != p) == [] then (s, false)
  else
    let s1 := listOut (putWork s
      { kind := 2, index := p, work := .draining, testOnly := false, cause := 4, started := s.tick, waiters := [],
        thenReturn := true }) 2 p
    (if partIdle s1 2 p then startTest (quarantineNow s1 2 p 4) 2 p false 4 [] else s1, true)

end Sys2Proof.Machine
end

