-- ==== Sys2Proof/Machine/Sundial.lean ====
section
/-! DEFINITION. The sundial: frames, edges, states, alignment and the passing of a tick (02_sundial.md R31 to R40,
R53; 19_electrical_package.md R488). -/

namespace Sys2Proof.Machine

/-- Ticks in a second. -/
def secTicks : Nat := 2 ^ 20

def sdlCode : SdlState → Nat
  | .untraceable => 0 | .acquire => 1 | .locked => 2 | .holdover => 3

/-- Whole seconds spent in HOLDOVER, saturating at 20 bits; zero outside it (R53). -/
def holdSeconds (d : Sdl) : Nat :=
  if d.state = .holdover then min ((d.grid - d.holdoverStart) / secTicks) (2 ^ 20 - 1) else 0

/-- Half the width of the qualifying window (R36). -/
def edgeWindow (d : Sdl) : Nat :=
  if d.state = .holdover then min (16 + holdSeconds d / 64) 1024 else 16

/-- The boundary that the next edge is predicted at when LOCKED is entered: the grid second nearest to now, unless its edge has
come (within the last half second) or its window has passed; then the one after it. -/
def lockedEdge (tick : Nat) (d : Sdl) : Nat :=
  let near := (d.grid + secTicks / 2) / secTicks * secTicks
  if (d.anyEdge ∧ tick < d.lastEdge + secTicks / 2) ∨ near + 16 < d.grid then near + secTicks else near

/-- A transition: STATE_CHG and an event record (R36). -/
def sdlGoto (s : State) (st : SdlState) : State :=
  let d := s.sdl
  let d' := match st with
    | .untraceable => { d with state := st, qualCount := 0, reacq := false, stepBack := false, slewing := false,
                               halfRate := false, offset := 0, missed := 0, badTrace := 0, disagree := 0 }
    | .acquire => { d with state := st, qualCount := 0, acqSince := s.tick, nextEdge := d.lastEdge + secTicks }
    | .locked => { d with state := st, everLocked := true, reacq := false, stepBack := false, missed := 0,
                          badTrace := 0, disagree := 0, strayed := false,
                          nextEdge := lockedEdge s.tick d }
    | .holdover => { d with state := st, qualCount := 0, holdoverStart := d.grid, missed := 0, badTrace := 0,
                            disagree := 0, reacq := false }
  record (sdlInt { s with sdl := d' } 0) 0x0201 0 sevNotice none (payState (sdlCode d.state) (sdlCode st) 0 0 0)

/-! Frames (R32, R33) -/

/-- The form of a frame: 16 bytes, SYNC, TYPE, CRC, reserved fields zero, TRACE not 3, SECONDS below 2^44. -/
def frameOk (b : Bytes) : Bool :=
  b.length == 16 && leAt b 0 1 == 0xC5 && leAt b 1 1 == 0x01 && leAt b 14 2 == crc16 (b.take 14)
    && decide (leAt b 10 1 < 3) && leAt b 11 1 == 0 && decide (leAt b 2 6 < 2 ^ 44)

/-- The frame's last stop bit arrives in time after the preceding edge, and no frame has come in this second. -/
def frameTimely (s : State) : Bool :=
  let d := s.sdl
  d.anyEdge && decide (131072 ≤ s.tick - d.lastEdge ∧ s.tick - d.lastEdge ≤ 917504) && !d.frameIn

def frameDiscard (s : State) : State :=
  sdlInt { s with sdl := { s.sdl with todDiscard := satInc 32 s.sdl.todDiscard } } 1

/-- Take an accepted frame. -/
def frameAccept (s : State) (b : Bytes) : State :=
  let d := s.sdl
  let sec := leAt b 2 6
  let trace := leAt b 10 1
  let expected := d.grid / secTicks + 1
  let dis := if sec = expected then 0 else if d.disagree = 0 ∨ sec = d.lastSeconds + 1 then d.disagree + 1 else 1
  let bad := if trace = 0 then 0 else d.badTrace + 1
  let d' := { d with
    utcOffset := leAt b 8 2, lastTod := b, prevSeconds := d.lastSeconds, lastSeconds := sec, lastTrace := trace,
    lastSeq := leAt b 12 2, frameIn := true, badTrace := bad, disagree := dis, lastFrameTick := s.tick,
    todOk := satInc 32 d.todOk }
  let s1 := { s with sdl := d' }
  match d.state with
  | .untraceable => if trace = 0 ∧ !d.coreFault then sdlGoto s1 .acquire else s1
  | .acquire => s1
  | .holdover => s1
  | .locked =>
      if 2 ≤ bad then sdlGoto s1 .holdover
      else if 3 ≤ dis then
        let s2 := sdlGoto s1 .holdover
        { s2 with sdl := { s2.sdl with reacq := true } }
      else s1

def execTodFrame (bytes : Bytes) (s : State) : Host.Outcome State Fault Refusal :=
  answerLive s (if frameOk bytes && frameTimely s then frameAccept s bytes else frameDiscard s)

/-- A frame that a gap of more than 182 ticks ended: complete only with 16 bytes (R33). -/
def execTodGapTimeout (bytes : Bytes) (s : State) : Host.Outcome State Fault Refusal :=
  answerLive s (if bytes = [] then s
         else if frameOk bytes && frameTimely s then frameAccept s bytes else frameDiscard s)

def execTodSilence (s : State) : Host.Outcome State Fault Refusal :=
  answer s (if s.sdl.state = .locked ∧ s.sdl.lastFrameTick + 3 * secTicks ≤ s.tick then sdlGoto s .holdover else s)

/-! Edges (R31, R36, R37) -/

/-- The frame of the preceding second has TRACE 0 and SECONDS one greater than the frame before (R36). -/
def frameQualifies (d : Sdl) : Bool := d.frameIn && d.lastTrace == 0 && d.lastSeconds == d.prevSeconds + 1

/-- The source's time at the edge just seen. -/
def sourceTime (d : Sdl) : Nat := d.lastSeconds * secTicks

/-- Align to the source (R37). `fire` applies the schedule entries that a forward step skips. -/
def alignTo (fire : State → State) (s : State) : State :=
  let d := s.sdl
  let off : Int := (sourceTime d : Int) - d.grid
  if off.natAbs ≤ 1 then
    sdlGoto { s with sdl := { d with slewing := off != 0, halfRate := false, offset := off, slewCount := 0, stepBack := false } } .locked
  else if off.natAbs ≤ 1024 then
    { s with sdl := { d with slewing := true, halfRate := false, offset := off, slewCount := 0, stepBack := false } }
  else if 0 < off then
    let s1 := { s with sdl := { d with grid := sourceTime d, grid2 := sourceTime d, offset := 0, stepBack := false } }
    sdlGoto (fire s1) .locked
  else if off.natAbs ≤ 1048576 then
    { s with sdl := { d with halfRate := true, slewing := false, offset := off, slewCount := 0, stepBack := false } }
  else { s with sdl := { d with stepBack := true } }

/-- An edge rejected, or a predicted one missing: the count of qualifying edges starts again (R36). -/
def edgeReject (s : State) : State :=
  let d := s.sdl
  let d' := { d with qualCount := 0, ppsReject := satInc 32 d.ppsReject, missed := d.missed + 1,
                     reacq := if d.state = .holdover then false else d.reacq }
  let s1 := sdlInt { s with sdl := d' } 2
  if d.state = .locked ∧ 3 ≤ d.missed + 1 then sdlGoto s1 .holdover else s1

/-- The time an edge is judged by: local ticks in ACQUIRE, the grid in LOCKED and HOLDOVER (R36). -/
def edgeClock (s : State) : Nat := if s.sdl.state = .acquire then s.tick else s.sdl.grid

/-- The edge lies within the window of the predicted boundary. -/
def edgeInWindow (s : State) : Bool :=
  decide (((edgeClock s : Int) - s.sdl.nextEdge).natAbs ≤ edgeWindow s.sdl)

/-- An edge in the window whose frame does not qualify: only the run of qualifying edges ends. -/
def edgeUnqualified (s : State) : State :=
  { s with sdl := { s.sdl with qualCount := 0, missed := 0,
                               reacq := if s.sdl.state = .holdover then false else s.sdl.reacq } }

/-- The frequency comes from TIME_REF: REF_EN is set and a 10 MHz clock is present; else it comes from SYSCLK (R31). -/
def fromTimeRef (d : Sdl) : Bool := d.refEn && d.refPresent

/-- An edge at the ball: `rising` or falling, of which PPS_POL chooses the active one. `sub` is its place within the tick in
sub-ticks; `long` that the level then holds for 1 µs (R31). Only an edge in the window moves the prediction on, or one after
it, which takes the place of the missing one. -/
def ppsEdge (fire : State → State) (rising : Bool) (sub : Nat) (long : Bool) (s : State) : State :=
  if !long || rising == s.sdl.ppsPol then s
  else
    let d := s.sdl
    let inWin := edgeInWindow s
    -- the edge that was counted as missing comes late: it is not counted again
    let late := d.missedLast && decide (edgeClock s + secTicks / 2 < d.nextEdge)
    let frameGood := frameQualifies d
    let boundary := ((d.grid + secTicks / 2) / secTicks) * secTicks
    let phase : Int := ((d.grid : Int) - boundary) * 65536 + sub
    let free := d.state == .acquire || d.state == .untraceable
    let next := if free then s.tick + secTicks
                else if inWin ∨ d.nextEdge ≤ d.grid then d.nextEdge + secTicks else d.nextEdge
    let d1 := { d with ppsCnt := satInc 32 d.ppsCnt, lastEdge := s.tick, anyEdge := true, frameIn := false, missedLast := false,
                       nextEdge := next, phaseErr := phase,
                       strayed := !free && !inWin && !late && decide (d.grid < d.nextEdge) }
    let s1 := { s with sdl := d1 }
    if d.state = .untraceable then s1
    else if !inWin then (if late then s1 else edgeReject s1)
    else if !frameGood then edgeUnqualified s1
    else
      let n := if d.qualCount < 255 then d.qualCount + 1 else 255
      let d2 := { d1 with qualCount := n, edge := d.grid, missed := 0, acqSince := s.tick, phaseQual := phase,
                          reacq := if d.state = .holdover then true else d.reacq,
                          freqAdj := Sys2Proof.Config.freqAdj s.freeCtr (fromTimeRef d) phase }
      let s2 := bumpCtr { s with sdl := d2 }
      if (d.state = .acquire ∨ d.state = .holdover) ∧ 4 ≤ n ∧ !d.slewing ∧ !d.halfRate then
        -- the frame's SECONDS names the second that begins at this edge
        alignTo fire s2
      else s2

/-- The predicted window passes without an edge: the second has no frame that an edge could follow. An edge of that second
that came early has been counted already. -/
def execPpsMissing (s : State) : Host.Outcome State Fault Refusal :=
  let d := s.sdl
  answer s (if d.state ≠ .untraceable ∧ d.nextEdge + edgeWindow d < edgeClock s then
      let s1 := { s with sdl := { d with nextEdge := d.nextEdge + secTicks, missedLast := true, frameIn := false, strayed := false } }
      if d.strayed then s1 else edgeReject s1
    else s)

def execAcquireTimeout (s : State) : Host.Outcome State Fault Refusal :=
  answer s (if s.sdl.state = .acquire ∧ s.sdl.acqSince + 2 * secTicks ≤ s.tick then sdlGoto s .untraceable else s)

/-- Slewing or half-rate running has brought the offset within one tick (R37). -/
def execAlignComplete (s : State) : Host.Outcome State Fault Refusal :=
  answer s (if s.sdl.state ≠ .locked ∧ (s.sdl.slewing || s.sdl.halfRate) && decide (s.sdl.offset.natAbs ≤ 1) then sdlGoto s .locked else s)

def execHoldoverLimit (s : State) : Host.Outcome State Fault Refusal :=
  answer s (if s.sdl.state = .holdover ∧ s.sdl.limitS ≤ holdSeconds s.sdl then sdlGoto s .untraceable else s)

def execHoldoverWarn (s : State) : Host.Outcome State Fault Refusal :=
  answer s (if s.sdl.state = .holdover ∧ s.sdl.limitS * secTicks * 9 ≤ (s.sdl.grid - s.sdl.holdoverStart) * 10 then sdlInt s 6 else s)

/-- The two grid counters are compared; `other` is what the second one holds (R40). -/
def execCoreFault (other : Nat) (s : State) : Host.Outcome State Fault Refusal :=
  answer s (if other = s.sdl.grid then s
    else
      let s1 := sdlInt { s with sdl := { s.sdl with grid2 := other, coreFault := true } } 5
      let s2 := if s.sdl.state = .untraceable then s1 else sdlGoto s1 .untraceable
      record s2 0x0204 0 sevFault none (payState 0 0 0 s.sdl.grid other))

/-! The status frame (R34) and the frequency reference (R488) -/

/-- The signed phase error, saturating at ±32,767, as 16 bits. -/
def phaseField (x : Int) : Nat :=
  let y : Int := if 32767 < x then 32767 else if x < -32767 then -32767 else x
  (y % 65536).toNat

def statusFrame (d : Sdl) : Bytes :=
  let b := [0xC5, 0x81] ++ leBytes 6 (d.grid / secTicks) ++ leBytes 1 (sdlCode d.state)
    ++ leBytes 1 ((if d.refPresent then 1 else 0) + (if d.slewing then 2 else 0)) ++ leBytes 2 (phaseField d.phaseQual)
    ++ leBytes 2 d.lastSeq
  b ++ leBytes 2 (crc16 b)

/-- A status frame is sent 524,288 ticks after each grid second, once a second, while TOD_TX_EN is 1. -/
def execTodTxFrame (s : State) : Host.Outcome State Fault Refusal :=
  let d := s.sdl
  answerLive s (if d.todTxEn && decide (524288 ≤ d.grid % secTicks) && decide (d.txSecond ≤ d.grid / secTicks) then
      emit { s with sdl := { d with txSecond := d.grid / secTicks + 1 } } (.port .time (statusFrame d))
    else s)

/-- The TIME_REF check of a 1,024-tick window: a clock within ±200 ppm of 10 MHz (R31, R488). -/
def execRefCheckWindow (clock : Bool) (ppm : Int) (s : State) : Host.Outcome State Fault Refusal :=
  answerLive s { s with sdl := { s.sdl with refPresent := clock && decide (ppm.natAbs ≤ 200) } }

/-! The passing of a tick (R37) -/

/-- The grid over one local tick: full rate, half rate, or one tick added or withheld in 1,024 while slewing. -/
def gridTick (d : Sdl) : Sdl :=
  let run (n : Nat) (o : Int) : Sdl :=
    { d with slewCount := d.slewCount + 1, grid := d.grid + n, grid2 := d.grid2 + n, offset := o,
             slewing := d.slewing && o != 0, halfRate := d.halfRate && decide (o < 0) }
  if d.halfRate ∧ d.offset < 0 then (if d.slewCount % 2 = 0 then run 0 (d.offset + 1) else run 1 d.offset)
  else if d.slewing ∧ d.offset ≠ 0 ∧ d.slewCount % 1024 = 1023 then
    (if 0 < d.offset then run 2 (d.offset - 1) else run 0 (d.offset + 1))
  else run 1 d.offset

end Sys2Proof.Machine
end

