-- ==== Sys2Proof/Machine/Schedule.lean ====
section
/-! DEFINITION. The schedule and the TIME commands (02_sundial.md R38, R39, R46 to R52; 13_tenancy.md R353). -/

namespace Sys2Proof.Machine

/-! Entries (R46) -/

def entryParse (b : Bytes) : SchedEntry :=
  { tick := leAt b 0 8, seq := leAt b 8 4, action := leAt b 12 1, parkWide := (leAt b 13 1).testBit 0,
    armed := (leAt b 13 1).testBit 1, tenant := leAt b 14 2 % 4096, target := leAt b 16 4, param := leAt b 20 4,
    previous := leAt b 24 8 }

def entryBytes (e : SchedEntry) : Bytes :=
  leBytes 8 e.tick ++ leBytes 4 e.seq ++ leBytes 1 e.action ++ leBytes 1 (b2n e.parkWide + 2 * b2n e.armed)
    ++ leBytes 2 e.tenant ++ leBytes 4 e.target ++ leBytes 4 e.param ++ leBytes 8 e.previous

/-- Fields the host writes as zero (R6, R46). -/
def entryReservedOk (b : Bytes) : Bool :=
  leAt b 8 4 == 0 && decide (leAt b 13 1 < 2) && decide (leAt b 14 2 < 4096) && leAt b 24 8 == 0

def schedActKey (a : Nat) : Bool := a == 1 || a == 2 || a == 4
def leadTicks : Nat := 131072

/-- The third row of R48 for one entry of a tenant; a parameter other than PROFILE's must be zero. Which tenant may own SELFTEST
and MACSEC_ROTATE entries is not stated: the caller's own is the model's reading (DEDUCED, log 53). -/
def entryTargetOk (s : State) (tenant : Nat) (e : SchedEntry) : Bool :=
  e.tenant == tenant
    && (if e.action = 4 then decide (e.param < 3) else e.param == 0)
    && (if schedActKey e.action then
          match findKey s tenant e.target with
          | some (_, o) => attrFlag o.attr flParkWide == e.parkWide
          | none => false
        else if e.action = 3 then decide (e.target < 4)
        else e.action == 5 && decide (e.target < 16))

/-- The conditions of R48 in the table's order, then the quota of R353. -/
def schedCheck (s : State) (tenant : Nat) (b : Bytes) : Res (List SchedEntry) := do
  let raw := (List.range (b.length / 32)).map (fun i => (b.drop (32 * i)).take 32)
  let es := raw.map entryParse
  failIf (raw.any (fun r => !entryReservedOk r)) stParam dReserved
  failIf (untraceable s) stTime 0
  failIf (es.any (fun e => decide (e.tick < now s + leadTicks))) stParam 0x0010
  failIf (es.any (fun e => !entryTargetOk s tenant e)) stParam 0x0011
  failIf (decide (256 < s.sdl.sched.length + es.length)) stDenied 0x0012
  failIf (decide ((quotaOf s tenant).schedMax < (s.sdl.sched.filter (fun e => e.tenant == tenant)).length + es.length))
    stDenied dQuotaSchedule
  .ok es

/-- The SEQ of the `n`-th entry a unit numbers. A PARK_WIDE entry has one SEQ on every unit (R49): such numbers lie in a range
of the unit that assigns them, which no other unit takes a number from (DEDUCED, log 100). -/
def seqNumber (address n : Nat) (wide : Bool) : Nat :=
  if wide then 2 ^ 31 + 2 ^ 24 * (address % 64) + n % 2 ^ 24 else n % 2 ^ 31

/-- Number entries from the next sequence number. -/
def numberEntries (address : Nat) : Nat → List SchedEntry → List SchedEntry
  | _, [] => []
  | n, e :: r => { e with seq := seqNumber address n e.parkWide } :: numberEntries address (n + 1) r

/-! Arming (R47, R49) -/

/-- Arming an entry: ACTIVATE and RETIRE set the window of the target and remember what they replace. -/
def armEntry (s : State) (e : SchedEntry) : State × SchedEntry :=
  match findObj s e.target with
  | some (b, o) =>
      if e.action = 1 then
        (setAttr s b (fun a => { a with notBefore := e.tick }), { e with armed := true, previous := o.attr.notBefore })
      else if e.action = 2 then
        (setAttr s b (fun a => { a with notAfter := e.tick - 1 }), { e with armed := true, previous := o.attr.notAfter })
      else (s, { e with armed := true })
  | none => (s, { e with armed := true })

/-- Put an entry into the schedule, kept in SEQ order. -/
def putEntry (l : List SchedEntry) (e : SchedEntry) : List SchedEntry :=
  l.filter (fun x => decide (x.seq < e.seq)) ++ [e] ++ l.filter (fun x => decide (e.seq < x.seq))

def armAll (s : State) (es : List SchedEntry) : State :=
  es.foldl (fun s e =>
    let r := armEntry s e
    { r.1 with sdl := { r.1.sdl with sched := putEntry r.1.sdl.sched r.2 } }) s

/-- Hold the places and numbers of entries from PREPARE until COMPLETE: they stand in the schedule and are not ARMED (R49). -/
def reserveEntries (s : State) (es : List SchedEntry) : State :=
  { s with sdl := { s.sdl with sched := es.foldl putEntry s.sdl.sched } }

/-- Give them up. -/
def dropEntries (s : State) (es : List SchedEntry) : State :=
  { s with sdl := { s.sdl with
      sched := s.sdl.sched.filter (fun x => x.armed || !es.any (fun e => e.seq == x.seq)) } }

/-- Cancel an entry: ACTIVATE and RETIRE write PREVIOUS back (R51). -/
def cancelEntry (s : State) (seq : Nat) : State :=
  match s.sdl.sched.find? (fun e => e.seq == seq) with
  | none => s
  | some e =>
      let s1 := { s with sdl := { s.sdl with sched := s.sdl.sched.filter (fun x => x.seq != seq) } }
      if !e.armed then s1
      else match findObj s e.target with
        | some (b, _) =>
            if e.action = 1 then setAttr s1 b (fun a => { a with notBefore := e.previous })
            else if e.action = 2 then setAttr s1 b (fun a => { a with notAfter := e.previous })
            else s1
        | none => s1

/-! Firing (R47, R50) -/

/-- Move a port's transmit to association r + 1; r + 2 is installed once a frame has come under r + 1 (R332). -/
def rotatePort (p : PeerPort) : PeerPort := { p with rot := p.rot + 1, nextInstalled := false, pn := 1 }

/-- Apply an entry at its tick; whether it had an effect. -/
def applyEntry (s : State) (e : SchedEntry) : State × Bool :=
  if e.action = 3 then
    if s.prk.st = .alone then (s, false)
    else
      let a := if e.target.testBit 0 then rotatePort s.prk.portA else s.prk.portA
      let b := if e.target.testBit 1 then rotatePort s.prk.portB else s.prk.portB
      ({ s with prk := { s.prk with portA := a, portB := b } }, true)
  else if e.action = 4 then
    match findObj s e.target with
    | some (b, o) =>
        if topProfile o.attr.alg < e.param then (s, false)
        else (setAttr s b (fun a => { a with floor := e.param }), true)
    | none => (s, false)
  else if e.action = 5 then selftestPavilion s e.target
  else (s, (findObj s e.target).isSome)

/-- The record of a removed entry: VALUE0 is its SEQ, VALUE1 its target. -/
def entryRecord (s : State) (e : SchedEntry) (effect : Bool) : State :=
  sdlInt (record s (if effect then 0x0202 else 0x0203) 0 sevNotice (some e.tenant) (payState 0 0 e.action e.seq e.target)) 3

/-- Entries due, the earliest tick first, then in SEQ order. -/
def dueEntries (s : State) : List SchedEntry :=
  let due := s.sdl.sched.filter (fun e => e.armed && decide (e.tick ≤ now s))
  due.foldl (fun l e => l.filter (fun x => decide (x.tick ≤ e.tick)) ++ [e] ++ l.filter (fun x => decide (e.tick < x.tick))) []

/-- Apply and remove every entry that is due. -/
def fireSchedule (s : State) : State :=
  (dueEntries s).foldl (fun s e =>
    let s1 := { s with sdl := { s.sdl with sched := s.sdl.sched.filter (fun x => x.seq != e.seq) } }
    let r := applyEntry s1 e
    entryRecord r.1 e r.2) s

def execScheduleFire (s : State) : Host.Outcome State Fault Refusal := answer s (fireSchedule s)

/-- An edge of PPS_IN; a forward step of the grid takes the entries it passes (R36, R37, R50). -/
def execPpsEdge (sub : Fin 65536) (edge : PulseEdge) (s : State) : Host.Outcome State Fault Refusal :=
  answerLive s (ppsEdge fireSchedule edge.rising sub.val edge.long s)

/-! The TIME commands -/

/-- TIME_SCHEDULE_ADD at its change; `park` begins the two-phase commit of R338 for PARK_WIDE entries. -/
def performScheduleAdd (park : Cmd → ParkChange → Bytes → State → State) (c : Cmd) (s : State) : State :=
  match schedCheck s (tenantOf s c.fn) c.input with
  | .error e => completeCmd s c e.1 e.2
  | .ok es =>
      let out := 4 * es.length
      if outRoom c < out then complete s c.fn c.queue c.desc.tag stOutSmall 0 out 0
      else
        let es' := numberEntries s.prk.address s.sdl.nextSeq es
        let bytes := es'.flatMap (fun e => leBytes 4 e.seq)
        let s1 := { s with sdl := { s.sdl with nextSeq := s.sdl.nextSeq + es.length } }
        if es'.any (fun e => e.parkWide) then park c (.sched es') bytes s1
        else completeOut (critCommitted (armAll s1 es') c) c bytes

/-- SEQ values named twice. -/
def seqTwice : List Nat → Bool
  | [] => false
  | x :: r => r.contains x || seqTwice r

/-- The conditions of R51: the lead of the entries named, then SEQ values that name no entry of the tenant. -/
def cancelCheck (s : State) (tenant : Nat) (seqs : List Nat) : Res Unit := do
  let own := s.sdl.sched.filter (fun e => e.tenant == tenant)
  failIf (own.any (fun e => seqs.contains e.seq && decide (e.tick < now s + leadTicks))) stParam 0x0010
  failIf (seqTwice seqs || seqs.any (fun q => !own.any (fun e => e.seq == q))) stParam 0x0013

def seqsOf (b : Bytes) : List Nat := (List.range (b.length / 4)).map (fun i => leAt b (4 * i) 4)

def performScheduleCancel (park : Cmd → ParkChange → Bytes → State → State) (c : Cmd) (s : State) : State :=
  let seqs := seqsOf c.input
  match cancelCheck s (tenantOf s c.fn) seqs with
  | .error e => completeCmd s c e.1 e.2
  | .ok _ =>
      if s.sdl.sched.any (fun e => seqs.contains e.seq && e.parkWide) then park c (.unsched seqs) [] s
      else completeCmd (critCommitted (seqs.foldl cancelEntry s) c) c 0 0

/-- TIME_POLICY: the holdover limit; zero ends a HOLDOVER at once (R38). -/
def performTimePolicy (c : Cmd) (s : State) : State :=
  let v := leAt c.input 0 4
  if 604800 < v then completeCmd s c stParam 0
  else
    let s1 := { s with sdl := { s.sdl with limitS := v } }
    let s2 := if v = 0 ∧ s.sdl.state = .holdover then sdlGoto s1 .untraceable else s1
    completeCmd (critCommitted s2 c) c 0 0

/-- The 16-byte timestamp of R39; the sub-tick is a free value. UNIT 0xFF on a unit without a park address is the model's choice
(log 137). -/
def stampBytes (s : State) : Bytes :=
  let d := s.sdl
  leBytes 2 (Sys2Proof.Config.subtick s.freeCtr % 65536) ++ leBytes 8 d.grid ++ leBytes 1 (sdlCode d.state)
    ++ leBytes 1 (b2n (untraceable s) + 2 * b2n (d.state == .holdover) + 4 * b2n d.slewing) ++ leBytes 2 d.utcOffset
    ++ leBytes 1 (unitByte s) ++ [0]

def doTimeStamp (c : Cmd) (s : State) : State := bumpCtr (completeOut s c (stampBytes s))

/-- TIME_STATUS: the layout of its output is not stated; its bytes are a free value. -/
def doTimeStatus (c : Cmd) (s : State) : State := bumpCtr (completeOut s c (Sys2Proof.Config.timeStatus s.freeCtr))

end Sys2Proof.Machine
end

