-- ==== Sys2Proof/Machine/Park.lean ====
section
/-! DEFINITION. The park: frames, links, membership, the walk, the park key, leases and heartbeats (12_park.md R323 to
R336, R340). Payload layouts that the spec does not give are the model's own. -/

namespace Sys2Proof.Machine

/-! Units of the roster -/

def parkN (s : State) : Nat := s.prk.roster.length
def inRoster (s : State) (u : Nat) : Bool := decide (u < parkN s)
def isLost (s : State) (u : Nat) : Bool := s.prk.lost.testBit u
def isEvicted (s : State) (u : Nat) : Bool := s.prk.evicted.testBit u
def isSelf (s : State) (u : Nat) : Bool := s.prk.addressed && u == s.prk.address
/-- Roster units not evicted. -/
def parkUnits (s : State) : List Nat := (List.range (parkN s)).filter (fun u => !isEvicted s u)
def unitBits (l : List Nat) : Nat := l.foldl (fun n u => n ||| 2 ^ u) 0
def bitUnits (n : Nat) : List Nat := (List.range 64).filter (fun u => n.testBit u)

def getPeer (s : State) (u : Nat) : Peer := kget (fun _ => peerReset) s.prk.peers u
def setPeer (s : State) (u : Nat) (p : Peer) : State :=
  { s with prk := { s.prk with peers := kset (fun _ => peerReset) s.prk.peers u p } }

/-- The unit's own digest: SHA3-256 of its ECDSA P-384 attestation public key (R324, R328). -/
def ownKey (s : State) : Bytes := attestEcPub s.lcs.deviceId s.lcs.state
def ownDigest (s : State) : Bytes := sha3_256 (ownKey s)

/-- Hops to a unit through port A and through port B. -/
def hopsA (s : State) (u : Nat) : Nat := (u + parkN s - s.prk.address) % parkN s
def hopsB (s : State) (u : Nat) : Nat := (s.prk.address + parkN s - u) % parkN s
/-- The leased arc of a pair at first: the shorter, and on a tie the one that leaves the lower address through port A. -/
def firstArcB (s : State) (u : Nat) : Bool :=
  if hopsA s u = hopsB s u then decide (u < s.prk.address) else decide (hopsB s u < hopsA s u)

/-! Frames (R325, R326) -/

def fcBcast : Nat := 1
def fcResent : Nat := 2
def fcLastFrag : Nat := 4
def fcUnaddressed : Nat := 8

def frType (b : Bytes) : Nat := leAt b 1 1
def frFlags (b : Bytes) : Nat := leAt b 2 1
def frDst (b : Bytes) : Nat := leAt b 3 1
def frSrc (b : Bytes) : Nat := leAt b 4 1
def frTtl (b : Bytes) : Nat := leAt b 5 1
def frSeq (b : Bytes) : Nat := leAt b 8 8
def frBcast (b : Bytes) : Bool := (frFlags b).testBit 0
def frUnaddressed (b : Bytes) : Bool := (frFlags b).testBit 3

/-- A frame's CRC: over the header with CRC zero, and the payload. -/
def frameCrc (b : Bytes) : Nat := crc32c (b.take 28 ++ [0, 0, 0, 0] ++ b.drop 32)
def sealFrame (b : Bytes) : Bytes := b.take 28 ++ leBytes 4 (frameCrc b) ++ b.drop 32

def knownTypes : List Nat :=
  [0x01, 0x02, 0x03, 0x04, 0x05, 0x06, 0x07, 0x10, 0x11, 0x12, 0x13, 0x20, 0x21, 0x22, 0x23, 0x24, 0x25, 0x30, 0x31, 0x40,
   0x41, 0x42]
def openType (t : Nat) : Bool := decide (t ≤ 0x07) || t == 0x40
def signedType (t : Nat) : Bool := t == 0x01 || t == 0x02 || t == 0x05 || t == 0x40
def unaddressedType (t : Nat) : Bool := decide (1 ≤ t ∧ t ≤ 4)

/-- The form of R325. -/
def frameForm (b : Bytes) : Bool :=
  decide (32 ≤ b.length) && b.length == 32 + leAt b 6 2 && leAt b 0 1 == 1 && leAt b 28 4 == frameCrc b
    && decide (frFlags b < 16) && decide (frDst b < 64) && decide (frSrc b < 64) && leAt b 22 2 == 0
    && knownTypes.contains (frType b) && (!frUnaddressed b || unaddressedType (frType b))

/-- A whole frame. -/
def frameBytes (type flags dst src seq msg frag epoch : Nat) (payload : Bytes) : Bytes :=
  sealFrame (leBytes 1 1 ++ leBytes 1 type ++ leBytes 1 flags ++ leBytes 1 dst ++ leBytes 1 src ++ [63]
    ++ leBytes 2 payload.length ++ leBytes 8 seq ++ leBytes 4 msg ++ leBytes 2 frag ++ [0, 0] ++ leBytes 4 epoch
    ++ [0, 0, 0, 0] ++ payload)

/-- The frames of a message: its fragments with consecutive SEQ and one MSG_ID, the last one marked. -/
def fragments : Nat → Bytes → List Bytes
  | 0, _ => []
  | n + 1, b => if b.length ≤ 1536 then [b] else b.take 1536 :: fragments n (b.drop 1536)
def messageFrames (type flags dst src seq msg epoch : Nat) (payload : Bytes) : List Bytes :=
  let parts := fragments (payload.length / 1536 + 1) payload
  (List.zip (List.range parts.length) parts).map (fun e =>
    frameBytes type (flags ||| (if e.1 + 1 = parts.length then fcLastFrag else 0)) dst src (seq + e.1) msg e.1 epoch e.2)

def port (s : State) (b : Bool) : PeerPort := if b then s.prk.portB else s.prk.portA
def setPort (s : State) (b : Bool) (p : PeerPort) : State :=
  if b then { s with prk := { s.prk with portB := p } } else { s with prk := { s.prk with portA := p } }

/-! MACsec (R324, R332): the SecTAG, the IV and the SSCI are those of IEEE 802.1AE for GCM-AES-XPN-256 (PRESUMED, log 146) -/

/-- x of R332 for the link between neighbours `a` < `b` in an epoch after `r` rotations. -/
def sakContext (s : State) (a b r : Nat) : Bytes :=
  s.prk.parkId ++ leBytes 4 s.prk.epoch ++ leBytes 1 a ++ leBytes 1 b ++ leBytes 4 r
def sakOf (s : State) (a b r : Nat) : Bytes := kmac256 s.prk.key (sakContext s a b r) (ascii "SX256Q SAK") 32
def saltOf (s : State) (a b r : Nat) : Bytes := kmac256 s.prk.key (sakContext s a b r) (ascii "SX256Q SALT") 12

/-- The addresses of the link at a port, the lower first; the closing link is that of 0 and N - 1. -/
def linkEnds (s : State) (portB : Bool) : Nat × Nat :=
  let n := parkN s
  let v := if portB then (s.prk.address + n - 1) % n else (s.prk.address + 1) % n
  (min s.prk.address v, max s.prk.address v)

/-- SA of a unit, by the digest of its attestation key; DA of a port: the neighbour's, or broadcast (R324). -/
def macOf (digest : Bytes) : Bytes := 0x02 :: digest.take 5
def neighbourMac (p : PeerPort) : Bytes := match p.neighbour with
  | some n => macOf n.1
  | none => List.replicate 6 0xFF
/-- SCI of a port. -/
def sciOf (mac : Bytes) (portB : Bool) : Bytes := mac ++ [0, if portB then 2 else 1]

/-- A park frame as it leaves a port without protection. -/
def plainFrame (s : State) (p : PeerPort) (b : Bytes) : Bytes := neighbourMac p ++ macOf (ownDigest s) ++ [0x88, 0xB5] ++ b

/-- A park frame under the transmit association of a port. -/
def secureFrame (s : State) (portB : Bool) (p : PeerPort) (b : Bytes) : Bytes :=
  let inner := [0x88, 0xB5] ++ b
  let own := sciOf (macOf (ownDigest s)) portB
  let other := sciOf (neighbourMac p) (!portB)
  let e := linkEnds s portB
  let f := aesEnc (sakOf s e.1 e.2 p.rot)
  let iv := xorBytes (saltOf s e.1 e.2 p.rot) (beBytes 4 (if beNat other < beNat own then 1 else 2) ++ beBytes 8 p.pn)
  let head := neighbourMac p ++ macOf (ownDigest s) ++ [0x88, 0xE5] ++ leBytes 1 (0x2C + p.rot % 4)
    ++ leBytes 1 (if inner.length < 48 then inner.length else 0) ++ beBytes 4 p.pn ++ own
  let c := gcmCtr f iv inner
  head ++ c ++ gcmTag f iv head c

/-- A port has a transmit association for a frame: frames that are not open travel under it once a park key exists. -/
def protects (s : State) (b : Bytes) : Bool := !openType (frType b) && s.prk.epoch != 0

/-- Put a frame on a port whose link is up: the packet number of the association advances (R332). -/
def putFrame (s : State) (portB : Bool) (b : Bytes) : State :=
  let p := port s portB
  if p.linkUp then
    let out := if protects s b then secureFrame s portB p b else plainFrame s p b
    meterAdd (pmcDev (emit (setPort s portB { p with pn := if protects s b then p.pn + 1 else p.pn })
      (.port (if portB then .peerB else .peerA) out)) 192 1) (if portB then 4 else 2) out.length
  else s

def discardFrame (s : State) : State := { s with prk := { s.prk with discard := satInc 32 s.prk.discard } }

/-- Pass a frame on out of the opposite port; one whose TTL reaches 0 is discarded (R324). -/
def forwardFrame (s : State) (f : FrameIn) : State :=
  if frTtl f.bytes ≤ 1 then discardFrame s
  else putFrame s (!f.portB) (sealFrame (f.bytes.take 5 ++ leBytes 1 (frTtl f.bytes - 1) ++ f.bytes.drop 6))

/-- The sender's SRC and flag: UNADDRESSED and 0x3F before the walk. -/
def ownSrc (s : State) : Nat := if s.prk.addressed then s.prk.address else 0x3F
def ownFlag (s : State) : Nat := if s.prk.addressed then 0 else fcUnaddressed

/-- The payload of a message as it is sent: one of a signed type ends with the sender's ECDSA P-384 and ML-DSA-87 attestation
signatures over its type and what comes before them (R326; the layout is the model's, log 146). -/
def signedPayload (s : State) (type : Nat) (payload : Bytes) : Bytes × State :=
  if signedType type then
    let m := leBytes 1 type ++ payload
    (payload ++ attestSignEc s.lcs.deviceId s.lcs.state s.freeCtr m ++ attestSignMl s.lcs.deviceId s.lcs.state (s.freeCtr + 1) m,
      { s with freeCtr := s.freeCtr + 2 })
  else (payload, s)

/-- Send a message out of one port, or of both, without an acknowledgement: broadcasts and frames between neighbours. -/
def sendOn (s : State) (ports : List Bool) (type flags dst : Nat) (payload : Bytes) : State :=
  let d := signedPayload s type payload
  let l := messageFrames type (flags ||| ownFlag s) dst (ownSrc s) s.prk.bcastSeq s.prk.msgId s.prk.epoch d.1
  let s1 := { d.2 with prk := { s.prk with bcastSeq := s.prk.bcastSeq + l.length, msgId := (s.prk.msgId + 1) % 2 ^ 32 } }
  l.foldl (fun s b => ports.foldl (fun s p => putFrame s p b) s) s1

def broadcast (s : State) (type : Nat) (payload : Bytes) : State := sendOn s [false, true] type fcBcast 0x3F payload

/-! The hold of a port (R335) -/

def holdSize (p : PeerPort) : Nat := p.held.foldl (fun n h => n + h.bytes.length) 0
def holdMax : Nat := 2 ^ 20

/-- Frames that wait take places in the hold as they fit, and are sent. -/
def holdDrain (portB : Bool) : Nat → State → State
  | 0, s => s
  | n + 1, s =>
      let p := port s portB
      match p.waiting with
      | [] => s
      | h :: r =>
          if holdMax < holdSize p + h.bytes.length then s
          else holdDrain portB n (putFrame (setPort s portB { p with held := p.held ++ [h], waiting := r }) portB h.bytes)

/-- Queue a frame on a port: while the hold is full it waits, and HOLD_FULL is set. -/
def holdFrame (s : State) (portB : Bool) (h : HeldFrame) : State :=
  let p := port s portB
  if p.waiting = [] ∧ holdSize p + h.bytes.length ≤ holdMax then
    putFrame (setPort s portB { p with held := p.held ++ [h] }) portB h.bytes
  else prkInt (setPort s portB { p with waiting := p.waiting ++ [h] }) 3

/-- The arc in use toward a unit: the leased one, or the one it would have at first. -/
def arcOf (s : State) (u : Nat) : Bool := if (getPeer s u).lease then (getPeer s u).arcB else firstArcB s u

/-- Unicast types that are held until acknowledged: open frames cross before an association exists, ACK itself answers, and
LOST_NOTICE goes to a unit whose frames are no longer taken. These three take the SEQ that comes next without using it up
(DESIGN CHOICE, log 98). -/
def heldType (type : Nat) : Bool := !(openType type || type == 0x12 || type == 0x13)

/-- Send a unicast message to a unit out of a port; its frames are held until acknowledged. -/
def sendVia (s : State) (portB : Bool) (u type : Nat) (payload : Bytes) : State :=
  let d := signedPayload s type payload
  let p := getPeer s u
  let l := messageFrames type (ownFlag s) u (ownSrc s) p.txSeq s.prk.msgId s.prk.epoch d.1
  let s1 := { d.2 with prk := { s.prk with msgId := (s.prk.msgId + 1) % 2 ^ 32 } }
  if heldType type then
    (List.zip (List.range l.length) l).foldl (fun s e => holdFrame s portB { dst := u, seq := p.txSeq + e.1, bytes := e.2 })
      (setPeer s1 u { p with txSeq := p.txSeq + l.length })
  else l.foldl (fun s b => putFrame s portB b) s1

/-- Send a unicast message to a unit over its arc. -/
def sendTo (s : State) (u type : Nat) (payload : Bytes) : State := sendVia s (arcOf s u) u type payload

/-- The numbering of the frames between this unit and `u` begins again, and what was held for it is given up: the unit comes
back after a resynchronisation, or its BEATS tell of a full reset (DESIGN CHOICE, log 101). -/
def restartSeq (s : State) (u : Nat) : State :=
  let drop (p : PeerPort) : PeerPort := { p with
    held := p.held.filter (fun h => h.dst != u), waiting := p.waiting.filter (fun h => h.dst != u) }
  let s1 := setPeer s u { getPeer s u with txSeq := 0, rxSeq := 0, rxAhead := [], beatsSeen := 0 }
  { s1 with prk := { s1.prk with
    portA := drop s1.prk.portA, portB := drop s1.prk.portB, ackOwed := s1.prk.ackOwed - (s1.prk.ackOwed &&& 2 ^ u) } }

/-- Resend every unacknowledged frame for a unit over its new arc, in SEQ order, with RESENT set. -/
def resendAll (s : State) (u : Nat) (portB : Bool) : State :=
  let old := port s (!portB)
  let mine := old.held.filter (fun h => h.dst == u)
  let wait := old.waiting.filter (fun h => h.dst == u)
  let s1 := setPort s (!portB) { old with
    held := old.held.filter (fun h => h.dst != u), waiting := old.waiting.filter (fun h => h.dst != u) }
  let s2 := mine.foldl (fun s h =>
    let b := sealFrame (h.bytes.take 2 ++ leBytes 1 (frFlags h.bytes ||| fcResent) ++ h.bytes.drop 3)
    pmcDev { holdFrame s portB { h with bytes := b } with
      prk := { (holdFrame s portB { h with bytes := b }).prk with resent := satInc 32 s.prk.resent } } 194 1) s1
  wait.foldl (fun s h => holdFrame s portB h) s2

/-! Receiving (R324 to R326, R335, R340) -/

/-- A frame from a lost or evicted unit, other than HEARTBEAT and RESYNC_REQ, is answered with LOST_NOTICE. -/
def noticeTo (s : State) (f : FrameIn) : State := sendVia s f.portB (frSrc f.bytes) 0x13 []

/-- The association a frame came under is one the port receives on: of the epoch in force, rotation r, r + 1 once installed, and
until then the one before; or of the epoch before, until its end (R331, R332). -/
def currentAssoc (s : State) (f : FrameIn) : Bool :=
  match f.assoc with
  | none => false
  | some (e, r) =>
      let p := port s f.portB
      e != 0 && ((e == s.prk.epoch && (r == p.rot || (p.nextInstalled && r == p.rot + 1) || (!p.nextInstalled && r + 1 == p.rot)))
        || (e + 1 == s.prk.epoch && decide (now s < s.prk.prevUntil)))

/-- A frame under the association in use installs the next one (R332). -/
def installNext (s : State) (f : FrameIn) : State :=
  let p := port s f.portB
  if f.assoc = some (s.prk.epoch, p.rot) then setPort s f.portB { p with nextInstalled := true } else s

/-! SEQ of what has been accepted (R335) -/

def seqSeen (p : Peer) (q : Nat) : Bool := decide (q < p.rxSeq) || p.rxAhead.contains q
def rxAdvance : Nat → Nat → List Nat → Nat × List Nat
  | 0, n, l => (n, l)
  | f + 1, n, l => if l.contains n then rxAdvance f (n + 1) (l.filter (fun x => x != n)) else (n, l)
def acceptSeq (p : Peer) (q : Nat) : Peer :=
  let r := rxAdvance (p.rxAhead.length + 1) p.rxSeq (p.rxAhead ++ [q])
  { p with rxSeq := r.1, rxAhead := r.2 }

def frFrag (b : Bytes) : Nat := leAt b 20 2
def frLast (b : Bytes) : Bool := (frFlags b).testBit 2

/-- Receive a frame of one type: form, security and signature, forwarding, the sender's standing, and a SEQ already
accepted. `k` is what the message does, with its last fragment once the others have come. A unit that has not joined passes
frames on and answers WALK alone. -/
def receive (f : FrameIn) (type : Nat) (k : State → State) (s : State) : State :=
  let b := f.bytes
  if !live s then s
  else
  let s := meterAdd s (if f.portB then 5 else 3) b.length
  if !frameForm b || frType b != type then discardFrame s
  else if !openType type && !currentAssoc s f then
    { s with prk := { s.prk with macsecDrop := satInc 32 s.prk.macsecDrop } }
  else if signedType type && !f.signed then s
  else if !frUnaddressed b && frSrc b == s.prk.address && s.prk.addressed then s
  else
    let s1 := installNext (pmcDev s 193 1) f
    -- WALK, and WALK_FAIL of a walk, go from neighbour to neighbour
    let near := type == 0x02 || (type == 0x03 && s1.prk.st == .walking)
    let mine := frBcast b || near || isSelf s (frDst b)
    let s2 := if frBcast b || !mine then forwardFrame s1 f else s1
    if !mine || (s.prk.st == .alone && type != 0x02) then s2
    else if !frUnaddressed b && (isLost s (frSrc b) || isEvicted s (frSrc b)) && type != 0x10 && type != 0x40
        && s.prk.st == .formed && s.prk.serving != some (frSrc b) then noticeTo s2 f
    else if frBcast b || !heldType type then (if frLast b then k s2 else s2)
    else
      let u := frSrc b
      let p := getPeer s2 u
      let s3 := { s2 with prk := { s2.prk with ackOwed := s2.prk.ackOwed ||| 2 ^ u } }
      if seqSeen p (frSeq b) then s3
      else if !frLast b then setPeer s3 u (acceptSeq p (frSeq b))
      else if (List.range (frFrag b)).all (fun i => seqSeen p (frSeq b - 1 - i)) then k (setPeer s3 u (acceptSeq p (frSeq b)))
      else s2

/-- FOREIGN_FRAME: another EtherType, or a frame that R325 discards. -/
def execForeignFrame (portB : Bool) (bytes : Bytes) (s : State) : Host.Outcome State Fault Refusal :=
  answerLive s (discardFrame (meterAdd s (if portB then 5 else 3) bytes.length))

/-- ACK: everything up to a SEQ has been accepted by its sender; what waited may enter the hold. -/
def execAck (f : FrameIn) (seq : Nat) (s : State) : Host.Outcome State Fault Refusal :=
  answer s (receive f 0x12 (fun s =>
    let u := frSrc f.bytes
    let clear (s : State) (b : Bool) : State :=
      let p := port s b
      let s1 := setPort s b { p with held := p.held.filter (fun h => !(h.dst == u && decide (h.seq ≤ seq))) }
      holdDrain b p.waiting.length s1
    let s1 := { s with prk := { s.prk with
      unanswered := s.prk.unanswered.filter (fun x => !(x.1 == u && decide (x.2.1 ≤ seq))) } }
    clear (clear s1 false) true) s)

/-- ACK_TIMER: every 16 ticks while frames are outstanding. -/
def execAckTimer (s : State) : Host.Outcome State Fault Refusal :=
  answerLive s (if s.prk.ackOwed = 0 ∨ s.tick < s.prk.ackTick + 16 then s
    else
      let s1 := ((bitUnits s.prk.ackOwed).filter (fun u => decide (0 < (getPeer s u).rxSeq))).foldl (fun s u => sendTo s u 0x12 (leBytes 8 ((getPeer s u).rxSeq - 1))) s
      { s1 with prk := { s1.prk with ackOwed := 0, ackTick := s.tick } })

/-! Links and HELLO -/

/-- HELLO: the attestation public keys, state, epoch, key-agreement public keys. -/
def helloPayload (s : State) : Bytes :=
  ownKey s ++ mldsaPub 0x0213 (Sys2Proof.Config.attestMlSk s.lcs.deviceId s.lcs.state) ++ leBytes 1 (parkCode s.prk.st) ++ leBytes 4 s.prk.epoch ++ mlkemPub 0x0203 s.prk.kemSk ++ ecPubOf 0x0332 s.prk.xSk

def sendHello (s : State) : State :=
  let s1 := broadcast s 0x01 (helloPayload s)
  { s1 with prk := { s1.prk with helloTick := s.tick } }

def execHelloTimer (s : State) : Host.Outcome State Fault Refusal :=
  answerLive s (if s.prk.st ≠ .alone ∧ s.prk.helloTick + 1024 ≤ s.tick then sendHello s else s)

/-- The head sends WALK out of port A with NEXT = 1; every attempt is counted and repeated a second later (R329). -/
def walkStart (s : State) : State :=
  if s.prk.st = .walking ∧ s.prk.headStrap = true ∧ s.prk.portA.linkUp = true ∧ s.prk.portB.linkUp = true
      ∧ s.prk.walkNext ≤ s.tick then
    let s1 := { s with prk := { s.prk with
      walks := satInc 32 s.prk.walks, walkSince := some s.tick, walkNext := s.tick + 2 ^ 20, address := 0,
      addressed := true } }
    sendOn s1 [false] 0x02 0 0x3F (leBytes 1 1 ++ s.prk.parkId ++ s.prk.rosterDigest)
  else s

def execPeerLinkUp (portB : Bool) (s : State) : Host.Outcome State Fault Refusal :=
  answerLive s (if s.rep.peers.contains (b2n portB) then s
    else walkStart (setPort s portB { port s portB with linkUp := true, fecLock := true }))

def execPeerLinkDown (portB : Bool) (s : State) : Host.Outcome State Fault Refusal :=
  answer s (setPort s portB { port s portB with linkUp := false, fecLock := false, neighbour := none })

/-- The roster position of a digest. -/
def rosterIx (s : State) (digest : Bytes) : Option Nat :=
  (List.range (parkN s)).find? (fun u => s.prk.roster.getD u [] == digest)

/-- HELLO of a unit: its attestation key, park state, and key-agreement keys. A frame that has not been passed on comes
from the neighbour. A joining unit that hears a FORMED member is DETACHED at its roster position (R327). -/
def execHello (f : FrameIn) (key : Bytes) (state : Nat) (kem x : Bytes) (s : State) : Host.Outcome State Fault Refusal :=
  answer s (receive f 0x01 (fun s =>
    match rosterIx s (sha3_256 key) with
    | none => s
    | some u =>
        let s1 := setPeer s u { getPeer s u with kemPk := kem, xPk := x }
        let s2 := if frTtl f.bytes = 63 then setPort s1 f.portB { port s1 f.portB with neighbour := some (sha3_256 key, u) } else s1
        if s.prk.st = .walking ∧ state = 3 then
          let own := (rosterIx s (ownDigest s)).getD 0x3F
          parkGoto { s2 with prk := { s2.prk with address := own, addressed := true } } .detached
        else s2) s)

/-! The walk (R329) -/

def walkFailTo (s : State) (cause : Nat) : State := sendOn s [true] 0x03 0 0x3F (leBytes 1 cause)

def execWalk (f : FrameIn) (next : Nat) (parkId digest : Bytes) (s : State) : Host.Outcome State Fault Refusal :=
  answer s (receive f 0x02 (fun s =>
    if !f.portB then walkFailTo s 4
    else if parkId ≠ s.prk.parkId ∨ digest ≠ s.prk.rosterDigest ∨ s.prk.st = .alone then walkFailTo s 1
    else if s.prk.st ≠ .walking then s
    else if s.prk.headStrap then
      if next = parkN s ∧ s.prk.walkSince.isSome then
        let s1 := parkGoto { s with prk := { s.prk with walkSince := none } } .assembled
        broadcast s1 0x04 []
      else walkFailTo s 3
    else if s.prk.roster.getD next [] ≠ ownDigest s then walkFailTo s 2
    else
      let s1 := { s with prk := { s.prk with address := next, addressed := true } }
      sendOn s1 [false] 0x02 0 0x3F (leBytes 1 (next + 1) ++ parkId ++ digest)) s)

/-- ASSEMBLED: the walk is complete. -/
def execAssembled (f : FrameIn) (s : State) : Host.Outcome State Fault Refusal :=
  answer s (receive f 0x04 (fun s =>
    if s.prk.st = .walking ∧ s.prk.addressed = true then parkGoto s .assembled else s) s)

/-- WALK_TIMEOUT: the next attempt of the head. -/
def execWalkTimeout (s : State) : Host.Outcome State Fault Refusal := answerLive s (walkStart s)

/-- PN_EXHAUST: a port whose packet number has reached 2^63 rotates itself (R332). -/
def execPnExhaust (portB : Bool) (s : State) : Host.Outcome State Fault Refusal :=
  answer s (if s.prk.epoch = 0 ∨ (port s portB).pn < 2 ^ 63 then s
    else
      let p := rotatePort (port s portB)
      parkRecord (setPort s portB p) 4 sevNotice 0 0 (b2n portB) p.rot)

/-! The park key (R331) -/

/-- kek of step 2: HYBRID_KMAC over both secrets, with the transcript. -/
def parkKek (ss1 ss2 c xh xu : Bytes) : Bytes := kmac256 (ss1 ++ ss2) (c ++ xh ++ xu) (ascii "SX256Q HYBRID") 32
def parkAd (s : State) (epoch u : Nat) : Bytes := s.prk.parkId ++ leBytes 4 epoch ++ leBytes 1 u
def parkAckMac (s : State) (key : Bytes) (epoch u : Nat) : Bytes :=
  kmac256 key (parkAd s epoch u) (ascii "SX256Q PARKACK") 32

/-- Deliver a park key to a unit whose key-agreement keys are known: ciphertext, the sender's X448 key, epoch, and the key
under AES-256-GCM (nonce, ciphertext, tag). -/
def deliverKey (s : State) (u epoch : Nat) (key kem x : Bytes) : State :=
  let n := s.freeCtr
  let ct := mlkemEncaps 0x0203 kem (randBytes n 32)
  let xh := randBytes (n + 1) 56
  let xhPub := ecPubOf 0x0332 xh
  let ss2 := xFun 0x0332 xh x
  let kek := parkKek ct.2 ss2 ct.1 xhPub x
  let s1 := { s with freeCtr := n + 2 }
  let d := genDraw s1 12
  let box := gcmCtr (aesEnc kek) d.1 key
  let tag := gcmTag (aesEnc kek) d.1 (parkAd s epoch u) box
  sendTo d.2 u 0x05 (leBytes 4 epoch ++ ct.1 ++ xhPub ++ d.1 ++ box ++ tag)

/-- KEY_DELIVER: decrypt, keep the key for its switch, and acknowledge. A resynchronising unit installs the associations of
the current epoch at once (R343). -/
def execKeyDeliver (f : FrameIn) (epoch : Nat) (c xh nonce box tag : Bytes) (s : State) :
    Host.Outcome State Fault Refusal :=
  answer s (receive f 0x05 (fun s =>
    if s.prk.st ≠ .assembled ∧ s.prk.st ≠ .formed ∧ s.prk.st ≠ .resyncing then s
    else
      let xu := ecPubOf 0x0332 s.prk.xSk
      let ss1 := mlkemDecaps 0x0203 s.prk.kemSk c
      let ss2 := xFun 0x0332 s.prk.xSk xh
      let kek := parkKek ss1 ss2 c xh xu
      if gcmTag (aesEnc kek) nonce (parkAd s epoch s.prk.address) box ≠ tag then s
      else
        let key := gcmCtr (aesEnc kek) nonce box
        let s1 := if s.prk.st = .resyncing then
            let p := { s.prk with epoch := epoch, key := key }
            { s with prk := { p with portA := { p.portA with rot := 0, nextInstalled := true, pn := 1 },
                                     portB := { p.portB with rot := 0, nextInstalled := true, pn := 1 } } }
          else { s with prk := { s.prk with next := some { epoch := epoch, key := key, switch := none } } }
        sendTo s1 (frSrc f.bytes) 0x06 (leBytes 4 epoch ++ parkAckMac s key epoch s.prk.address)) s)

/-- Units the head can reach: their key-agreement keys are known and, once a key exists, a lease to them is held. -/
def reachableUnits (s : State) : List Nat :=
  (parkUnits s).filter (fun u => !isSelf s u && (getPeer s u).kemPk != [] && (s.prk.epoch == 0 || (getPeer s u).lease))

/-- Step 4: the head broadcasts KEY_COMMIT and names those that acknowledged. -/
def sendKeyCommit (s : State) : State :=
  match s.prk.agree with
  | none => s
  | some a =>
      if a.switch.isSome then s
      else
        let t := now s + 1024
        let names := a.acked ||| 2 ^ s.prk.address
        let s1 := { s with prk := { s.prk with
          agree := some { a with switch := some t, acked := names }, named := s.prk.named ||| names,
          next := some { epoch := a.epoch, key := a.key, switch := some t } } }
        broadcast s1 0x07 (leBytes 4 a.epoch ++ leBytes 8 t ++ leBytes 8 names)

/-- KEY_AGREE_TIMEOUT: 65,536 ticks after the first KEY_DELIVER. -/
def execKeyAgreeTimeout (s : State) : Host.Outcome State Fault Refusal :=
  answer s (match s.prk.agree with
    | some a => if a.first + 65536 ≤ now s then sendKeyCommit s else s
    | none => s)

/-- KEY_COMMIT: a named unit that holds the key of the epoch switches at the tick given. -/
def execKeyCommit (f : FrameIn) (epoch switch names : Nat) (s : State) : Host.Outcome State Fault Refusal :=
  answer s (receive f 0x07 (fun s =>
    let s1 := { s with prk := { s.prk with named := s.prk.named ||| names } }
    match s.prk.next with
    | some n =>
        if n.epoch = epoch ∧ names.testBit s.prk.address then
          { s1 with prk := { s1.prk with next := some { n with switch := some switch } } }
        else s1
    | none => s1) s)

/-- What every named unit does at S: both ports move to the new epoch, at r = 0; the unit is FORMED; frames of the epoch
before are accepted for 1,024 ticks more. -/
def switchEpoch (s : State) (n : NewEpoch) (t : Nat) : State :=
  if s.prk.st ≠ .assembled ∧ s.prk.st ≠ .formed then { s with prk := { s.prk with next := none } } else
  let p := { s.prk with
    epoch := n.epoch, key := n.key, prevUntil := t + 1024, next := none, heardTick := s.tick }
  let s1 := { s with prk := { p with
    portA := { p.portA with rot := 0, nextInstalled := true, pn := 1 },
    portB := { p.portB with rot := 0, nextInstalled := true, pn := 1 } } }
  if s.prk.st = .formed then s1 else parkGoto s1 .formed

/-! Losses (R340) -/

/-- A unit is declared lost: by this unit (`own`), or as a member's heartbeat says. -/
def markLost (s : State) (u : Nat) (own : Bool) : State :=
  if isLost s u || isEvicted s u || !inRoster s u || isSelf s u then s
  else
    let p := { s.prk with
      lost := s.prk.lost ||| 2 ^ u, lostDecl := if own then satInc 32 s.prk.lostDecl else s.prk.lostDecl,
      declare := if own then s.prk.declare ||| 2 ^ u else s.prk.declare }
    prkInt (parkRecord { s with prk := p } 2 sevWarning 0 0 u 0) 1

/-- UNREACHABLE_TIMEOUT: unreachable over both arcs for 65,536 ticks. -/
def execUnreachableTimeout (unit : Fin 64) (s : State) : Host.Outcome State Fault Refusal :=
  answer s (match (getPeer s unit.val).silentSince with
    | some t => if t + 65536 ≤ s.tick ∧ s.prk.st = .formed then markLost s unit.val true else s
    | none => s)

/-- LOST_NOTICE: this unit learns that it was declared lost or evicted. -/
def execLostNotice (f : FrameIn) (s : State) : Host.Outcome State Fault Refusal :=
  answer s (receive f 0x13 (fun s => if s.prk.st = .formed then parkGoto s .detached else s) s)

/-! Heartbeats and leases (R333, R334) -/

/-- The status word. -/
def statusWord (s : State) : Bytes :=
  leBytes 1 (parkCode s.prk.st) ++ leBytes 1 s.prk.address ++ leBytes 1 (parkUnits s).length
    ++ leBytes 1 (b2n s.prk.headStrap + 2 * b2n (parkFlag s) + 4 * b2n s.prk.portA.linkUp + 8 * b2n s.prk.portB.linkUp)
    ++ leBytes 4 s.prk.epoch ++ leBytes 1 (pavsInService s).length ++ leBytes 1 (poolSize s) ++ [0, 0]
    ++ leBytes 4 s.prk.beats

def peerState (p : Peer) : Nat := leAt p.status 0 1
def peerDebug (p : Peer) : Bool := (leAt p.status 3 1).testBit 1
def peerPavs (p : Peer) : Nat := leAt p.status 8 1

/-- HEARTBEAT_TIMER: out of both ports every 64 ticks, with the losses declared since the last. -/
def execHeartbeatTimer (s : State) : Host.Outcome State Fault Refusal :=
  answerLive s (if (s.prk.st = .assembled ∨ s.prk.st = .formed) ∧ s.boot.phase ≠ .shut ∧ s.prk.beatTick + 64 ≤ s.tick then
      let s1 := { s with prk := { s.prk with beats := (s.prk.beats + 1) % 2 ^ 32, beatTick := s.tick, declare := 0 } }
      broadcast s1 0x10 (statusWord s1 ++ leBytes 8 s.prk.declare)
    else s)

/-- Move the lease toward a unit to an arc and resend what it had not acknowledged. -/
def moveLease (s : State) (u : Nat) (portB : Bool) : State :=
  let s1 := setPeer s u { getPeer s u with lease := true, arcB := portB, renewed := s.tick, silentSince := none }
  let s2 := { s1 with prk := { s1.prk with switchovers := satInc 32 s1.prk.switchovers } }
  resendAll (prkInt (parkRecord s2 3 sevNotice 0 0 u (b2n portB)) 2) u portB

/-- The same, told to the unit over the arc (R334). -/
def takeLease (s : State) (u : Nat) (portB : Bool) : State := sendTo (moveLease s u portB) u 0x11 []

/-- HEARTBEAT: the sender's status word is kept, and its lease is renewed when it came over the leased arc. A unit that was
unreachable is reached again over the arc that its heartbeat took (DESIGN CHOICE, log 146). -/
def execHeartbeat (f : FrameIn) (status : Bytes) (declared : Nat) (s : State) : Host.Outcome State Fault Refusal :=
  answer s (receive f 0x10 (fun s =>
    let u := frSrc f.bytes
    let beats := leAt status 12 4
    let s0 := if beats < (getPeer s u).beatsSeen then restartSeq s u else s
    let p := getPeer s0 u
    let p1 := { p with
      status := padTo 16 status, beatsSeen := beats, heardA := if f.portB then p.heardA else some s.tick,
      heardB := if f.portB then some s.tick else p.heardB }
    let onArc := f.portB == arcOf s u
    let p2 := if onArc then { p1 with lease := true, arcB := f.portB, renewed := s.tick, silentSince := none } else p1
    let s1 := setPeer { s0 with prk := { s0.prk with heardTick := s.tick } } u p2
    let s2 := if p2.silentSince.isSome then takeLease s1 u f.portB else s1
    (bitUnits declared).foldl (fun s v => markLost s v false) s2) s)

/-- HEARTBEAT_SILENCE: no heartbeat for 65,536 ticks. -/
def execHeartbeatSilence (s : State) : Host.Outcome State Fault Refusal :=
  answer s (if s.prk.st = .formed ∧ s.prk.heardTick + 65536 ≤ s.tick then parkGoto s .detached else s)

/-- LEASE_EXPIRE: a lease not renewed for 256 ticks, since it was or since heartbeats began, moves to the other arc when that
carries the peer's heartbeats; else the peer is unreachable (R334). -/
def execLeaseExpire (unit : Fin 64) (s : State) : Host.Outcome State Fault Refusal :=
  let u := unit.val
  let p := getPeer s u
  let arc := arcOf s u
  let other := if arc then p.heardA else p.heardB
  let due := inRoster s u && !isEvicted s u && !isSelf s u && (s.prk.st == .assembled || s.prk.st == .formed) && p.silentSince.isNone
    && decide ((if p.lease then p.renewed else s.prk.beatsSince) + 256 ≤ s.tick)
  let fresh : Bool := match other with
    | some t => decide (s.tick < t + 256)
    | none => false
  answer s (if !due then s
    else
      let s1 := { s with prk := { s.prk with leaseExpired := satInc 32 s.prk.leaseExpired } }
      if fresh then takeLease s1 u (!arc) else setPeer s1 u { p with lease := false, silentSince := some s.tick })

/-- TAKEOVER: the peer has moved the lease; this unit moves its own for the pair. -/
def execTakeover (f : FrameIn) (s : State) : Host.Outcome State Fault Refusal :=
  answer s (receive { f with bytes := f.bytes } 0x11 (fun s =>
    let u := frSrc f.bytes
    if (getPeer s u).lease && (getPeer s u).arcB == f.portB then s else moveLease s u f.portB) s)

/-- PARK_STATUS: the own status word, then 64 entries in address order (R336). -/
def doParkStatus (c : Cmd) (s : State) : State :=
  completeOut s c (statusWord s ++ (List.range 64).flatMap (fun u =>
    if isSelf s u then statusWord s else padTo 16 (getPeer s u).status))

end Sys2Proof.Machine
end

