-- ==== Sys2Proof/Machine/ParkTxn.lean ====
section
/-! DEFINITION. Park transactions, joining and leaving, the park key's switch, eviction and resynchronisation
(12_park.md R328, R330, R331, R336 to R343, R348). Payload layouts that the spec does not give are the model's own. -/

namespace Sys2Proof.Machine

/-! The layout of transaction messages -/

def txnIdBytes (t : TxnId) : Bytes := leBytes 1 t.unit ++ leBytes 8 t.counter
/-- The mark a RESERVED run carries. -/
def txnNo (t : TxnId) : Nat := 2 ^ 64 * t.unit + t.counter + 1

/-- The key that material is wrapped under in PREPARE and in a snapshot (R338). -/
def replKey (s : State) (t : TxnId) : Bytes :=
  kmac256 s.prk.key (s.prk.parkId ++ txnIdBytes t) (ascii "SX256Q REPL") 32

/-- One object of a creation or a snapshot: base unit, generation, and the TRANSFER layout. -/
def sealObjs (s : State) (t : TxnId) (objs : List ParkObj) : Bytes × State :=
  objs.foldl (fun (acc : Bytes × State) o =>
    let d := genDraw acc.2 12
    (acc.1 ++ leBytes 4 o.base ++ leBytes 1 o.gen ++ blobSeal (replKey s t) d.1 o.attr o.material, d.2)) ([], s)

def changeCode : ParkChange → Nat
  | .create _ => 1 | .delete _ => 2 | .attrSet _ _ => 3 | .meterSet _ _ _ => 4 | .sched _ => 5 | .unsched _ => 6
  | .evict _ _ => 7 | .joins _ => 8

def changeBytes (s : State) (t : TxnId) : ParkChange → Bytes × State
  | .create objs => sealObjs s t objs
  | .delete h => (leBytes 4 h, s)
  | .attrSet h b => (leBytes 4 h ++ b, s)
  | .meterSet h w l => (leBytes 4 h ++ leBytes 8 w ++ leBytes 8 l, s)
  | .sched es => ((es.filter (fun e => e.parkWide)).flatMap entryBytes, s)
  | .unsched seqs => (seqs.flatMap (leBytes 4), s)
  | .evict u r => (leBytes 1 u ++ leBytes 1 (b2n r) ++ [0, 0], s)
  | .joins u => (leBytes 1 u, s)

/-! Reservations (R121, R338, R339) -/

/-- What a unit checks before it holds a run for a creation. -/
def reserveCheck (s : State) (o : ParkObj) : Res Unit := do
  let n := unitsFor o.material.length
  failIf (!runFree s o.base n) stDenied dHandleInUse
  failIf (!tenantKnown s o.attr.tenant) stDenied dTenantUnknown
  failIf (decide ((quotaOf s o.attr.tenant).unitsMax < unitsHeld s o.attr.tenant + n)) stDenied dQuotaUnits
  failIf (attrFlag o.attr flMetered && decide ((quotaOf s o.attr.tenant).metersMax < metersOf s o.attr.tenant + 1))
    stDenied dQuotaMeters
  failIf (attrFlag o.attr flMetered && (freeMeter s).isNone) stDenied dMetersFull

/-- Put an object at its place in a state, with a meter of this unit's own bound with USED 0. -/
def placePark (s : State) (st : ObjState) (txn waiting : Nat) (o : ParkObj) : State :=
  let metered := attrFlag o.attr flMetered
  let m := if metered then (freeMeter s).getD 0 else 0
  let s1 := if metered then metersLow (setMeter s m (2 ^ 63)) else s
  let a := { o.attr with meter := m, handle := handleOf o.base o.gen, root := (rootIx s).getD 0 }
  lowSpace (unitsFree s)
    (putObj { s1 with kst := { s1.kst with gens := kset (fun _ => 1) s1.kst.gens o.base o.gen } } o.base
      { st := st, gen := o.gen, attr := a, material := o.material, tag := objTag s1 a o.material, waiting := waiting, txn := txn })

/-- Hold the runs of a creation RESERVED; each keeps the counter of its base unit until COMMIT. -/
def reserveAll (s : State) (t : TxnId) (objs : List ParkObj) : Res State :=
  objs.foldl (fun (r : Res State) o => do
    let s ← r
    let _ ← reserveCheck s o
    .ok (placePark s .reserved (txnNo t) 0 { o with gen := unitGen s o.base })) (.ok s)

/-- Free the RESERVED runs that satisfy a test: zeroed, the meter unbound. -/
def unreserve (s : State) (p : Nat → Bool) : State :=
  (s.kst.objs.filter (fun e => e.2.st == .reserved && p e.2.txn)).foldl (fun s e =>
    let s1 := if attrFlag e.2.attr flMetered then setMeter s e.2.attr.meter (meterUsed s e.2.attr.meter) else s
    setObjs s1 (kdel s1.kst.objs e.1)) s

/-- Set the generation of the RESERVED runs of a transaction: the counter at the base unit and the handle (R338). -/
def setGens (s : State) (t : TxnId) (objs : List ParkObj) (gens : List Nat) : State :=
  (List.zip objs gens).foldl (fun s e =>
    match kfind s.kst.objs e.1.base with
    | some o =>
        if o.st = .reserved ∧ o.txn = txnNo t then
          let a := { o.attr with handle := handleOf e.1.base e.2 }
          putObj { s with kst := { s.kst with gens := kset (fun _ => 1) s.kst.gens e.1.base e.2 } } e.1.base
            { o with gen := e.2, attr := a, tag := objTag s a o.material }
        else s
    | none => s) s

/-- The highest free run of `n` units that ends at or below `top`. -/
def highestGo (n top : Nat) : KMap Obj → Nat → Option Nat → Option Nat
  | [], lo, best => if lo + n ≤ top then some (top - n) else best
  | (b, o) :: r, lo, best =>
      let hi := min b top
      highestGo n top r (max lo (b + o.attr.units)) (if lo + n ≤ hi then some (hi - n) else best)
def highestRun (s : State) (n top : Nat) : Option Nat := highestGo n top (s.kst.objs.filter (fun p => decide (256 ≤ p.1))) 256 none

/-- Propose base units: each object in the highest run that is free and below the ones proposed before. -/
def propose (s : State) : Nat → List ParkObj → Option (List ParkObj)
  | _, [] => some []
  | top, o :: r => match highestRun s (unitsFor o.material.length) top with
    | none => none
    | some b => (propose s b r).map (fun l => { o with base := b, gen := unitGen s b } :: l)

/-! What a change does on one unit -/

/-- A named entry's TICK is less than the lead of R51 away. -/
def cancelLate (s : State) (seqs : List Nat) : Bool :=
  s.sdl.sched.any (fun e => seqs.contains e.seq && decide (e.tick < now s + leadTicks))

/-- What a transaction holds is given up: runs that are RESERVED, schedule entries that are not ARMED. -/
def giveUp (s : State) (id : TxnId) (ch : ParkChange) : State :=
  let s1 := unreserve s (fun n => n == txnNo id)
  match ch with
  | .sched es => dropEntries s1 es
  | _ => s1

/-- The fields KEY_ATTR_SET may change, taken from a new block (R125). -/
def attrApply (old : Attr) (b : Bytes) : Attr :=
  let a := attrParse b
  { old with notBefore := a.notBefore, notAfter := a.notAfter, floor := storedFloor a, label := a.label, flags := a.flags }

/-- The key a park-wide change names. -/
def parkKeyOf (s : State) (h : Nat) : Option (Nat × Obj) :=
  match findObj s h with
  | some (b, o) => if attrFlag o.attr flParkWide then some (b, o) else none
  | none => none

/-- The unit's own checks of a change (R338): the change has already passed the initiator's. -/
def changeCheck (s : State) (t : TxnId) : ParkChange → Res State
  | .create objs => reserveAll s t objs
  | .delete h => if (parkKeyOf s h).isSome then .ok s else reject stNotFound 0
  | .attrSet h b => match parkKeyOf s h with
    | none => reject stNotFound 0
    | some (_, o) => do
        failIf (decide (topProfile o.attr.alg < storedFloor (attrParse b))) stParam 0
        .ok s
  | .meterSet h w l => match parkKeyOf s h with
    | none => reject stNotFound 0
    | some (_, o) => do
        meterSetCheck s o.attr.meter w l
        .ok s
  | .sched es => do
      failIf (untraceable s) stTime 0
      failIf (es.any (fun e => decide (e.tick ≤ now s))) stParam 0x0010
      failIf (es.any (fun e => schedActKey e.action && (parkKeyOf s e.target).isNone)) stParam 0x0011
      failIf (es.any (fun e => s.sdl.sched.any (fun x => x.seq == e.seq))) stDenied dHandleInUse
      failIf (decide (256 < s.sdl.sched.length + es.length)) stDenied 0x0012
      .ok (reserveEntries s es)
  | .unsched seqs => do
      failIf (cancelLate s seqs) stParam 0x0010
      failIf (seqs.any (fun q => !s.sdl.sched.any (fun e => e.seq == q && e.parkWide))) stParam 0x0013
      .ok s
  | .evict _ _ => .ok s
  | .joins u => do
      failIf (isSelf s u && !(match s.prk.resync with
        | some r => r.loaded
        | none => false)) stDenied 0x0200
      .ok s

/-- Set or clear a unit's standing. -/
def evictUnit (s : State) (u : Nat) (rejoin : Bool) : State :=
  let p := s.prk
  let clear (n : Nat) : Nat := n - (n &&& 2 ^ u)
  let gone := p.parts.filter (fun t => t.id.unit == u && !t.committed)
  let s1 := { s with prk := { p with
    evicted := p.evicted ||| 2 ^ u, lost := clear p.lost,
    rejoin := if rejoin then p.rejoin ||| 2 ^ u else clear p.rejoin,
    parts := p.parts.filter (fun t => t.id.unit != u || t.committed) } }
  gone.foldl (fun s t => giveUp s t.id t.change) s1

/-- A unit's standing is clear again. Its frames are numbered anew, but with the member that served it, which has begun already
(log 101). -/
def admitUnit (s : State) (t : TxnId) (u : Nat) : State :=
  let clear (n : Nat) : Nat := n - (n &&& 2 ^ u)
  let s1 := if isSelf s u || isSelf s t.unit then s else restartSeq s u
  let p := { s1.prk with unanswered := s1.prk.unanswered.filter (fun x => x.1 != u) }
  { s1 with prk := { p with lost := clear p.lost, evicted := clear p.evicted, rejoin := clear p.rejoin, left := clear p.left } }

/-- Apply a committed change at T_A. -/
def applyChange (s : State) (t : TxnId) : ParkChange → State
  | .create objs => objs.foldl (fun s o =>
      match kfind s.kst.objs o.base with
      | some x =>
          if x.st = .reserved ∧ x.txn = txnNo t then createdCounts (putObj s o.base { x with st := .active, txn := 0 }) else s
      | none => s) s
  | .delete h => match parkKeyOf s h with
    | some (b, _) => deleteObj s b
    | none => s
  | .attrSet h b => match parkKeyOf s h with
    | some (x, _) => setAttr s x (fun a => attrApply a b)
    | none => s
  | .meterSet h w l => match parkKeyOf s h with
    | some (_, o) => meterSet s o.attr.meter w l
    | none => s
  | .sched _ => s
  | .unsched seqs => seqs.foldl cancelEntry s
  | .evict u r => evictUnit s u r
  | .joins u => admitUnit s t u

/-! The initiator (R336 to R339) -/

/-- The participants of R337. -/
def participants (s : State) : List Nat :=
  (List.range (parkN s)).filter (fun u => !isSelf s u && !isEvicted s u && !isLost s u && peerState (getPeer s u) == 3
    && !peerDebug (getPeer s u))

def putTxn (s : State) (t : Txn) : State :=
  { s with prk := { s.prk with txns := s.prk.txns.filter (fun x => x.id != t.id) ++ [t] } }
def dropTxn (s : State) (t : Txn) : State :=
  { s with prk := { s.prk with txns := s.prk.txns.filter (fun x => x.id != t.id) } }
def findTxn (s : State) (id : TxnId) : Option Txn := s.prk.txns.find? (fun x => x.id == id)

def sendPrepare (s : State) (t : Txn) : State :=
  let b := changeBytes s t.id t.change
  (bitUnits t.members).foldl (fun s u =>
    sendTo s u 0x20 (txnIdBytes t.id ++ leBytes 8 t.deadline ++ leBytes 1 t.attempt ++ leBytes 1 (changeCode t.change) ++ b.1)) b.2

def changeObjs : ParkChange → List ParkObj
  | .create l => l
  | _ => []

/-- The generations of a creation: the highest counter voted, with 0 read as 1. -/
def txnGens (t : Txn) : List Nat := t.gens.map (fun g => if g = 0 then 1 else g)

/-- The members of a transaction that have neither answered COMMITTED nor been declared lost. -/
def txnSilent (s : State) (t : Txn) : List Nat :=
  (bitUnits t.members).filter (fun u => !t.committed.testBit u && !isLost s u)

def sendComplete (s : State) (t : Txn) : State :=
  let at_ := now s + 1024
  let units := t.committed ||| 2 ^ s.prk.address
  let s1 := (bitUnits t.committed).foldl (fun s u =>
    let seq := (getPeer s u).txSeq
    let s' := sendTo s u 0x24 (txnIdBytes t.id ++ leBytes 8 at_ ++ leBytes 8 units)
    { s' with prk := { s'.prk with unanswered := s'.prk.unanswered ++ [(u, seq, now s)] } }) s
  let s2 := match t.change with
    | .sched es => armAll s1 es
    | _ => s1
  putTxn s2 { t with activate := some at_ }

/-- COMPLETE once every participant has answered or been declared lost. -/
def txnAdvance (s : State) (id : TxnId) : State :=
  match findTxn s id with
  | none => s
  | some t => if t.commitFirst.isSome ∧ t.activate.isNone ∧ txnSilent s t = [] then sendComplete s t else s

def commitPayload (t : Txn) : Bytes := txnIdBytes t.id ++ (txnGens t).flatMap (leBytes 1)

/-- COMMIT to the members that have not answered. -/
def sendCommit (s : State) (t : Txn) : State :=
  (txnSilent s t).foldl (fun s u => sendTo s u 0x22 (commitPayload t)) s

/-- The initiator's transaction counters and interrupt (R350). -/
def txnCount (s : State) (how : Nat) : State :=
  let p := s.prk
  prkInt { s with prk := { p with
    txnOk := if how = 0 then satInc 32 p.txnOk else p.txnOk,
    txnPartial := if how = 1 then satInc 32 p.txnPartial else p.txnPartial,
    txnAbort := if how = 2 then satInc 32 p.txnAbort else p.txnAbort } } 5

/-- The command of a transaction ends: the keeper world is free again. -/
def txnFree (s : State) : State := { s with aut := { s.aut with busy := none, kilnWait := none } }

/-- ABORT: reservations go, and the command fails. `go` lets the keeper world take its next command. -/
def txnAbort (go : State → State) (s : State) (t : Txn) (status detail pair : Nat) : State :=
  let s1 := (bitUnits t.members).foldl (fun s u => sendTo s u 0x25 (txnIdBytes t.id)) s
  let s2 := dropTxn (giveUp s1 t.id t.change) t
  let s3 := parkRecord (txnCount s2 2) 5 sevNotice 0 0 t.id.counter pair
  match t.cmd with
  | some c => go (txnFree (complete s3 c.fn c.queue c.desc.tag status detail 0 pair))
  | none => { s3 with prk := { s3.prk with serving := none } }

/-- The cancellation of a transaction commits too late (R51). -/
def cancelsLate (s : State) : ParkChange → Bool
  | .unsched seqs => cancelLate s seqs
  | _ => false

/-- The decision once every vote is YES: COMMIT, but for a cancellation whose lead has run out meanwhile (R51). -/
def txnDecide (go : State → State) (s : State) (id : TxnId) : State :=
  match findTxn s id with
  | none => s
  | some t =>
      if t.commitFirst.isSome ∨ (bitUnits t.members).any (fun u => !t.yes.testBit u) then s
      else if cancelsLate s t.change then txnAbort go s t stParam 0x0010 0
      else
        let t' := { t with commitFirst := some (now s), commitLast := now s }
        let s1 := putTxn (setGens s t.id (changeObjs t.change) (txnGens t)) t'
        txnAdvance (sendCommit s1 t') id

/-- Start an attempt: objects are placed and held, and the places of schedule entries, then PREPARE. -/
def txnTry (go : State → State) (s : State) (t : Txn) (objs : List ParkObj) : Res State := do
  let s0 ← reserveAll (unreserve s (fun n => n == txnNo t.id)) t.id objs
  let s1 := match t.change with
    | .sched es => reserveEntries s0 es
    | _ => s0
  let change := match t.change with
    | .create _ => ParkChange.create objs
    | x => x
  let t' := { t with
    change := change, gens := objs.map (fun o => unitGen s o.base), yes := 0, deadline := now s + 4096 }
  .ok (txnDecide go (sendPrepare (putTxn s1 t') t') t.id)

/-- The handle a change names. -/
def changeHandle : ParkChange → Option Nat
  | .delete h => some h
  | .attrSet h _ => some h
  | .meterSet h _ _ => some h
  | _ => none

/-- Another open transaction on this unit names the same handle. -/
def handleBusy (s : State) (id : TxnId) (ch : ParkChange) : Bool :=
  let same (x : ParkChange) : Bool := (changeHandle x).isSome && changeHandle x == changeHandle ch
  s.prk.txns.any (fun t => t.id != id && same t.change) || s.prk.parts.any (fun t => t.id != id && same t.change)

/-- A snapshot is out and its ADMIT has not ended (R343 step 3). -/
def snapshotOut (s : State) : Bool := s.prk.txns.any (fun t => match t.change with
  | .joins _ => true
  | _ => false)

/-- Begin the transaction of a critical command at its commit. -/
def parkBegin (c : Cmd) (change : ParkChange) (output : Bytes) (s : State) : State :=
  let id : TxnId := { unit := s.prk.address, counter := (authParse c.auth).counter }
  if s.prk.st = .detached ∨ s.prk.st = .resyncing then completeCmd s c stDenied 0x0203
  else if s.prk.st ≠ .formed then completeCmd s c stDenied 0x0200
  else if parkFlag s then completeCmd s c stDenied 0x0208
  else if snapshotOut s then completeCmd s c stDenied 0x0200
  else if handleBusy s id change then completeCmd s c stDenied dHandleInUse
  else if changeObjs change ≠ [] ∧ genReady s = false then kilnHold s c
  else
    let t : Txn :=
      { id := id, cmd := some c, change := change, members := unitBits (participants s), attempt := 0, yes := 0, no := none,
        gens := [], deadline := 0, commitFirst := none, commitLast := 0, committed := 0, lost := 0, activate := none,
        output := output }
    let objs := changeObjs change
    match (do
      failIf (quotaBroken s (objs.map (fun (o : ParkObj) => (o.attr.tenant, unitsFor o.material.length)))) stDenied dQuotaUnits
      let l ← match propose s 196608 objs with
        | none => reject stDenied dStoreFull
        | some l => .ok l
      txnTry (fun s => s) { s with aut := { s.aut with busy := some c } } t l) with
    | .error e => completeCmd s c e.1 e.2
    | .ok s1 => s1

/-- The highest a retry may reach: the lowest base of the last proposal. -/
def retryTop (objs : List ParkObj) : Nat := objs.foldl (fun n o => min n o.base) 196608

/-- VOTE: a participant's answer, with the counters of the base units for a creation. -/
def execVoteWith (go : State → State) (f : FrameIn) (unit counter attempt : Nat) (yes : Bool) (status detail : Nat)
    (gens : List Nat) (s : State) : State :=
  receive f 0x21 (fun s =>
    match findTxn s { unit := unit, counter := counter } with
    | none => s
    | some t =>
        if t.commitFirst.isSome ∨ t.attempt ≠ attempt ∨ !t.members.testBit (frSrc f.bytes) then s
        else if yes then
          let t' := { t with
            yes := t.yes ||| 2 ^ frSrc f.bytes,
            gens := (List.range t.gens.length).map (fun i => max (t.gens.getD i 0) (gens.getD i 0)) }
          txnDecide go (putTxn s t') t.id
        else
          let no := t.no.getD (status, detail)
          let t' := { t with no := some no, attempt := t.attempt + 1 }
          let objs := changeObjs t.change
          let next : Option (List ParkObj) := if objs ≠ [] ∧ detail = dHandleInUse ∧ t.attempt < 3
            then propose s (retryTop objs) objs else none
          match next with
          | none => txnAbort go s t no.1 no.2 0
          | some l => match txnTry go s t' l with
            | .ok s1 => s1
            | .error _ => txnAbort go s t no.1 no.2 0) s

/-- PREPARE_DEADLINE: votes are missing at D. -/
def prepareDeadline (go : State → State) (s : State) : State :=
  (s.prk.txns.filter (fun t => t.commitFirst.isNone && decide (t.deadline ≤ now s))).foldl (fun s t =>
    txnAbort go s t stUnitLost 0x0205 (t.members - (t.members &&& t.yes))) s

/-- COMMIT_RESEND: every 4,096 ticks. -/
def execCommitResend (s : State) : Host.Outcome State Fault Refusal :=
  answerLive s ((s.prk.txns.filter (fun t => t.commitFirst.isSome && t.activate.isNone && decide (t.commitLast + 4096 ≤ now s))).foldl
    (fun s t => sendCommit (putTxn s { t with commitLast := now s }) { t with commitLast := now s }) s)

/-- COMMIT_LOST_TIMEOUT: members that leave COMMIT or COMPLETE unanswered for 65,536 ticks are declared lost. -/
def execCommitLostTimeout (s : State) : Host.Outcome State Fault Refusal :=
  let due := s.prk.unanswered.filter (fun x => decide (x.2.2 + 65536 ≤ now s))
  let s1 := due.foldl (fun s x => markLost s x.1 true)
    { s with prk := { s.prk with unanswered := s.prk.unanswered.filter (fun x => !decide (x.2.2 + 65536 ≤ now s)) } }
  answer s (s1.prk.txns.foldl (fun s t =>
    let late := match t.commitFirst with
      | some x => decide (x + 65536 ≤ now s) && t.activate.isNone
      | none => false
    if late then txnAdvance ((txnSilent s t).foldl (fun s u => markLost s u true) s) t.id else s) s1)

/-- COMMITTED: a member's answer to COMMIT. -/
def execCommitted (f : FrameIn) (unit counter : Nat) (s : State) : Host.Outcome State Fault Refusal :=
  answer s (receive f 0x23 (fun s =>
    match findTxn s { unit := unit, counter := counter } with
    | none => s
    | some t =>
        if t.commitFirst.isSome ∧ t.members.testBit (frSrc f.bytes) then
          txnAdvance (putTxn s { t with committed := t.committed ||| 2 ^ frSrc f.bytes }) t.id
        else s) s)

/-! The participant -/

def findPart (s : State) (id : TxnId) : Option PartTxn := s.prk.parts.find? (fun x => x.id == id)
def dropPart (s : State) (id : TxnId) : State :=
  { s with prk := { s.prk with parts := s.prk.parts.filter (fun x => x.id != id) } }
def putPart (s : State) (t : PartTxn) : State :=
  let s1 := dropPart s t.id
  { s1 with prk := { s1.prk with parts := s1.prk.parts ++ [t] } }

def sendVote (s : State) (id : TxnId) (attempt : Nat) (yes : Bool) (status detail : Nat) (gens : List Nat) : State :=
  sendTo s id.unit 0x21 (txnIdBytes id ++ leBytes 1 attempt ++ leBytes 1 (b2n yes) ++ leBytes 2 status ++ leBytes 2 detail
    ++ gens.flatMap (leBytes 1))

/-- What a participant answers to PREPARE: the state with the run held, or the NO. A resynchronising unit takes part only in
its own readmission. -/
def prepareCheck (s : State) (id : TxnId) (ch : ParkChange) : Res State :=
  let own := match ch with
    | .joins u => isSelf s u
    | _ => false
  if !(s.prk.st == .formed || (s.prk.st == .resyncing && own)) then reject stDenied 0x0200
  else if parkFlag s || peerDebug (getPeer s id.unit) then reject stDenied 0x0208
  else if snapshotOut s then reject stDenied 0x0200
  else if handleBusy s id ch then reject stDenied dHandleInUse
  else match suspendDetail s with
    | some d => reject stSuspended d
    | none => changeCheck s id ch

def execPrepare (f : FrameIn) (unit counter deadline attempt : Nat) (change : ParkChange) (s : State) :
    Host.Outcome State Fault Refusal :=
  answer s (receive f 0x20 (fun s =>
    let id : TxnId := { unit := unit, counter := counter }
    let s0 := match findPart s id with
      | some t => if t.committed then s else dropPart (giveUp s id t.change) id
      | none => s
    match prepareCheck s0 id change with
    | .error e => sendVote s0 id attempt false e.1 e.2 []
    | .ok s1 =>
        let s2 := putPart s1 { id := id, change := change, deadline := deadline, committed := false, activate := none, units := 0 }
        sendVote s2 id attempt true 0 0 ((changeObjs change).map (fun o => unitGen s0 o.base))) s)

/-- COMMIT: the counter at each base unit becomes g. One that comes after the run was freed is refused. -/
def execCommit (f : FrameIn) (unit counter : Nat) (gens : List Nat) (s : State) : Host.Outcome State Fault Refusal :=
  answer s (receive f 0x22 (fun s =>
    let id : TxnId := { unit := unit, counter := counter }
    match findPart s id with
    | none => sendVote s id 255 false stDenied 0x0200 []
    | some t =>
        let s1 := putPart (setGens s id (changeObjs t.change) gens) { t with committed := true }
        sendTo s1 unit 0x23 (txnIdBytes id)) s)

/-- RESYNCING ends: the command completes and the keeper world goes on. -/
def resyncEnd (go : State → State) (s : State) (st : ParkState) (status detail pair : Nat) : State :=
  match s.prk.resync with
  | none => s
  | some r =>
      let s1 := parkGoto { s with prk := { s.prk with resync := none } } st
      let s2 := if status ≤ 1 then critCommitted s1 r.cmd else s1
      go (txnFree (complete s2 r.cmd.fn r.cmd.queue r.cmd.desc.tag status detail 0 pair))

/-- Do the units of a bitmap cover every roster unit not evicted? -/
def coversAll (s : State) (units : Nat) : Bool := (parkUnits s).all (fun u => units.testBit u)

/-- Apply a participant's committed change. -/
def partApply (go : State → State) (s : State) (t : PartTxn) : State :=
  let s1 := dropPart (applyChange s t.id t.change) t.id
  match t.change with
  | .joins u =>
      if isSelf s u then resyncEnd go s1 .formed (if coversAll s1 t.units then stOk else stPartial) 0 t.units else s1
  | _ => s1

/-- COMPLETE: entries are ARMED on receipt; every other change waits for its activation tick, if that is still to come. -/
def completeWith (go : State → State) (f : FrameIn) (unit counter activate units : Nat) (s : State) : State :=
  receive f 0x24 (fun s =>
    let id : TxnId := { unit := unit, counter := counter }
    match findPart s id with
    | none => sendVote s id 255 false stDenied 0x0200 []
    | some t =>
        if !t.committed ∨ t.activate.isSome then s
        else match t.change with
          | .sched es => dropPart (armAll s es) id
          | _ =>
              let t' := { t with activate := some activate, units := units }
              if activate ≤ now s then partApply go (putPart s t') t' else putPart s t') s

/-- The initiator at T_A: its own change, then its completion. -/
def txnFinish (go : State → State) (s : State) (t : Txn) : State :=
  let s1 := dropTxn (applyChange s t.id t.change) t
  let units := t.committed ||| 2 ^ s.prk.address
  let ok := coversAll s1 units
  let s2 := txnCount s1 (if ok then 0 else 1)
  match t.cmd with
  | none => { s2 with prk := { s2.prk with serving := none } }
  | some c =>
      let handles := (List.zip (changeObjs t.change) (txnGens t)).flatMap (fun e => leBytes 4 (handleOf e.1.base e.2))
      let out := handles ++ t.output
      let s3 := critCommitted s2 c
      let s4 := if outRoom c < out.length then complete s3 c.fn c.queue c.desc.tag stOutSmall 0 out.length units
        else completeOutAs s3 c (if ok then stOk else stPartial) units out
      go (txnFree s4)

/-- ACTIVATION_TICK: what is due at T_A, as participant and as initiator. -/
def activationTick (go : State → State) (s : State) : State :=
  let due (a : Option Nat) : Bool := match a with
    | some t => decide (t ≤ now s)
    | none => false
  let s1 := (s.prk.parts.filter (fun t => due t.activate)).foldl (partApply go) s
  (s1.prk.txns.filter (fun t => due t.activate)).foldl (txnFinish go) s1

/-- ABORT: the reservation goes. -/
def execAbort (f : FrameIn) (unit counter : Nat) (s : State) : Host.Outcome State Fault Refusal :=
  answer s (receive f 0x25 (fun s =>
    let id : TxnId := { unit := unit, counter := counter }
    match findPart s id with
    | none => s
    | some t => dropPart (giveUp s id t.change) id) s)

/-- RESERVATION_EXPIRE: no COMMIT, ABORT or eviction by D + 65,536 ticks. -/
def execReservationExpire (s : State) : Host.Outcome State Fault Refusal :=
  answer s ((s.prk.parts.filter (fun t => !t.committed && decide (t.deadline + 65536 ≤ now s))).foldl (fun s t =>
    let s1 := dropPart (giveUp s t.id t.change) t.id
    if s.prk.st = .formed then parkGoto s1 .detached else s1) s)

/-! Joining, leaving, evicting (R328, R330, R342) -/

/-- Fresh key-agreement keys. -/
def freshParkKeys (s : State) : State :=
  let n := s.freeCtr
  { s with freeCtr := n + 2, prk := { s.prk with
      kemSk := mlkemGen 0x0203 (randBytes n 32) ((randBytes n 64).drop 32), xSk := randBytes (n + 1) 56 } }

def joinCheck (s : State) (b : Bytes) : Res Unit := do
  let n := leAt b 16 1
  let roster := (List.range n).map (fun i => (b.drop (32 + 32 * i)).take 32)
  failIf (b.length != 32 + 32 * n || decide (n < 2) || decide (64 < n)) stLength 0
  failIf (s.prk.st != .alone) stDenied 0x0200
  failIf ((b.drop 18).take 14 != List.replicate 14 0) stParam dReserved
  failIf (leAt b 17 1 != b2n s.prk.headStrap || (leAt b 17 1 == 1 && roster.getD 0 [] != ownDigest s)) stDenied 0x0201
  failIf ((roster.filter (fun d => d == ownDigest s)).length != 1) stDenied 0x0202

def performParkJoin (c : Cmd) (s : State) : State :=
  match joinCheck s c.input with
  | .error e => completeCmd s c e.1 e.2
  | .ok _ =>
      if !genReady s then kilnHold s c
      else
        let n := leAt c.input 16 1
        let s1 := freshParkKeys { s with prk := { s.prk with
          parkId := c.input.take 16, roster := (List.range n).map (fun i => (c.input.drop (32 + 32 * i)).take 32),
          rosterDigest := sha3_256 c.input, walkNext := s.tick } }
        completeCmd (critCommitted (walkStart (sendHello (parkGoto s1 .walking))) c) c 0 0

/-- The park state of a unit that has left: the strap, the ports' links and the counters stay, and the shares of batches, which
are lost (R346). -/
def prkLeft (p : Prk) : Prk :=
  { prkReset with
    headStrap := p.headStrap, address := p.address,
    portA := { portReset with linkUp := p.portA.linkUp, fecLock := p.portA.fecLock, fecCorr := p.portA.fecCorr },
    portB := { portReset with linkUp := p.portB.linkUp, fecLock := p.portB.fecLock, fecCorr := p.portB.fecCorr },
    intStatus := p.intStatus, intEnable := p.intEnable, switchovers := p.switchovers, resent := p.resent,
    discard := p.discard, txnOk := p.txnOk, txnPartial := p.txnPartial, txnAbort := p.txnAbort, spreadOut := p.spreadOut,
    spreadIn := p.spreadIn, spreadRetried := p.spreadRetried, lostDecl := p.lostDecl, macsecDrop := p.macsecDrop,
    walks := p.walks, leaseExpired := p.leaseExpired, shares := p.shares, beats := p.beats, bcastSeq := p.bcastSeq, msgId := p.msgId }

/-- Free every park-wide object. -/
def freeParkWide (s : State) : State :=
  let s1 := unreserve s (fun _ => true)
  (s1.kst.objs.filter (fun e => attrFlag e.2.attr flParkWide && decide (256 ≤ e.1))).foldl (fun s e => deleteObj s e.1) s1

def performParkLeave (c : Cmd) (s : State) : State :=
  if s.prk.st = .alone then completeCmd s c stDenied 0x0200
  else if s.prk.headStrap ∧ (parkUnits s).any (fun u => !isSelf s u) then completeCmd s c stDenied 0x0201
  else
    let s0 := broadcast s 0x42 []
    let s1 := freeParkWide ((s0.prk.parts.filter (fun t => !t.committed)).foldl (fun s t => giveUp s t.id t.change) s0)
    let s2 := parkGoto s1 .alone
    completeCmd (critCommitted { s2 with prk := prkLeft s2.prk } c) c 0 0

/-- LEAVE: recorded as an eviction without rejoin. -/
def execLeave (f : FrameIn) (s : State) : Host.Outcome State Fault Refusal :=
  answer s (receive f 0x42 (fun s =>
    let u := frSrc f.bytes
    let s1 := evictUnit s u false
    { s1 with prk := { s1.prk with left := s1.prk.left ||| 2 ^ u } }) s)

def performParkEvict (c : Cmd) (s : State) : State :=
  let u := leAt c.input 0 1
  if leAt c.input 1 1 ≥ 2 ∨ leAt c.input 2 2 ≠ 0 then completeCmd s c stParam dReserved
  else if s.prk.st ≠ .formed then
    completeCmd s c stDenied (if s.prk.st = .detached ∨ s.prk.st = .resyncing then 0x0203 else 0x0200)
  else if isSelf s u ∨ !inRoster s u then completeCmd s c stDenied 0x0206
  else parkBegin c (.evict u ((leAt c.input 1 1).testBit 0)) [] s

/-! The park key (R331) -/

def performParkKeyAgree (c : Cmd) (s : State) : State :=
  if !s.prk.headStrap then completeCmd s c stDenied 0x0201
  else if s.prk.st ≠ .assembled ∧ s.prk.st ≠ .formed then completeCmd s c stDenied 0x0200
  else if !genReady s then kilnHold s c
  else
    let d := genDraw s 32
    let epoch := s.prk.epoch + 1
    let units := reachableUnits s
    let a : KeyAgree := { cmd := c, epoch := epoch, key := d.1, sent := unitBits units, acked := 0, first := now s, switch := none }
    let s1 := { d.2 with aut := { d.2.aut with busy := some c }, prk := { d.2.prk with agree := some a } }
    let s2 := units.foldl (fun s u => deliverKey s u epoch d.1 (getPeer s u).kemPk (getPeer s u).xPk) s1
    if units = [] then sendKeyCommit s2 else s2

/-- EPOCH_SWITCH: at the switch tick. -/
def epochSwitch (go : State → State) (s : State) : State :=
  match s.prk.next with
  | none => s
  | some n => match n.switch with
    | none => s
    | some t =>
        if now s < t then s
        else
          let s1 := switchEpoch s n t
          match s.prk.agree with
          | none => s1
          | some a =>
              let s2 := { s1 with prk := { s1.prk with agree := none } }
              go (txnFree (completeOutAs (critCommitted s2 a.cmd) a.cmd (if coversAll s2 a.acked then stOk else stPartial) a.acked []))

/-! Resynchronisation (R343) -/

/-- PARK_RESYNC: the request goes to the nearest FORMED member known, port A's arc first. -/
def performParkResync (c : Cmd) (s : State) : State :=
  if s.prk.st ≠ .detached then completeCmd s c stDenied 0x0200
  else if !genReady s then kilnHold s c
  else
    let s1 := (List.range (parkN s)).foldl restartSeq (freshParkKeys s)
    let s2 := parkGoto { s1 with
      aut := { s1.aut with busy := some c },
      prk := { s1.prk with resync := some { cmd := c, since := s.tick, server := none, loaded := false } } } .resyncing
    let n := parkN s
    let order := ((List.range n).drop 1).map (fun i => if s.prk.portA.linkUp then (s.prk.address + i) % n else (s.prk.address + n - i) % n)
    let dst := (order.find? (fun u => peerState (getPeer s u) == 3)).getD (order.headD 0)
    sendVia s2 (!s.prk.portA.linkUp) dst 0x40
      (s2.prk.rosterDigest ++ mlkemPub 0x0203 s2.prk.kemSk ++ ecPubOf 0x0332 s2.prk.xSk
        ++ leBytes 4 s2.prk.epoch)

/-- The park-wide objects of a unit. -/
def parkObjs (s : State) : List ParkObj :=
  (s.kst.objs.filter (fun e => attrFlag e.2.attr flParkWide && e.2.st == .active)).map (fun e =>
    { attr := e.2.attr, material := e.2.material, base := e.1, gen := e.2.gen })

/-- RESYNC_DATA and, after it, the ADMIT transaction (steps 3 and 5). -/
def serveSnapshot (s : State) (u : Nat) : State :=
  let id : TxnId := { unit := s.prk.address, counter := 2 ^ 63 + s.prk.msgId }
  let b := sealObjs s id (parkObjs s)
  let s1 := sendTo b.2 u 0x41 (txnIdBytes id ++ b.1 ++ (s.sdl.sched.filter (fun e => e.parkWide && e.armed)).flatMap entryBytes)
  let t : Txn :=
    { id := id, cmd := none, change := .joins u, members := unitBits (participants s) ||| 2 ^ u, attempt := 0, yes := 0,
      no := none, gens := [], deadline := 0, commitFirst := none, commitLast := 0, committed := 0, lost := 0,
      activate := none, output := [] }
  match txnTry (fun s => s) s1 t [] with
  | .ok s2 => s2
  | .error _ => s1

/-- RESYNC_REQ: the member serves a unit that is lost, evicted with REJOIN_ALLOWED, or was never named in a KEY_COMMIT. -/
def execResyncReq (f : FrameIn) (digest kem x : Bytes) (epoch : Nat) (s : State) : Host.Outcome State Fault Refusal :=
  answer s (receive f 0x40 (fun s =>
    let u := frSrc f.bytes
    if s.prk.st ≠ .formed ∨ s.prk.serving.isSome ∨ !inRoster s u then s
    else if digest ≠ s.prk.rosterDigest
        ∨ !(isLost s u || (isEvicted s u && s.prk.rejoin.testBit u) || !s.prk.named.testBit u) then sendTo s u 0x03 (leBytes 1 1)
    else
      let s0 := restartSeq s u
      let s1 := setPeer { s0 with prk := { s0.prk with serving := some u, servingSince := s.tick } } u
        { getPeer s0 u with kemPk := kem, xPk := x }
      if epoch ≠ s.prk.epoch then deliverKey s1 u s.prk.epoch s.prk.key kem x else serveSnapshot s1 u) s)

/-- KEY_ACK: of a new epoch at the head, or of the current key at a member that serves. -/
def execKeyAck (f : FrameIn) (epoch : Nat) (mac : Bytes) (s : State) : Host.Outcome State Fault Refusal :=
  answer s (receive f 0x06 (fun s =>
    let u := frSrc f.bytes
    match s.prk.agree with
    | some a =>
        if a.epoch = epoch ∧ a.switch.isNone ∧ a.sent.testBit u ∧ mac = parkAckMac s a.key epoch u then
          let a' := { a with acked := a.acked ||| 2 ^ u }
          let s1 := { s with prk := { s.prk with agree := some a' } }
          if a'.acked = a'.sent then sendKeyCommit s1 else s1
        else s
    | none =>
        if s.prk.serving = some u ∧ epoch = s.prk.epoch ∧ mac = parkAckMac s s.prk.key epoch u
            ∧ !s.prk.txns.any (fun t => t.change == .joins u) then
          serveSnapshot s u
        else s) s)

/-- Load a snapshot: objects it lacks are freed, each of its objects takes its recorded handle; none when a run is occupied. -/
def loadSnapshot (s : State) (objs : List ParkObj) (entries : List SchedEntry) : Res State :=
  let held := s.kst.objs.filter (fun e => attrFlag e.2.attr flParkWide && decide (256 ≤ e.1))
  let kept (e : Nat × Obj) : Bool := objs.any (fun o => o.base == e.1 && o.gen == e.2.gen)
  let s1 := held.foldl (fun s e => if kept e then freeObj s e.1 else deleteObj s e.1) (unreserve s (fun _ => true))
  let waitOf (o : ParkObj) : Nat := match held.find? (fun e => e.1 == o.base && e.2.gen == o.gen) with
    | some e => e.2.waiting
    | none => 0
  let r := objs.foldl (fun (r : Res State) o => do
    let s ← r
    failIf (!runFree s o.base (unitsFor o.material.length)) stDenied dHandleInUse
    failIf (attrFlag o.attr flMetered && (freeMeter s).isNone) stDenied dMetersFull
    let s' := placePark s .active 0 (waitOf o) o
    .ok (createdCounts { s' with kst := { s'.kst with loaded := satInc 32 s'.kst.loaded } })) (.ok s1)
  match r with
  | .error e => .error e
  | .ok s2 =>
      let d := s2.sdl
      .ok { s2 with sdl := { d with
        sched := entries.foldl putEntry (d.sched.filter (fun e => !e.parkWide)),
        nextSeq := entries.foldl (fun n e =>
          if e.seq / 2 ^ 24 = 128 + s2.prk.address then max n (e.seq % 2 ^ 24 + 1) else n) d.nextSeq } }

/-- RESYNC_DATA (step 4). -/
def resyncDataWith (go : State → State) (f : FrameIn) (objs : List ParkObj) (entries : List SchedEntry) (s : State) : State :=
  receive f 0x41 (fun s =>
    match s.prk.resync with
    | none => s
    | some r =>
        if r.loaded then s
        else match loadSnapshot s objs entries with
          | .error e => resyncEnd go s .detached e.1 e.2 0
          | .ok s1 => { s1 with prk := { s1.prk with resync := some { r with server := some (frSrc f.bytes), loaded := true } } }) s

/-- RESYNC_TIMEOUT: 1 s has passed, or the serving member has been lost. A member stops serving a unit that has not come to its
snapshot within the same time (DESIGN CHOICE, log 101). -/
def resyncTimeout (go : State → State) (s : State) : State :=
  match s.prk.resync with
  | none => if s.prk.serving.isSome ∧ snapshotOut s = false ∧ s.prk.servingSince + 2 ^ 20 ≤ s.tick then
      { s with prk := { s.prk with serving := none } } else s
  | some r =>
      let lost : Bool := match r.server with
        | some u => isLost s u
        | none => false
      if lost || decide (r.since + 2 ^ 20 ≤ s.tick) then resyncEnd go s .detached stUnitLost 0x0205 0 else s

/-- WALK_FAIL: the head's walk has failed and is repeated; a refused resynchronisation fails its command. -/
def walkFailWith (go : State → State) (f : FrameIn) (cause : Nat) (s : State) : State :=
  receive f 0x03 (fun s =>
    if s.prk.st = .walking then
      if s.prk.headStrap then { s with prk := { s.prk with walkSince := none } } else walkFailTo s cause
    else if s.prk.resync.isSome ∧ cause = 1 then resyncEnd go s .detached stDenied 0x0207 0
    else s) s

end Sys2Proof.Machine
end

