-- ==== Sys2Proof/Machine/KeyOps.lean ====
section
/-! DEFINITION. The KEY opcodes that the key store and the keeper world serve (05_key_store.md R121 to R144; 04 R114;
08_pq_library.md R235, R241, R245; 10 R294 to R296; 17 R449). -/

namespace Sys2Proof.Machine

/-! Creating objects -/

/-- Create objects one after another. -/
def createEach (s : State) : List (Attr × Bytes) → Res (State × List Nat)
  | [] => .ok (s, [])
  | (a, m) :: r => do
      let x ← createObj s a m
      let y ← createEach x.1 r
      .ok (y.1, x.2 :: y.2)

/-- Create objects on this unit, all or none: the lengths, then the quota of all of them, then space for each (R117, R120). -/
def createAll (s : State) (objs : List (Attr × Bytes)) : Res (State × List Nat) := do
  failIf (objs.any (fun o => !materialLenOk o.2.length)) stParam dMaterialLen
  failIf (quotaBroken s (objs.map (fun o => (o.1.tenant, unitsFor o.2.length)))) stDenied dQuotaUnits
  createEach s objs

/-- The commit of a creation: a park transaction for a PARK_WIDE key, else the objects, their handles and what follows. -/
def commitCreate (s : State) (c : Cmd) (objs : List (Attr × Bytes)) (tail : Bytes) : State :=
  if objs.any (fun o => attrFlag o.1 flParkWide) then
    if objs.any (fun o => !materialLenOk o.2.length) then completeCmd s c stParam dMaterialLen
    else
      let at_ := createdTime s
      let po := objs.map (fun o =>
        ({ attr := { o.1 with len := o.2.length, units := unitsFor o.2.length, created := at_,
                              kcv := if o.1.cls = clsSecret then kcvOf o.1.alg o.2 else 0 },
           material := o.2, base := 0, gen := 0 } : ParkObj))
      parkBegin c (.create po) tail s
  else match createAll s objs with
    | .error e => completeCmd s c e.1 e.2
    | .ok (s1, hs) => completeOut (critCommitted s1 c) c (hs.flatMap (leBytes 4) ++ tail)

/-- A command that changes a park-wide object runs as a park transaction once the unit has joined (R336). -/
def parkOr (s : State) (c : Cmd) (a : Attr) (change : ParkChange) (here : State) : State :=
  if attrFlag a flParkWide ∧ s.prk.st ≠ .alone then parkBegin c change [] s
  else completeCmd (critCommitted here c) c 0 0

/-! KEY_GENERATE (R129, R241, R245, R294) -/

/-- Length of a generated secret key: SELECT names it for HMAC and KMAC secrets, 32 by default. -/
def secretLen (alg sel : Nat) : Option Nat :=
  if alg = 0x0101 ∨ alg = 0x0111 then (if sel = 0 then some 16 else none)
  else if alg = 0x0102 ∨ alg = 0x0112 then (if sel = 0 then some 24 else none)
  else if alg = 0x0103 then (if sel = 0 then some 32 else none)
  else if isMacAlg alg then (if sel = 0 then some 32 else if 16 ≤ sel ∧ sel ≤ 64 then some sel else none)
  else none

/-- SELECT of an asymmetric generation: k / 64 for RSA, else zero. -/
def genSelectOk (alg sel : Nat) : Bool :=
  if isRsa alg then sel == 32 || sel == 48 || sel == 64 || sel == 128 else sel == 0

/-- Length of secret material. -/
def privLen (alg sel : Nat) : Nat := if isRsa alg then 36 * sel + 4 else if isClassical alg then ecScalar alg else pqPriv alg
def pubLen (alg sel : Nat) : Nat := if isRsa alg then 8 * sel + 4 else if isClassical alg then ecPub alg else pqPub alg

/-- The block of the PUBLIC object of a pair: the paired usage, no meter. -/
def publicAttr (a : Attr) : Attr :=
  { a with usage := pairedUsage a.usage, cls := clsPublic, flags := a.flags - (a.flags &&& 2 ^ flMetered), meterKind := 0,
           limit := 0 }

/-- The checks of KEY_GENERATE before it draws: the block, and whether a PUBLIC object is asked for. -/
def generateCheck (s : State) (c : Cmd) : Res (Attr × Bool) := do
  let sel := c.desc.select % 65536
  let wantPub := c.desc.select.testBit 16
  let raw := attrParse c.input
  failIf (isStateful raw.alg && attrFlag raw flExportable && leAt c.input 0 1 == 1) stParam 0x018A
  let a ← hostAttr c.input (tenantOf s c.fn) (otsCount raw.alg)
  failIf (a.cls == clsPublic) stUsage 0
  failIf (a.cls == clsSecret && ((secretLen a.alg sel).isNone || wantPub)) stParam dParamSet
  failIf (a.cls == clsPrivate && !genSelectOk a.alg sel) stParam dParamSet
  failIf (wantPub && (isMceliece a.alg || classOf a.alg (pairedUsage a.usage) != some clsPublic)) stParam dParamSet
  .ok ({ a with origin := 1 }, wantPub)

/-- Draw `n` bytes of the generation feed and make a key of them, again while they give none or the key is zero, each zero
counted. A zero key is never answered: none when no draw of the allowance gave a key. -/
def drawKey (make : Bytes → Option Bytes) (n : Nat) : Nat → State → Option Bytes × State
  | 0, s => (none, s)
  | f + 1, s =>
      let d := genDraw s n
      match make d.1 with
      | none => drawKey make n f d.2
      | some k =>
          if k.all (fun x => x == 0) then
            drawKey make n f { d.2 with kst := { d.2.kst with zeroRedraw := satInc 32 d.2.kst.zeroRedraw } }
          else (some k, d.2)

/-- Draws that one command makes before the model gives it up as still drawing. -/
def drawLimit : Nat := 65536

/-- A secret key of `n` bytes. -/
def drawSecret (s : State) (n : Nat) : Option Bytes × State := drawKey some n drawLimit s

/-- A private key made of the random material of its generation. -/
def privOf (alg sel : Nat) (b : Bytes) : Option Bytes := (privateOf alg sel b).map (padTo (privLen alg sel))

/-- A private key: 96 bytes of the feed stand for the random material of its generation. -/
def drawPriv (s : State) (alg sel : Nat) : Option Bytes × State := drawKey (privOf alg sel) 96 drawLimit s

/-- A command whose key still draws zeros stays in hand. -/
def stillDrawing (s : State) (c : Cmd) : State := { s with aut := { s.aut with busy := some c } }

/-- The public key of secret material. -/
def pubFrom (alg sel : Nat) (m : Bytes) : Bytes :=
  padTo (pubLen alg sel) (publicOf alg sel m)

/-- A job that the keeper world runs for a critical command. -/
def critJob (s : State) (c : Cmd) (kind : JobKind) (prog profile : Nat) (f : Figures) (item : Option Nat) : Job :=
  { cmd := c, item := item, batch := none, kind := kind, prog := prog, profile := profile, rel := if f.ladder then .ladder else .immediate,
    ladder := f.ladder, accepted := now s, base := 0, allot := f.allot, steps := f.steps, load := f.load, pav := 0,
    phase := .queued, part := none, part2 := none, started := 0, status := 0, detail := 0, output := [], direct := false,
    required := 0, pair := 0, due := 0, late := false, staged := 0, stream := 0, pieces := 0, piecesAll := 0, useA := none, useB := none,
    attrA := none, attrB := none, matA := [], matB := [], index := 0, waitOts := false, crit := true }

/-- Plan jobs one after another; none when no pavilion or big-number engine is in service. -/
def planAll (s : State) : List Job → Option State
  | [] => some s
  | j :: r => match planJob s j with
    | none => none
    | some (s1, _) => planAll s1 r

/-- The jobs of a generation (R241, R245, R294); a status when they cannot run. -/
def generateJobs (s : State) (c : Cmd) (a : Attr) (sel : Nat) : Res (List Job) :=
  if isClassical a.alg then
    match poolKeygenFig a.alg (64 * sel) a.floor with
    | none => reject stParam dParamSet
    | some f => if poolSize s = 0 then reject stDenied 0x01C9 else .ok [critJob s c (.pool false) a.alg a.floor f none]
  else match libPick s (libId a.alg opKeygen) with
  | none => reject stParam 0x0026
  | some (id, pr) =>
      let own := if isStateful a.alg then libFig a.alg opLeaves a.floor else keygenFig a.alg a.floor
      match (match pr with
        | none => own
        | some x => if x.man.profiles.testBit a.floor then some (manifestFig x.man a.floor) else none) with
      | none => reject stParam 0x0188
      | some f =>
          if isStateful a.alg then .ok ((List.range 1025).map (fun i => critJob s c .library id a.floor f (some i)))
          else .ok [critJob s c .library id a.floor f none]

def performKeyGenerate (c : Cmd) (s : State) : State :=
  let sel := c.desc.select % 65536
  match (do
    match suspendDetail s with
    | some d => reject stSuspended d
    | none => .ok ()
    let r ← generateCheck s c
    failIf (attrFlag r.1 flParkWide && s.prk.st != .formed) stDenied
      (if s.prk.st = .detached ∨ s.prk.st = .resyncing then 0x0203 else 0x0200)
    failIf (attrFlag r.1 flParkWide && parkFlag s) stDenied 0x0208
    .ok r : Res (Attr × Bool)) with
  | .error e => completeCmd s c e.1 e.2
  | .ok (a, _) =>
      if !genReady s then kilnHold s c
      else if a.cls = clsSecret then
        match drawSecret s ((secretLen a.alg sel).getD 0) with
        | (some k, s1) => commitCreate s1 c [(a, k)] []
        | (none, s1) => stillDrawing s1 c
      else match generateJobs s c a sel with
        | .error e => completeCmd s c e.1 e.2
        | .ok jobs => match planAll s jobs with
          | none => completeCmd s c stDenied 0x02C6
          | some s1 => { s1 with aut := { s1.aut with busy := some c } }

/-- The commit of a generated pair. -/
def generateCommit (s : State) (c : Cmd) : State :=
  let sel := c.desc.select % 65536
  match generateCheck s c with
  | .error e => completeCmd s c e.1 e.2
  | .ok (a, wantPub) =>
      if !kilnReleasing s then completeCmd s c (kilnStatus s).1 (kilnStatus s).2
      else match drawPriv s a.alg sel with
        | (none, s1) => stillDrawing s1 c
        | (some k, s1) =>
            let pk := pubFrom a.alg sel k
            if wantPub && isPq a.alg && !pqPrivOk a.alg k then completeCmd s1 c stKeyInvalid 0x0182
            else if wantPub && isPq a.alg && !pqPubOk a.alg pk then completeCmd s1 c stKeyInvalid 0x0181
            else if wantPub then commitCreate s1 c [(a, k), (publicAttr a, pk)] pk
            else commitCreate s1 c [(a, k)] ([0, 0, 0, 0] ++ pk)

/-! KEY_EXPORT (R143, R144, R296) -/

/-- Strength of an AES key in bytes. -/
def aesBytes (alg : Nat) : Nat := if alg = 0x0101 then 16 else if alg = 0x0102 then 24 else 32

def weakWrap (a : Attr) (w : Attr) (wlen : Nat) : Bool :=
  isTdea w.alg || (isAes w.alg && isAes a.alg && decide (aesBytes w.alg < aesBytes a.alg))
    || (isRsa w.alg && decide ((rsaBits w.alg w.cls wlen).getD 0 < 3072))

/-- The format asked for fits the wrapping key's algorithm. -/
def wrapFits (fmt alg : Nat) : Bool :=
  (fmt == 1 && isAes alg) || (fmt == 2 && alg == 0x0103) || (fmt == 3 && alg == 0x0203) || (fmt == 4 && isRsa alg)

def x9Alg (alg : Nat) : Option Nat :=
  if isAes alg then some 0x41 else if isTdea alg then some 0x54 else if alg = 0x0121 then some 0x48 else none

/-- Header key usage (two characters, first byte high) and mode of a usage code on export. -/
def x9Header (alg usage : Nat) : Option (Nat × Nat) :=
  if usage = usDukpt then some (0x4230, 0x58)
  else if usage = usEncrypt then some (0x4430, 0x45)
  else if usage = usDecrypt then some (0x4430, 0x44)
  else if usage = usWrap then some (0x4B30, 0x45)
  else if usage = usUnwrap then some (0x4B30, 0x44)
  else if usage = usMacGen then some (if alg = 0x0121 then 0x4D37 else 0x4D36, 0x47)
  else if usage = usMacVerify then some (if alg = 0x0121 then 0x4D37 else 0x4D36, 0x56)
  else if usage = usPinOut then some (0x5030, 0x45)
  else if usage = usPinIn then some (0x5030, 0x44)
  else if usage = usCard then some (0x4330, 0x56)
  else none

/-- Usages that a header admits on import. -/
def x9Usages (alg ku mode : Nat) : List Nat :=
  let pair (e d : Nat) : List Nat := if mode = 0x45 then [e] else if mode = 0x44 then [d] else if mode = 0x42 then [e, d] else []
  let mac : List Nat := if mode = 0x47 then [usMacGen] else if mode = 0x56 then [usMacVerify]
    else if mode = 0x43 then [usMacGen, usMacVerify] else []
  if ku = 0x4230 then (if mode = 0x58 then [usDukpt] else [])
  else if ku = 0x4430 then pair usEncrypt usDecrypt
  else if ku = 0x4B30 ∨ ku = 0x4B31 then pair usWrap usUnwrap
  else if ku = 0x4D36 then (if isMacAlg alg then [] else mac)
  else if ku = 0x4D37 then (if alg = 0x0121 then mac else [])
  else if ku = 0x5030 then pair usPinOut usPinIn
  else if ku = 0x4330 ∨ ku = 0x4530 then
    (if mode = 0x47 ∨ mode = 0x56 ∨ mode = 0x43 ∨ mode = 0x58 then [usCard] else [])
  else []

/-- An X9.143 header: version "D", length of the block, key usage, algorithm, mode, key version "00", exportability "E", no
optional block. -/
def x9Head (len al ku mode : Nat) : Bytes :=
  [0x44] ++ ([1000, 100, 10, 1].map (fun d => BitVec.ofNat 8 (0x30 + len / d % 10))) ++ beBytes 2 ku ++ leBytes 1 al
    ++ leBytes 1 mode ++ ascii "00" ++ ascii "E" ++ ascii "0000"

/-- The key of KEM_TRANSFER (R143). -/
def kemtKey (ss : Bytes) (a : Bytes) : Bytes := kmac256 ss a (ascii "SX256Q KEMT") 32

/-- Wrap a key in a format. -/
def exportOut (s : State) (fmt : Nat) (a : Attr) (mat : Bytes) (w : Attr) (wmat : Bytes) : Res (Bytes × State) :=
  if fmt = 1 then
    match x9Alg a.alg, x9Header a.alg a.usage with
    | some al, some (ku, mode) =>
        let d := genDraw s 16
        .ok (x9Seal wmat d.1 (x9Head (x9Length mat.length) al ku mode) mat, d.2)
    | _, _ => reject stUsage 0
  else
    let d := genDraw s 12
    if fmt = 2 then .ok (blobSeal wmat d.1 a mat, d.2)
    else if fmt = 3 then
      let e := kemSeal (d.2.freeCtr + 1) w.alg wmat
      .ok (padTo (pqOut w.alg) e.1 ++ blobSeal (kemtKey (padTo 32 e.2) (attrBytes a)) d.1 a mat, bumpCtr d.2)
    else
      let k := genDraw d.2 32
      let s1 := k.2
      .ok (rsaEncrypt 0 (rsaK w.alg w.cls wmat.length) wmat (randBytes (s1.freeCtr + 1) 32) (ascii "SX256Q RSAT") k.1
        ++ blobSeal k.1 d.1 a mat, bumpCtr s1)

/-- Checks 3, 4, 6 and 7 of a key that a critical command names; usage 0 admits every usage. -/
def critLook (s : State) (c : Cmd) (h usage : Nat) : Res (Nat × Obj) := do
  let r ← keyLookup s c h
  failIf (usage != 0 && r.2.attr.usage != usage) stUsage 0
  keyWindow s r.2.attr
  keyMeter s r.2.attr (meterUnits r.2.attr 0 0 0 1)
  .ok r

/-- The same of a key whose object the command uses: a DAMAGED one fails it (R121). -/
def critKey (s : State) (c : Cmd) (h usage : Nat) : Res (Nat × Obj) := do
  let r ← critLook s c h usage
  failIf (r.2.st == .damaged) stFault dDamaged
  .ok r

/-- The charge of a critical command on a key it names: 1 of a QUOTA meter (R134). -/
def critCharge (s : State) (a : Attr) : State := meterCharge s a (meterUnits a 0 0 0 1)

/-- The algorithm and the format of an export or import that the pool serves need an engine in it (R276, R277, R296). -/
def poolServes (s : State) (fmt alg cls : Nat) : Res Unit :=
  failIf ((fmt == 4 || (isClassical alg && cls != clsSecret)) && poolSize s == 0) stDenied 0x01C9

def performKeyExport (c : Cmd) (s : State) : State :=
  let fmt := c.desc.select % 65536
  let r : Res (Bytes × State) := do
    failIf (decide (fmt < 1 ∨ 4 < fmt)) stParam dParamSet
    poolServes s fmt 0 clsSecret
    let a ← critKey s c c.desc.keyA 0
    let w ← critKey s c c.desc.keyB usWrap
    failIf (a.2.attr.cls == clsPublic) stParam 0
    failIf (!attrFlag a.2.attr flExportable) stDenied dNotExportable
    failIf (weakWrap a.2.attr w.2.attr w.2.material.length) stDenied dWeakWrap
    failIf (fmt == 1 && a.2.attr.cls != clsSecret) stParam 0
    failIf (!wrapFits fmt w.2.attr.alg) stParam dParamSet
    let s1 := critCharge (critCharge s a.2.attr) w.2.attr
    exportOut s1 fmt a.2.attr a.2.material w.2.attr w.2.material
  match r with
  | .error e => completeCmd (countExhausted s e.1) c e.1 e.2
  | .ok (out, s1) => if genReady s then completeOut (critCommitted s1 c) c out else kilnHold s c

/-! KEY_IMPORT (R143, R144, R235, R295, R296) -/

/-- What a wrapped key holds: algorithm, the usages it admits, class, exportable, and the material. -/
structure Unwrapped where
  alg : Nat → Bool
  usages : List Nat
  cls : Nat
  exportable : Bool
  /-- exportability N or S of an X9.143 block -/
  barred : Bool
  material : Bytes

def openTransfer (key b : Bytes) : Res Unwrapped :=
  let a := attrParse b
  if !blobShape b || (materialLenOk a.len && a.units != unitsFor a.len) then reject stKeyInvalid dBlobForm
  else match blobOpen key b with
    | none => reject stKeyInvalid dBlobTag
    | some m =>
        .ok { alg := fun x => x == a.alg, usages := [a.usage], cls := a.cls, exportable := attrFlag a flExportable,
              barred := false, material := m }

/-- Value of four ASCII digits. -/
def digits4 (b : Bytes) : Option Nat :=
  match (b.take 4).map digitOf with
  | [some a, some b, some c, some d] => some (1000 * a + 100 * b + 10 * c + d)
  | _ => none

/-- Open an X9.143 block for a wanted algorithm. -/
def openX9 (alg : Nat) (key b : Bytes) : Res Unwrapped :=
  if b.length < 16 ∨ leAt b 0 1 ≠ 0x44 ∨ digits4 (b.drop 1) ≠ some b.length then reject stKeyInvalid dBlobForm
  else match x9Parts b with
  | none => reject stKeyInvalid dBlobForm
  | some (head, kc, ct, tag) => match x9Key key head ct tag with
    | none => reject stKeyInvalid dBlobTag
    | some m =>
        let ku := beNat ((b.drop 5).take 2)
        let al := leAt b 7 1
        let mode := leAt b 8 1
        let ex := leAt b 11 1
        let kcBad := match kc with
          | none => false
          | some v => v != (leBytes 3 (kcvOf alg m)).take v.length
        if kcBad then reject stKeyInvalid dKcvMismatch
        else .ok { alg := fun x => x9Alg x == some al, usages := x9Usages alg ku mode, cls := clsSecret,
                   exportable := true, barred := ex == 0x4E || ex == 0x53, material := m }

def openWrapped (fmt alg : Nat) (w : Attr) (wmat b : Bytes) : Res Unwrapped :=
  if fmt = 1 then openX9 alg wmat b
  else if fmt = 2 then openTransfer wmat b
  else if fmt = 3 then
    let n := pqOut w.alg
    if b.length < n then reject stKeyInvalid dBlobForm
    else openTransfer (kemtKey (padTo 32 (kemOpen w.alg wmat (b.take n))) ((b.drop n).take 64)) (b.drop n)
  else
    let n := rsaK w.alg w.cls wmat.length
    if b.length < n then reject stKeyInvalid dBlobForm
    else match rsaDecrypt 0 n wmat (ascii "SX256Q RSAT") (b.take n) with
      | none => reject stKeyInvalid dBlobForm
      | some k => if k.length = 32 then openTransfer k (b.drop n) else reject stKeyInvalid dBlobForm

/-- Material of the length its algorithm has. -/
def materialFits (alg cls n : Nat) : Bool :=
  if cls = clsSecret then (if isMacAlg alg then decide (16 ≤ n ∧ n ≤ 64) else n == componentLen alg)
  else if isRsa alg then (rsaBits alg cls n).isSome
  else if cls = clsPrivate then n == privLen alg 0
  else n == pubLen alg 0

/-- CHECK of an imported key (R235, R295). -/
def importBad (alg cls : Nat) (m : Bytes) : Option Nat :=
  if cls = clsSecret then (if materialFits alg cls m.length then none else some dBlobForm)
  else if cls = clsPrivate then
    if !materialFits alg cls m.length then some 0x0182
    else if (isEcdsa alg && (beNat m == 0 || decide (curveOrder alg ≤ beNat m))) then some 0x0182
    else if isEddsa alg || isXdh alg || isEcdsa alg then none
    else if (if isPq alg then pqPrivOk alg m
        else rsaPubOk (rsaK alg cls m.length) m && rsaPrivOk (rsaK alg cls m.length) m) then none
    else some 0x0182
  else if !materialFits alg cls m.length then some 0x0181
  else if (if isPq alg then pqPubOk alg m else (pubBad alg m).isNone) then none else some 0x0181

/-- CHECK of a post-quantum key draws masks in HEDGE and WALLED (R225). -/
def importDraws (a : Attr) : Bool := a.cls != clsSecret && isPq a.alg && decide (1 ≤ a.floor)

def performKeyImport (c : Cmd) (s : State) : State :=
  let fmt := c.desc.select % 65536
  let r : Res (Attr × Bytes × State) := do
    failIf (decide (fmt < 1 ∨ 4 < fmt)) stParam dParamSet
    let raw := attrParse c.aux
    poolServes s fmt raw.alg raw.cls
    let w ← critKey s c c.desc.keyB usUnwrap
    let a ← hostAttr c.aux (tenantOf s c.fn) (otsCount raw.alg)
    failIf (isStateful a.alg && a.cls == clsPrivate) stDenied 0x018A
    failIf (a.cls != clsSecret && isPq a.alg && (libPick s (libId a.alg opCheck)).isNone) stParam 0x0026
    failIf (!wrapFits fmt w.2.attr.alg) stParam dParamSet
    let u ← openWrapped fmt a.alg w.2.attr w.2.material c.input
    failIf (!materialLenOk u.material.length) stParam dMaterialLen
    failIf (u.barred && attrFlag a flExportable) stDenied dNotExportable
    failIf (!u.alg a.alg || !u.usages.contains a.usage || a.cls != u.cls || (attrFlag a flExportable && !u.exportable))
      stUsage 0
    failIf (u.material.all (fun x => x == 0)) stKeyInvalid dZeroKey
    match importBad a.alg a.cls u.material with
    | some d => reject stKeyInvalid d
    | none => .ok ({ a with origin := 2 }, u.material, critCharge s w.2.attr)
  match r with
  | .error e => completeCmd (countExhausted s e.1) c e.1 e.2
  | .ok (a, m, s1) => if importDraws a && !kilnReleasing s then kilnHold s c else commitCreate s1 c [(a, m)] []

/-! KEY_COMPONENT (R114) -/

/-- KEY_COMPONENT at its commit: `c.aux` holds the components that the wait gathered, one after another. The block is checked
whatever the target; the combined key is shown by its check value. -/
def performKeyComponent (c : Cmd) (s : State) : State :=
  let alg := leAt c.input 2 2
  let n := componentLen alg
  match hostAttr c.input (tenantOf s c.fn) 0, combine alg ((List.range (c.aux.length / n)).map (fun i => (c.aux.drop (n * i)).take n)) with
  | .error e, _ => completeCmd s c e.1 e.2
  | .ok _, none => completeCmd s c stKeyInvalid dZeroKey
  | .ok a, some key =>
      let kcv := leBytes 3 (kcvOf alg key) ++ [0]
      let s1 := showKcv s 0 alg key
      if c.desc.select.testBit 8 then completeOut (critCommitted (installKey s1 0 key) c) c ([0, 0, 0, 0] ++ kcv)
      else commitCreate s1 c [({ a with origin := 4 }, key)] kcv

/-! KEY_DELETE, KEY_ATTR_SET, KEY_METER_SET (R121, R125, R137) -/

/-- Deletion takes a DAMAGED object too (R121). -/
def performKeyDelete (c : Cmd) (s : State) : State :=
  match critLook s c c.desc.keyA 0 with
  | .error e => completeCmd (countExhausted s e.1) c e.1 e.2
  | .ok (b, o) =>
      let s1 := critCharge s o.attr
      parkOr s1 c o.attr (.delete c.desc.keyA) (deleteObj (coldRemove s1 c.desc.keyA) b)

def performKeyAttrSet (c : Cmd) (s : State) : State :=
  match (do
    let r ← critKey s c c.desc.keyA 0
    let a ← attrSetCheck r.2.attr c.input
    .ok (r.1, r.2, a) : Res (Nat × Obj × Attr)) with
  | .error e => completeCmd (countExhausted s e.1) c e.1 e.2
  | .ok (b, o, _) =>
      let s1 := critCharge s o.attr
      if coldHas s o.attr.handle && !genReady s then kilnHold s c
      else parkOr s1 c o.attr (.attrSet c.desc.keyA c.input) (coldRewrite (setAttr s1 b (fun x => attrApply x c.input)) b)

/-- The key that KEY_METER_SET may name in KEY_A: checked and charged as any named key; 0 names none (R76, R128). -/
def meterSetKey (s : State) (c : Cmd) : Res State :=
  if c.desc.keyA = 0 then .ok s
  else do
    let r ← critKey s c c.desc.keyA 0
    .ok (critCharge s r.2.attr)

/-- The loaded key that holds the meter is the caller's own and not DAMAGED. -/
def meterSetHolder (s : State) (c : Cmd) (i : Nat) : Res Unit :=
  match meterHolder s i with
  | some (_, o) => do
      failIf (o.attr.tenant != tenantOf s c.fn) stNotFound 0
      failIf (o.st == .damaged) stFault dDamaged
  | none => .ok ()

def performKeyMeterSet (c : Cmd) (s : State) : State :=
  let i := c.desc.select % 4096
  let word := leAt c.input 0 8
  let limit := leAt c.input 8 8
  match (do
    let s1 ← meterSetKey s c
    meterSetHolder s c i
    meterSetCheck s i word limit
    .ok s1 : Res State) with
  | .error e => completeCmd (countExhausted s e.1) c e.1 e.2
  | .ok s1 => match meterHolder s i with
    | some (_, o) =>
      if coldHas s o.attr.handle && !genReady s then kilnHold s c
      else parkOr s1 c o.attr (.meterSet o.attr.handle word limit) (meterSet s1 i word limit)
    | none => completeCmd (critCommitted (meterSet s1 i word limit) c) c 0 0

/-! What the gatehouse reads directly (R132, R138), and the cold record (R449) -/

def doKeyAttrGet (o : Obj) (c : Cmd) (s : State) : State :=
  if o.st = .damaged then completeCmd s c stFault dDamaged
  else if c.desc.select = 0 then completeOut s c (attrBytes o.attr)
  else if o.attr.cls = clsPublic then completeOut s c o.material
  else completeCmd s c stParam dParamSet

def doKeyMeterGet (o : Obj) (c : Cmd) (s : State) : State :=
  if o.st = .damaged then completeCmd s c stFault dDamaged
  else if attrFlag o.attr flMetered then completeOut s c (meterGet s o.attr.meter o.attr.meterKind)
  else completeCmd s c stParam 0

def coldRegion : Nat := 16 * 1024 * 1024

/-- The commit of a KEY_SAVE with COLD. -/
def coldCommit (s : State) (c : Cmd) : State :=
  match findKey s (tenantOf s c.fn) c.desc.keyA with
  | none => completeCmd s c stNotFound 0
  | some (_, o) =>
      if attrFlag o.attr flParkWide then completeCmd s c stDenied dParkKey
      else if coldRegion < coldUsed s + 8 + o.material.length + 92 then completeCmd s c stDenied 0x02A3
      else if coldHas s c.desc.keyA then completeCmd s c stDenied dHandleInUse
      else
        let d := genDraw s 12
        let r : ColdRec := { tenant := o.attr.tenant, blob := blobSeal (storageKey s 0x03 o.attr.tenant) d.1 o.attr o.material }
        completeOut { d.2 with boot := { d.2.boot with coldRecs := d.2.boot.coldRecs ++ [r] } } c (leBytes 4 c.desc.keyA)

/-! The end of a critical command's jobs -/

/-- A job of a critical command has been released: once none is left the command commits or fails; a failure aborts those
that are left. -/
def critEnd (go : State → State) (s : State) (j : Job) : State :=
  let same (k : Job) : Bool := k.crit && k.cmd == j.cmd
  if s.gth.jobs.any (fun e => same e.2) then
    if j.status = 0 then s else abortWhere s same j.status j.detail (fun s _ => now s)
  else if j.cmd.desc.opcode = 0x1002 then
    (if j.status = 0 then coldCommit s j.cmd else completeCmd s j.cmd j.status j.detail)
  else
    let s1 := txnFree s
    go (if j.status = 0 then generateCommit s1 j.cmd else completeCmd s1 j.cmd j.status j.detail)

end Sys2Proof.Machine
end

