-- ==== Sys2Proof/Machine/Tenancy.lean ====
section
/-! DEFINITION. Tenants and virtual functions: the TENANT commands, the drain of a VF, its image, its view
(13_tenancy.md R351 to R373). -/

namespace Sys2Proof.Machine

/-! Quota records (R352) -/

def quotaParse (b : Bytes) : Quota :=
  { unitsMax := leAt b 4 4, metersMax := leAt b 8 2, streamsMax := leAt b 10 2, vfsMax := leAt b 12 2,
    schedMax := leAt b 14 2, programKib := leAt b 16 4 }

def quotaForm (b : Bytes) : Res Unit := do
  failIf (decide (4096 ≤ leAt b 0 2) || leAt b 2 2 != 0 || !((b.drop 20).take 12).all (fun x => x == 0)) stParam dReserved
  let q := quotaParse b
  failIf (decide (196352 < q.unitsMax ∨ 4096 < q.metersMax ∨ 16384 < q.streamsMax ∨ 1023 < q.vfsMax ∨ 256 < q.schedMax
    ∨ 4096 < q.programKib)) stParam 0

/-- A TENANT record: its source is the VF, or 0 (R463). -/
def tenRecord (s : State) (c : Cmd) (ev vf tenant : Nat) : State :=
  record s (0x0900 + ev) vf sevNotice (some tenant) (cmdRecordPayload c 0 0)

def setTenant (s : State) (t : Nat) (q : Quota) : State := { s with ten := { s.ten with tenants := kins s.ten.tenants t q } }

def performTenantCreate (c : Cmd) (s : State) : State :=
  let t := leAt c.input 0 2
  match quotaForm c.input with
  | .error e => completeCmd s c e.1 e.2
  | .ok _ =>
      if t = 0 then completeCmd s c stParam 0x0220
      else if tenantKnown s t then completeCmd s c stDenied 0x0221
      else completeCmd (critCommitted (tenRecord (setTenant s t (quotaParse c.input)) c 1 0 t) c) c 0 0

def performTenantQuotaSet (c : Cmd) (s : State) : State :=
  let t := leAt c.input 0 2
  match quotaForm c.input with
  | .error e => completeCmd s c e.1 e.2
  | .ok _ =>
      if !tenantKnown s t then completeCmd s c stDenied dTenantUnknown
      else completeCmd (critCommitted (setTenant s t (quotaParse c.input)) c) c 0 0

/-- VFs bound to a tenant. -/
def vfsOf (s : State) (t : Nat) : Nat := (s.ten.vf.filter (fun e => e.2.st != .unbound && e.2.tenant == t)).length

/-- What a tenant still holds (R354). -/
def tenantEmpty (s : State) (t : Nat) : Bool :=
  vfsOf s t == 0 && unitsHeld s t == 0 && metersOf s t == 0 && !s.sdl.sched.any (fun e => e.tenant == t)
    && !s.lib.programs.any (fun p => p.2.man.isScoped && p.2.man.tenant == t)
    && !s.lib.publishers.any (fun p => p.2.isScoped && p.2.scope == t)
    && !s.ldg.parts.any (fun p => p.2.isScoped && p.2.tenant == t)
    && !s.aut.custodians.any (fun k => k.2.isScoped && k.2.scope == t)

def performTenantDelete (c : Cmd) (s : State) : State :=
  let t := leAt c.input 0 2
  if 4096 ≤ t then completeCmd s c stParam dReserved
  else if t = 0 then completeCmd s c stParam 0x0220
  else if !tenantKnown s t then completeCmd s c stDenied dTenantUnknown
  else if !tenantEmpty s t then completeCmd s c stDenied 0x0223
  else
    let s1 := { s with ten := { s.ten with tenants := kdel s.ten.tenants t } }
    completeCmd (critCommitted (tenRecord s1 c 2 0 t) c) c 0 0

/-! VFs and their queues -/

/-- SELECT of the VF commands (R355); none outside 1 to TotalVFs. -/
def selVf (c : Cmd) : Option Nat :=
  let n := c.desc.select % 1024
  if 1 ≤ n then some n else none

/-- Queue pairs of a function. -/
def pairsOf (fn : Nat) : List Nat := if fn = 0 then List.range 16 else List.range 4
def queuesOff (s : State) (n : Nat) : Bool := (pairsOf n).all (fun q => !(getQp s (qpIx n q)).enable)

/-- Disable the queues of a function; their registers stay. -/
def disableQueues (s : State) (n : Nat) : State :=
  (pairsOf n).foldl (fun s q => setQp s (qpIx n q) { getQp s (qpIx n q) with enable := false }) s

/-- QP_CFG as software reads it (R66). -/
def qpCfg (q : QPair) : Nat :=
  q.depthM1 + 2 ^ 16 * b2n q.enable + 2 ^ 17 * q.vector + 2 ^ 23 * b2n q.intEn + 2 ^ 24 * q.weight + 2 ^ 28 * b2n q.error
    + 2 ^ 29 * b2n (decide (0 < q.inFlight))

/-- Streams of a function, and of all the functions of a tenant (R352). -/
def streamsOfFn (s : State) (n : Nat) : List Stream := s.gth.streams.filter (fun x => x.fn == n)
def streamsOfTenant (s : State) (t : Nat) : Nat := (s.gth.streams.filter (fun x => tenantOf s x.fn == t)).length

def closeStreams (s : State) (n : Nat) : State :=
  (streamsOfFn s n).foldl (fun s x => closeStream s n x.number) s

/-- The 16 counters of a view: 13 to 15 are gauges (R369). -/
def vfView (s : State) (n : Nat) : List Nat :=
  let v := getVf s n
  if v.st = .unbound then List.replicate 16 0
  else (List.range 13).map (fun i => kget (fun _ => 0) v.view i)
    ++ [unitsHeld s v.tenant, metersOf s v.tenant, (streamsOfFn s n).length]

def viewBytes (l : List Nat) : Bytes := l.flatMap (leBytes 8)

/-! Quiesce and resume (R359, R360) -/

/-- Nothing of a function is in flight. -/
def fnDrained (s : State) (n : Nat) : Bool :=
  !s.gth.held.any (fun h => h.cmd.fn == n) && !s.gth.jobs.any (fun e => e.2.cmd.fn == n)
    && !s.gth.batches.any (fun e => e.2.plan.cmd.fn == n) && !s.aut.mailbox.any (fun c => c.fn == n)
    && !(match s.aut.wait with
      | some w => w.cmd.fn == n
      | none => false)
    && !(match s.aut.busy with
      | some c => c.fn == n
      | none => false)
    && !(pairsOf n).any (fun q => (getQp s (qpIx n q)).tailDue || (getQp s (qpIx n q)).msiDue)
    && !s.rng.ports.any (fun p => p.cmd.fn == n) && !s.rng.rawReads.any (fun p => p.cmd.fn == n) && !s.prk.shares.any (fun x => x.fn == n)
    && !s.ldg.parts.any (fun p => p.2.queue.any (fun c => c.fn == n) || (match p.2.running with
      | some r => r.cmd.fn == n
      | none => false))
    && !s.gth.ideHeld.any (fun o => match o with
      | .completion fn _ _ => fn == n
      | _ => false)

/-- A drained VF becomes QUIESCED, and the command that asked for it completes; on a VF that was QUIESCED already, once its
reset has ended. -/
def quiesceEnd (s : State) (n : Nat) : State :=
  let v := getVf s n
  if ((v.st = .draining ∧ fnDrained s n = true) ∨ (v.st = .quiesced ∧ v.quiescer ≠ [])) ∧ v.flrBusy = false then
    v.quiescer.foldl (fun s w => complete s w.1 w.2.1 w.2.2 0 0 0 0) (setVf s n { v with st := .quiesced, quiescer := [] })
  else s

def doVfQuiesce (c : Cmd) (s : State) : State :=
  match selVf c with
  | none => completeCmd s c stParam dParamSet
  | some n =>
      let v := getVf s n
      let w := v.quiescer ++ [(c.fn, c.queue, c.desc.tag)]
      if v.st = .quiesced then (if v.flrBusy then setVf s n { v with quiescer := w } else completeCmd s c 0 0)
      else if v.st ≠ .serving then completeCmd s c stDenied dVfState
      else quiesceEnd (setVf s n { v with st := .draining, quiescer := w }) n

/-- QUIESCE_DRAINED: of the lowest-numbered VF that is drained. -/
def execQuiesceDrained (s : State) : Host.Outcome State Fault Refusal :=
  answer s (match s.ten.vf.find? (fun e => e.2.st == .draining && !e.2.flrBusy && fnDrained s e.1) with
    | some e => quiesceEnd s e.1
    | none => s)

def doVfResume (c : Cmd) (s : State) : State :=
  match selVf c with
  | none => completeCmd s c stParam dParamSet
  | some n =>
      let v := getVf s n
      if v.st ≠ .quiesced then completeCmd s c stDenied dVfState
      else completeCmd (setVf s n { v with st := .serving }) c 0 0

def doPerfGrant (c : Cmd) (s : State) : State :=
  match selVf c with
  | none => completeCmd s c stParam dParamSet
  | some n =>
      let v := getVf s n
      if 1 < leAt c.input 0 1 ∨ leAt c.input 1 3 ≠ 0 then completeCmd s c stParam dReserved
      else if v.st = .unbound then completeCmd s c stDenied dVfState
      else completeCmd (setVf s n { v with perfRead := leAt c.input 0 1 == 1 }) c 0 0

/-! Binding (R356, R357) -/

/-- The key of a channel key's wrapping (R356). -/
def bindKey (s : State) (ss : Bytes) (n t : Nat) : Bytes :=
  kmac256 ss (leBytes 1 (unitByte s) ++ leBytes 2 n ++ leBytes 2 t) (ascii "SX256Q VFBIND") 32

def performBindVf (c : Cmd) (s : State) : State :=
  let t := leAt c.input 0 2
  let ek := (c.input.drop 4).take 1184
  match selVf c with
  | none => completeCmd s c stParam dParamSet
  | some n =>
      if leAt c.input 2 2 ≠ 0 ∨ 4096 ≤ t then completeCmd s c stParam dReserved
      else if t = 0 then completeCmd s c stParam 0x0220
      else if !tenantKnown s t then completeCmd s c stDenied dTenantUnknown
      else if (getVf s n).st ≠ .unbound ∨ !queuesOff s n then completeCmd s c stDenied dVfState
      else if (quotaOf s t).vfsMax < vfsOf s t + 1 then completeCmd s c stDenied dQuotaVfs
      else if kemModulusBad 0x0202 ek then completeCmd s c stKeyInvalid 0x0181
      else if !genReady s then kilnHold s c
      else
        let d := genDraw s 32
        let e := kemSeal (d.2.freeCtr + 1) 0x0202 ek
        let wk := bindKey s (padTo 32 e.2) n t
        let nonce : Bytes := List.replicate 12 0
        let box := gcmCtr (aesEnc wk) nonce d.1
        let out := padTo 1088 e.1 ++ box ++ gcmTag (aesEnc wk) nonce [] box
        let s1 := installKey (bumpCtr d.2) n d.1
        let s2 := setVf s1 n { vfReset with st := .quiesced, tenant := t, flrBusy := (getVf s n).flrBusy, flrTick := (getVf s n).flrTick,
                                            flrPlain := (getVf s n).flrPlain }
        completeOut (critCommitted (tenRecord s2 c 3 n t) c) c out

def performUnbindVf (c : Cmd) (s : State) : State :=
  match selVf c with
  | none => completeCmd s c stParam dParamSet
  | some n =>
      let v := getVf s n
      if v.st = .unbound ∨ !(v.st == .quiesced || v.st == .frozen || queuesOff s n) then completeCmd s c stDenied dVfState
      else
        let s1 := closeStreams (eraseKey s n) n
        let s2 := setVf s1 n { vfReset with flrBusy := v.flrBusy, flrTick := v.flrTick, flrPlain := v.flrPlain }
        completeCmd (critCommitted (tenRecord s2 c 4 n v.tenant) c) c 0 0

/-! Images (R364 to R368) -/

/-- The wrapping key of an image: AES-256 of tenant 0x000 with the usage given. -/
def imageKey (s : State) (c : Cmd) (usage : Nat) : Res Obj := do
  let r ← critKey s c c.desc.keyB usage
  failIf (!isAes r.2.attr.alg) stUsage 0
  failIf (r.2.attr.alg != 0x0103) stDenied dWeakWrap
  .ok r.2

def queueImage (q : QPair) : Bytes :=
  leBytes 8 q.sqBase ++ leBytes 8 q.cqBase ++ leBytes 4 (qpCfg q) ++ leBytes 2 q.sqHead ++ leBytes 2 q.sqTail
    ++ leBytes 2 q.cqTail ++ leBytes 2 q.cqHead ++ [0, 0, 0, 0]

def streamImage (x : Stream) : Bytes :=
  leBytes 2 x.number ++ leBytes 1 x.queue ++ leBytes 1 (x.paramSet % 256) ++ leBytes 4 x.keyA
    ++ leBytes 8 (x.declared.getD (2 ^ 64 - 1)) ++ leBytes 8 x.total ++ leBytes 4 (ceilDiv x.processed 4096) ++ [0, 0, 0, 0]
    ++ padTo 256 (Sys2Proof.Config.ctxPack x.paramSet x.aad x.nonce x.context)

def imageHeader (s : State) (n : Nat) : Bytes :=
  let v := getVf s n
  let mask := (List.range 4).foldl (fun m q => if (getQp s (qpIx n q)).enable then m + 2 ^ q else m) 0
  let k := (streamsOfFn s n).length
  [0x56, 0x46, 0x49, 0x4D, 0x01] ++ leBytes 1 mask ++ leBytes 2 k ++ leBytes 2 v.tenant ++ leBytes 2 n
    ++ leBytes 1 (unitByte s) ++ leBytes 1 (b2n v.perfRead) ++ [0, 0] ++ leBytes 8 (now s) ++ leBytes 8 (chanCounter s n)
    ++ leBytes 4 (380 + 288 * k) ++ List.replicate 28 0

def imageBody (s : State) (n : Nat) : Bytes :=
  padTo 32 ((chanKeyOf s n).getD []) ++ (List.range 4).flatMap (fun q => queueImage (getQp s (qpIx n q)))
    ++ viewBytes (vfView s n) ++ (streamsOfFn s n).flatMap streamImage

def imgKey (material header : Bytes) : Bytes := kmac256 material header (ascii "SX256Q VFIMG") 32

def performVfSave (c : Cmd) (s : State) : State :=
  match selVf c with
  | none => completeCmd s c stParam dParamSet
  | some n => match imageKey s c usWrap with
    | .error e => completeCmd (countExhausted s e.1) c e.1 e.2
    | .ok k =>
        let v := getVf s n
        let h := imageHeader s n
        if v.st ≠ .quiesced then completeCmd s c stDenied dVfState
        else if outRoom c < leAt h 32 4 then complete s c.fn c.queue c.desc.tag stOutSmall 0 (leAt h 32 4) 0
        else if !genReady s then kilnHold s c
        else
          let d := genDraw s 12
          let wk := imgKey k.material h
          let box := gcmCtr (aesEnc wk) d.1 (imageBody s n)
          let out := h ++ box ++ d.1 ++ gcmTag (aesEnc wk) d.1 h box
          let s1 := closeStreams (eraseKey (disableQueues (meterCharge d.2 k.attr (meterUnits k.attr 0 0 0 1)) n) n) n
          let s2 := setVf s1 n { getVf s1 n with st := .frozen }
          completeOut (critCommitted (tenRecord s2 c 5 n v.tenant) c) c out

/-- Check 1 of R367 on the header. -/
def imageForm (b : Bytes) : Bool :=
  decide (380 ≤ b.length) && b.take 5 == [0x56, 0x46, 0x49, 0x4D, 0x01] && decide (leAt b 5 1 < 16)
    && decide (leAt b 6 2 ≤ 256) && b.length == 380 + 288 * leAt b 6 2 && leAt b 32 4 == b.length && decide (leAt b 8 2 < 4096)
    && decide (leAt b 13 1 < 2) && leAt b 14 2 == 0 && ((b.drop 36).take 28).all (fun x => x == 0)

/-- The zero fields of the body. -/
def bodyZeros (body : Bytes) (k : Nat) : Bool :=
  (List.range 4).all (fun q => leAt body (32 + 32 * q + 28) 4 == 0)
    && (List.range k).all (fun i => leAt body (288 + 288 * i + 28) 4 == 0)

def queueFrom (b : Bytes) (enable : Bool) : QPair :=
  let cfg := leAt b 16 4
  let depth := cfg % 65536
  { qpReset with
    sqBase := leAt b 0 8, cqBase := leAt b 8 8, depthM1 := depth, enable := enable, vector := cfg / 2 ^ 17 % 64,
    intEn := cfg.testBit 23, weight := cfg / 2 ^ 24 % 16, error := cfg.testBit 28, sqHead := leAt b 20 2, sqTail := leAt b 22 2,
    cqTail := leAt b 24 2, cqHead := leAt b 26 2, fetched := (leAt b 24 2 + depth + 1 - leAt b 26 2) % (depth + 1) }

def streamFrom (n : Nat) (b : Bytes) : Stream :=
  let ctx := Sys2Proof.Config.ctxUnpack ((b.drop 32).take 256)
  let keyA := leAt b 4 4
  { fn := n, number := leAt b 0 2, ident := 0, queue := leAt b 2 1, opcode := if keyA = 0 then 0x4002 else 0x3003,
    paramSet := ctx.1 / 256 * 256 + leAt b 3 1, keyA := keyA,
    declared := if leAt b 8 8 = 2 ^ 64 - 1 then none else some (leAt b 8 8), total := leAt b 16 8, processed := leAt b 16 8, text := leAt b 16 8,
    context := ctx.2.2.2, aad := ctx.2.1, nonce := ctx.2.2.1, busy := 0, ended := false }

/-- Put a restored image onto a VF. -/
def restoreImage (s : State) (n : Nat) (h body : Bytes) : State :=
  let k := leAt h 6 2
  let view := (List.range 13).foldl (fun m i => kset (fun _ => 0) m i (leAt body (160 + 8 * i) 8 % 2 ^ 48)) ([] : KMap Nat)
  let s1 := setVf s n { getVf s n with st := .quiesced, tenant := leAt h 8 2, perfRead := (leAt h 13 1).testBit 0,
                                       quiescer := [], view := view }
  let s2 := (List.range 4).foldl (fun s q =>
    setQp s (qpIx n q) (queueFrom ((body.drop (32 + 32 * q)).take 32) ((leAt h 5 1).testBit q))) s1
  let s3 := (List.range k).foldl (fun s i => openStream s (streamFrom n ((body.drop (288 + 288 * i)).take 288))) s2
  setCounter { s3 with aut := { s3.aut with chanKey := kins s3.aut.chanKey n (body.take 32) } } n (leAt h 24 8)

def performVfRestore (c : Cmd) (s : State) : State :=
  let b := c.input
  let h := b.take 64
  let k := leAt b 6 2
  let box := (b.drop 64).take (b.length - 92)
  let nonce := (b.drop (b.length - 28)).take 12
  match selVf c with
  | none => completeCmd s c stParam dParamSet
  | some n => match imageKey s c usUnwrap with
    | .error e => completeCmd (countExhausted s e.1) c e.1 e.2
    | .ok key =>
        let wk := imgKey key.material h
        let body := gcmCtr (aesEnc wk) nonce box
        let t := leAt b 8 2
        let r : Res Unit := do
          failIf (!imageForm b) stParam 0x0225
          failIf (gcmTag (aesEnc wk) nonce h box != b.drop (b.length - 16)) stKeyInvalid dBlobTag
          failIf (!bodyZeros body k) stParam 0x0225
          failIf ((getVf s n).st != .unbound || !queuesOff s n) stDenied dVfState
          failIf (t == 0 || !tenantKnown s t) stDenied dTenantUnknown
          failIf (decide ((quotaOf s t).vfsMax < vfsOf s t + 1)) stDenied dQuotaVfs
          failIf (decide ((quotaOf s t).streamsMax < streamsOfTenant s t + k)) stDenied dQuotaStreams
          failIf (decide (16384 < s.gth.streams.length + k)) stDenied 0x0033
          failIf (s.aut.chanKey.any (fun e => e.2 == body.take 32)) stDenied 0x0226
        match r with
        | .error e => completeCmd s c e.1 e.2
        | .ok _ =>
            let s1 := restoreImage (meterCharge s key.attr (meterUnits key.attr 0 0 0 1)) n h body
            completeCmd (critCommitted (tenRecord s1 c 6 n t) c) c 0 0

end Sys2Proof.Machine
end

