-- ==== Sys2Proof/Machine/Recorder.lean ====
section
/-! DEFINITION. The event recorder's history and commands, and the performance counters' commands (18_counters_recorder_service.md
R459, R460, R462 to R468; 13 R370, R371). -/

namespace Sys2Proof.Machine

/-! The history (R466, R468) -/

def pageRecs : Nat := 64

/-- The first unflushed records of the ring. -/
def firstUnflushed (s : State) (n : Nat) : List EvtRec := (s.evt.ring.filter (fun r => !r.flushed)).take n

/-- A padding record of a final flush (R466). -/
def padRecord : EvtRec :=
  { type := 0, source := 0, severity := 0, flags := 0, repeats := 0, firstHours := 0, lastHours := 0, cycles := 0, unit := 0,
    tenant := 0, grid := 0, seq := 0, payload := List.replicate 24 0, flushed := true }

/-- The records of the history that are no padding. -/
def historyRecs (e : Evt) : List EvtRec := e.history.filter (fun r => r.type != 0)

/-- The oldest SEQ held: of the history, then of the ring. -/
def oldestHeld (e : Evt) : Nat := match historyRecs e, e.ring with
  | r :: _, _ => r.seq
  | [], r :: _ => r.seq
  | [], [] => e.nextSeq

/-- Write records to the history as one page, padded; the oldest page goes when it is full. -/
def flushRecs (s : State) (l : List EvtRec) : State :=
  if l = [] then s
  else
    let all := s.evt.history ++ l.map (fun r => { r with flushed := true }) ++ List.replicate (pageRecs - l.length) padRecord
    let gone := ceilDiv (all.length - s.evt.historyCap) pageRecs
    let keep := all.drop (pageRecs * gone)
    let ring := s.evt.ring.map (fun r => if l.any (fun x => x.seq == r.seq) then { r with flushed := true } else r)
    let e := { s.evt with history := keep, ring := ring, flushes := satInc 32 s.evt.flushes,
                          pagesErased := satAdd 32 s.evt.pagesErased gone }
    meterAdd { s with evt := { e with oldestSeq := oldestHeld e } } 7 4096

/-- HISTORY_FLUSH: a page of 64 records. -/
def execHistoryFlush (s : State) : Host.Outcome State Fault Refusal :=
  answer s (if 64 ≤ unflushed s then flushRecs s (firstUnflushed s 64) else s)

/-- The final flush of a reset or shutdown: every unflushed record, the last page padded. -/
def flushAllGo : Nat → State → State
  | 0, s => s
  | n + 1, s => flushAllGo n (flushRecs s (firstUnflushed s 64))
def flushAll (s : State) : State := flushAllGo (ceilDiv (unflushed s) 64) s

/-- PAGE_ERASE: one page in the background. -/
def execPageErase (s : State) : Host.Outcome State Fault Refusal :=
  answer s (if s.evt.erasePages = 0 then s
    else
      let n := s.evt.erasePages - 1
      { s with evt := { s.evt with erasePages := n, erasing := decide (0 < n), pagesErased := satInc 32 s.evt.pagesErased } })

/-- EVENT_CLEAR: a CLEARED record with the oldest and newest SEQ removed. -/
def performEventClear (c : Cmd) (s : State) : State :=
  let oldest := s.evt.oldestSeq
  let newest := (s.evt.nextSeq + 2 ^ 32 - 1) % 2 ^ 32
  let pages := ceilDiv s.evt.history.length 64
  let e := { s.evt with
    ring := [], history := [], erasePages := s.evt.erasePages + pages, erasing := decide (0 < s.evt.erasePages + pages),
    clears := satInc 32 s.evt.clears }
  let s1 := newRecord { s with evt := e } 0x0001 0 sevNotice none (payState 0 0 0 oldest newest) (recGrid s)
  completeCmd (critCommitted s1 c) c 0 0

/-! EVENT_READ (R467) -/

/-- Every record held, in SEQ order: the history, then what the ring has not flushed. -/
def heldRecs (s : State) : List EvtRec := historyRecs s.evt ++ s.evt.ring.filter (fun r => !r.flushed)

/-- The records a function may see (R371). -/
def visible (s : State) (fn : Nat) (r : EvtRec) : Bool :=
  !isVf fn || (r.flags.testBit 0 && r.tenant == tenantOf s fn)

/-- Distance of a SEQ from the oldest held. -/
def seqDist (s : State) (q : Nat) : Nat := (q + 2 ^ 32 - s.evt.oldestSeq) % 2 ^ 32

/-- The pages of the history, by number, that hold a record of `bad`: their tag fails and they are skipped whole (R467). -/
def badPages (s : State) (bad : List Nat) : List Nat :=
  (List.range (ceilDiv s.evt.history.length pageRecs)).filter (fun p =>
    ((s.evt.history.drop (pageRecs * p)).take pageRecs).any (fun r => r.type != 0 && bad.contains r.seq))

/-- The SEQs that a read cannot return: those of bad pages, and records of the ring that fail their ECC or CRC. -/
def badSeqs (s : State) (bad : List Nat) : List Nat :=
  (badPages s bad).flatMap (fun p => ((s.evt.history.drop (pageRecs * p)).take pageRecs).map (fun r => r.seq))
    ++ (s.evt.ring.filter (fun r => !r.flushed && bad.contains r.seq)).map (fun r => r.seq)

/-- Up to `n` readable records, and how many before the last one taken could not be returned. -/
def takeReadable (bad : List Nat) : Nat → List EvtRec → List EvtRec × Nat
  | 0, _ => ([], 0)
  | _, [] => ([], 0)
  | n + 1, r :: rest =>
      if bad.contains r.seq then
        let x := takeReadable bad (n + 1) rest
        (x.1, x.2 + 1)
      else
        let x := takeReadable bad n rest
        (r :: x.1, x.2)

/-- What a read that meets bad pages or records counts (R467, R469). -/
def noteBad (s : State) (bad : List Nat) : State :=
  let pages := (badPages s bad).length
  let recs := (s.evt.ring.filter (fun r => !r.flushed && bad.contains r.seq)).length
  let s1 := { s with evt := { s.evt with
    pageFail := satAdd 32 s.evt.pageFail pages, recordFail := satAdd 32 s.evt.recordFail recs } }
  if pages = 0 then s1 else evtInt s1 3

/-- EVENT_READ; `c.badRecs` are the SEQs that its reading of flash and ring finds unreadable. -/
def doEventRead (c : Cmd) (s : State) : State :=
  let frm := leAt c.input 0 4
  let max_ := leAt c.input 4 4
  if leAt c.input 8 8 ≠ 0 then completeCmd s c stParam dReserved
  else if max_ = 0 ∨ 16384 < max_ then completeCmd s c stParam dParamSet
  else if outRoom c < 80 then complete s c.fn c.queue c.desc.tag stOutSmall 0 80 0
  else
    let start := if seqDist s frm ≤ seqDist s s.evt.nextSeq then seqDist s frm else 0
    let inRange := (heldRecs s).filter (fun r => decide (start ≤ seqDist s r.seq) && visible s c.fn r)
    let x := takeReadable (badSeqs s c.badRecs) (min max_ ((outRoom c - 16) / 64)) inRange
    let first := match x.1.head? with
      | some r => r.seq
      | none => s.evt.nextSeq
    let next := match x.1.getLast? with
      | some r => (r.seq + 1) % 2 ^ 32
      | none => s.evt.nextSeq
    completeOut (meterAdd (noteBad s c.badRecs) 6 (64 * (x.1.filter (fun r => r.flushed)).length)) c
      (leBytes 4 first ++ leBytes 4 x.1.length ++ leBytes 4 next ++ leBytes 4 x.2 ++ x.1.flatMap recBytes)

/-! Bandwidth meters (R459) -/

def winOf (s : State) (i : Nat) : Nat := kget (fun _ => 20) s.pmc.window i

/-- The window of a meter has ended since it last did. -/
def windowDue (s : State) (i : Nat) : Bool :=
  now s / 2 ^ winOf s i != kget (fun _ => 0) s.pmc.ended i / 2 ^ winOf s i

def endWindow (s : State) (i : Nat) : State :=
  let fresh := kget (fun _ => false) s.pmc.fresh i
  let v := if fresh then 0 else kget (fun _ => 0) s.pmc.moved i
  pmcInt { s with pmc := { s.pmc with
    count := kset (fun _ => 0) s.pmc.count (384 + 208 + i) (v % 2 ^ 48), moved := kset (fun _ => 0) s.pmc.moved i 0,
    fresh := kset (fun _ => false) s.pmc.fresh i false, ended := kset (fun _ => 0) s.pmc.ended i (now s) } } 1

/-- METER_WINDOW: every meter whose window has ended. -/
def execMeterWindow (s : State) : Host.Outcome State Fault Refusal :=
  answer s ((List.range 10).foldl (fun s i => if windowDue s i then endWindow s i else s) s)

def doPerfWindowSet (c : Cmd) (s : State) : State :=
  let w (i : Nat) : Nat := leAt c.input i 1
  if !((c.input.drop 10).take 6).all (fun x => x == 0) then completeCmd s c stParam dReserved
  else if (List.range 10).any (fun i => w i != 0 && decide (w i < 10 ∨ 24 < w i)) then completeCmd s c stParam 0x02C5
  else
    let s1 := (List.range 10).foldl (fun s i =>
      if w i = 0 ∨ w i = winOf s i then s
      else { s with pmc := { s.pmc with
        window := kset (fun _ => 20) s.pmc.window i (w i), moved := kset (fun _ => 0) s.pmc.moved i 0,
        count := kset (fun _ => 0) s.pmc.count (384 + 208 + i) 0, fresh := kset (fun _ => false) s.pmc.fresh i true,
        ended := kset (fun _ => 0) s.pmc.ended i (now s) } }) s
    completeCmd s1 c 0 0

/-! PERF_READ (R370, R460) -/

def snapshot (s : State) (set_ lo n : Nat) : Bytes :=
  leBytes 8 (now s) ++ leBytes 2 set_ ++ leBytes 2 n ++ [0, 0, 0, 0]
    ++ (List.range n).flatMap (fun i => leBytes 8 (pmcGet s (lo + i)))

def doPerfRead (c : Cmd) (s : State) : State :=
  let p := c.desc.select
  if isVf c.fn then
    if p = 0x0001 then
      (if (getVf s c.fn).perfRead then completeOut s c (viewBytes (vfView s c.fn)) else completeCmd s c stDenied 0x0032)
    else if p = 0x0000 ∨ (0x1000 ≤ p ∧ p < 0x1010) ∨ p = 0x2000 ∨ (0x4000 ≤ p ∧ p < 0x4400) then
      completeCmd s c stParam 0x0021
    else completeCmd s c stParam dParamSet
  else if p = 0x0000 then completeOut s c (snapshot s p 0 608)
  else if 0x1000 ≤ p ∧ p < 0x1010 then completeOut s c (snapshot s p (24 * (p - 0x1000)) 24)
  else if p = 0x2000 then completeOut s c (snapshot s p 384 224)
  else if 0x4001 ≤ p ∧ p < 0x4400 then completeOut s c (viewBytes (vfView s (p - 0x4000)))
  else completeCmd s c stParam dParamSet

end Sys2Proof.Machine
end

