-- ==== Sys2Proof/Machine/Boot.lean ====
section
/-! DEFINITION. Starts, resets and shutdown: 17_start_up_reset.md R444 to R453 and R508, power-down of R485, the reset
ball of R486 and R494, the final flush of R466, and what each block keeps (R448). A start runs in three events: its
beginning (PWR_GOOD_RISE or FULL_RESET), the release of the kiln (BOOT_KILN_READY), and SERVICE_READY. -/

namespace Sys2Proof.Machine

/-! What each block keeps (R448) -/

/-- Every listed engine that is not absent is idle again at its first position; one that was quarantined waits for its
test. -/
def engStart (m : KMap Eng) : KMap Eng :=
  kfilter (fun e g => decide (g ≠ engReset e))
    (kmap (fun e g => if g.st = .absent ∨ g.st = .quarantined then { engReset e with st := g.st } else engReset e) m)
def bneStart (m : KMap BnEng) : KMap BnEng :=
  kfilter (fun _ g => decide (g ≠ bnReset))
    (kmap (fun _ g => if g.st = .absent ∨ g.st = .quarantined then { bnReset with st := g.st } else bnReset) m)

/-- The parts out of service (R447): those quarantined, draining, forced or under test. -/
def partsOut (s : State) : List (Nat × Nat) :=
  let one (k : Nat) := ((List.range (kindCount k)).filter (fun i => outOfService s k i)).map (fun i => (k, i))
  one 1 ++ one 2 ++ one 3 ++ one 4 ++ one 5 ++ one 7

/-- A part that drains or is tested when a reset begins is found quarantined (R476). -/
def repStart (s : State) : State :=
  let s1 := s.rep.work.foldl (fun s r =>
    if r.kind = 1 then setEng s r.index { getEng s r.index with st := .quarantined }
    else if r.kind = 3 then setBne s r.index { getBne s r.index with st := .quarantined }
    else s) s
  { s1 with rep := { repReset with
      pavs := s1.rep.pavs, bnes := s1.rep.bnes, kecs := s1.rep.kecs, shas := s1.rep.shas, peers := s1.rep.peers } }

/-- The key store of a full reset: kept, its tags to be verified; a DRAINING object has no job left to wait for. -/
def kstKeep (s : State) : State :=
  let s1 := { s with kst := { kstReset with objs := kmap (fun _ o => { o with waiting := 0 }) s.kst.objs, gens := s.kst.gens } }
  let s2 := (s1.kst.objs.filter (fun e => e.2.st == .draining)).foldl (fun s e => freeObj s e.1) s1
  { s2 with kst := { s2.kst with ready := false, reverify := true, scrubBase := s.tick, deleted := 0 } }

/-- The key store of a cold start: empty, every counter at 1. -/
def kstCold (s : State) : State := { s with kst := { kstReset with scrubBase := s.tick } }

def autStart (a : Aut) : Aut :=
  let cardKept (k : Card) : Card := { cardReset with present := k.present, vccEn := k.vccEn, cls := k.cls, order := k.order }
  { autReset with
    chanKey := a.chanKey, custodians := a.custodians, policy := a.policy,
    card0 := cardKept a.card0, card1 := cardKept a.card1, cardOrder := a.cardOrder }

/-- Commands are gone; what they changed stays. -/
def prkKeep (p : Prk) (tick : Nat) : Prk :=
  let down (q : PeerPort) := { q with linkUp := false, fecLock := false, held := [], waiting := [], fecCorr := 0 }
  { p with
    st := if p.st = .resyncing then .detached else p.st,
    peers := kmap (fun _ x => { x with
      lease := false, heardA := none, heardB := none, silentSince := none, txSeq := 0, rxSeq := 0, rxAhead := [],
      beatsSeen := 0 }) p.peers, ackOwed := 0, beatsSince := tick,
    portA := down p.portA, portB := down p.portB, beats := 0, helloTick := tick, beatTick := tick, ackTick := tick,
    agree := none, txns := p.txns.map (fun t => { t with cmd := none }), resync := none, serving := none, shares := [],
    unanswered := [], intStatus := 0, intEnable := 0, switchovers := 0, resent := 0, discard := 0, txnOk := 0, txnPartial := 0,
    txnAbort := 0, spreadOut := 0, spreadIn := 0, spreadRetried := 0, lostDecl := 0, macsecDrop := 0, walks := 0,
    leaseExpired := 0 }

/-- A cold start keeps the membership record; a member comes up DETACHED (R327). -/
def prkCold (p : Prk) (tick : Nat) : Prk :=
  { prkReset with
    st := if p.st = .alone then .alone else .detached,
    headStrap := p.headStrap, address := p.address, addressed := p.addressed, parkId := p.parkId, roster := p.roster,
    rosterDigest := p.rosterDigest, epoch := p.epoch, key := p.key, lost := p.lost, evicted := p.evicted, rejoin := p.rejoin,
    left := p.left, named := p.named, helloTick := tick, beatTick := tick, ackTick := tick, heardTick := tick }

/-- VF states (R358); the views are counters and are cleared. -/
def tenStart (t : Ten) : Ten :=
  { t with vf := kfilter (fun _ v => decide (v ≠ vfReset)) (kmap (fun _ v =>
      if v.st = .unbound then vfReset
      else { vfReset with st := if v.st = .frozen then .frozen else .quiesced, tenant := v.tenant, perfRead := v.perfRead }) t.vf) }

/-- Applets are reloaded from the flash into their partitions. -/
def ldgStart (l : Ldg) : Ldg :=
  { ldgReset with
    parts := kmap (fun _ a => { a with queue := [], running := none, gateOut := 0, faulted := false, removing := none })
      (kfilter (fun _ a => a.removing.isNone) l.parts) }

/-- The tamper unit keeps its configuration; THROTTLE and SUSPEND end (R402, R404, R420). -/
def tmpStart (t : Tmp) : Tmp :=
  { tmpReset with
    defaults := t.defaults, cfg := t.cfg, win := t.win, tempLow := t.tempLow, tempHigh := t.tempHigh,
    cellTempLow := t.cellTempLow, cellTempHigh := t.cellTempHigh, meshEn := t.meshEn, throttleDuty := t.throttleDuty,
    quench := t.quench, halted := t.halted, cfgSeq := t.cfgSeq, clearNs := t.clearNs, scrubUs := t.scrubUs,
    temp := t.temp, volt := t.volt, meshOk := t.meshOk, clockOk := t.clockOk }

/-- Configuration space keeps its values over a full reset, and the link retrains (R447). -/
def gthStart (g : Gth) : Gth :=
  { gthReset with
    linkWidth := g.linkWidth, linkSpeed := g.linkSpeed, linkUp := g.linkUp, vfEnable := g.vfEnable, ideSecure := g.ideSecure,
    ideRequired := g.ideRequired, d3hot := g.d3hot, cfgReset := g.cfgReset, pci := g.pci, msix := g.msix,
    pba := g.pba }

/-- The programs of the flash: customer packages that are in force; every library program returns whose package the vendor's
keys sign (R180). -/
def libStart (l : Lib) : Lib := { l with programs := kfilter (fun _ p => !p.removed) l.programs, removedLib := libRefused }

/-- The recorder of a start: the history; SEQ goes on after its newest page. -/
def evtStart (e : Evt) : Evt :=
  let next := match (historyRecs e).getLast? with
    | some r => (r.seq + 1) % 2 ^ 32
    | none => e.nextSeq
  { evtReset with history := e.history, historyCap := e.historyCap, nextSeq := next, oldestSeq := oldestHeld { e with ring := [] } }

/-- The power manager of a start: VDD_CORE stands where it is, or at 0.75 V once the supplies have been off (R482). -/
def pwrStart (p : Pwr) (cold : Bool) (tick : Nat) : Pwr :=
  let v := if cold then 750 else p.vcore
  { pwrReset with windowTick := tick, vcore := v, vcoreWant := v }

/-- Every logic block is reset and every SRAM but a kept key store is scrubbed (R447 step 2, R448); the peat domain, the
flash and the life cycle's OTP stand. -/
def blocksStart (s00 : State) (cold time : Bool) : State :=
  let s := transitionStop s00
  let parts := if cold then [] else partsOut s
  let s1 := repStart s
  let s2 := if cold then kstCold s1 else kstKeep s1
  { s2 with
    sdl := if cold then sdlReset else if time then sdlTimeRestart s2.sdl else sdlFullReset s2.sdl,
    gth := gthStart s2.gth, aut := autStart s2.aut,
    peat := { s2.peat with meterWr := 0, chanWr := 0 },
    eng := if cold then kfilter (fun _ g => g.st == .absent) (engStart s2.eng) else engStart s2.eng,
    pav := [], lib := libStart s2.lib,
    bne := { eng := if cold then kfilter (fun _ g => g.st == .absent) (bneStart s2.bne.eng) else bneStart s2.bne.eng, issued := 0 },
    dgs := dgsReset,
    rng := if cold then { rngReset with srcs := kfilter (fun _ x => x.st == .absent) s2.rng.srcs } else rngFullReset s2.rng,
    prk := if cold then prkCold s2.prk s.tick else prkKeep s2.prk s.tick,
    ten := tenStart s2.ten, ldg := ldgStart s2.ldg, mpu := mpuReset, pwr := pwrStart s2.pwr cold s.tick,
    tmp := tmpStart s2.tmp,
    lcs := { s2.lcs with intStatus := 0, intEnable := 0 },
    dbg := { dbgReset with suspending := s2.dbg.suspending, resetPending := s2.dbg.suspending },
    tap := { s2.tap with halted := [] },
    evt := evtStart s2.evt, pmc := pmcReset,
    rep := if cold then repReset else s2.rep,
    boot := { s2.boot with
      phase := .rom, cold := cold, coldLoad := false, coldNext := 0, fallback := false,
      fail := if s2.boot.fail = 3 ∧ s2.peat.latch.isSome then 3 else 0,
      coldLoaded := if cold then 0 else s2.boot.coldLoaded, coldFailed := if cold then 0 else s2.boot.coldFailed,
      shutdown := [], retest := parts, request := none },
    latch := [] }

/-! The steps of a start -/

/-- A quench found by the boot ROM (R412, R446): the secrets are gone and the latch is written. In RAW and TEST the latch
is cleared. -/
def bootQuench (s : State) (cause : Nat) : State :=
  if serving s then tmpDefaults (sramScrub (peatClear s cause 0 0 false))
  else s

/-- Steps 1 to 3 of R444, as R447 step 3 repeats them: the marks, the latch and QUENCH_OUT_N, the kiln. -/
def bootRom (s : State) : State :=
  let s1 := transitionResume s false
  let s2 := { s1 with peat := { s1.peat with
    quenchOutLow := s1.peat.latch.isSome, quenchOutTick := if s1.peat.latch.isSome then s1.tick else s1.peat.quenchOutTick } }
  kilnJudge (kilnEnable { s2 with boot := { s2.boot with start := s2.boot.start.map (fun x => { x with step := 4 }) } })

/-- PWR_GOOD_RISE (R444): the cold start begins. `head`: the PARK_HEAD strap; `found`: the battery-backed RAM. While
RESET_N is low the boot ROM holds at step 1 (R486). -/
def pwrGoodRise (head : Bool) (found : PeatFinding) (s : State) : State :=
  if s.boot.pwrGood then s
  else
    let s0 := match found with
      | .intact => s
      | .lostSupply => bootQuench { s with peat := { peatReset with hoursAt := s.peat.hoursAt, recom := s.peat.recom } } 3
      | .badWord => bootQuench { s with peat := { s.peat with eccUncorr := satInc 32 s.peat.eccUncorr } } 4
    let s1 := blocksStart { s0 with dbg := { s0.dbg with suspending := s0.dbg.suspending && s0.dbg.isOpen } } true false
    let s2 := { s1 with
      tmp := { s1.tmp with halted := false, quench := none },
      peat := { s1.peat with
        main := true, cycles := satInc 24 s1.peat.cycles, hoursAt := s1.tick, meshSeeded := false,
        hold := 3300 },
      prk := { s1.prk with headStrap := head },
      gth := gthReset,
      boot := { s1.boot with
        pwrGood := true, resetCause := 0, resetCount := 0, held := s1.boot.resetLow,
        start := some { kind := .power, began := s1.tick, step := 1, time := true } } }
    if s2.boot.resetLow then s2 else bootRom s2

def execPwrGoodRise (head : Bool) (found : PeatFinding) (s : State) : Host.Outcome State Fault Refusal :=
  answer s (pwrGoodRise head found s)

/-- The keeper region cannot be opened under the KEEPER key of the present root and starts empty (R94, R140, R430, R448):
custodians, authority keys, policy, tenants, publishers, park state, customer code and cold records are gone with it. -/
def keeperLost (s : State) : State :=
  { s with
    aut := { autStart s.aut with chanKey := [], custodians := [], policy := policyDefault },
    gth := { s.gth with ideRequired := false },
    ten := tenReset, lib := { s.lib with programs := [], publishers := [] },
    prk := { prkReset with headStrap := s.prk.headStrap }, ldg := { s.ldg with parts := [] },
    boot := { s.boot with coldRecs := [], code := [], keeperKey := storageKey s 0x04 0 } }

/-- The records that the boot firmware writes: the latch, the cell log, and the start (R413, R463, R466). -/
def bootRecords (s : State) : State :=
  let s1 := match s.peat.latch with
    | some l => if serving s then newRecord s 0x0003 0 sevAlarm none (latchPayload l) (recGrid s) else s
    | none => s
  let s2 := s1.peat.cellLog.foldl (fun s e => 
    newRecordAt s 0x0B03 e.source sevNotice none (payState 0 0 1 (e.hours + 2 ^ 28 * e.source) 0) 0 e.hours true) s1
  let s3 := if s.peat.cellLog = [] then s2
    else tmpInt { s2 with peat := { s2.peat with cellLog := [], cellOverflow := 0 } } 3
  let s4 := record s3 (if s3.boot.cold then 0x0E01 else 0x0E02) s3.boot.resetCause sevNotice none
    (payState 0 1 s3.boot.resetCause 0 0)
  if s4.boot.fallback then record s4 0x0E03 s4.boot.resetCause sevNotice none (payState 0 0 s4.boot.slot 0 0) else s4

/-- The device identity of the image in the slot that runs. -/
def slotDigest (b : Boot) : Bytes := if b.slot = 0 then b.fwDigestA else b.fwDigestB

/-- The region locks of the boot ROM (R390), and what the firmware manifest assigns: the peripherals and lines of VISITOR and the
ways of partition 0 (R382, R383). -/
def lockRegions (s : State) : State :=
  let r : Region := { base := 0, sizeLog2 := 32, perm := 0x83, master := 0x001, mask := 0x3FF }
  let m := [0, 2, 4, 5, 6, 9, 11, 12].foldl (fun m x => kset (fun _ => regionReset) m (mpuIx x 0) r)
  let d := slotDigest s.boot
  let n := 1 + Sys2Proof.Config.p0Ways d % 4
  { s with mpu := { s.mpu with active := m s.mpu.active, staged := m s.mpu.staged },
           freeCtr := s.freeCtr + n,
           ldg := { s.ldg with
             keeperUp := true, visitorUp := true, assignLock := true,
             p0Ways := takeWays (s.ldg.parts.flatMap (fun p => p.2.ways)) n s.freeCtr,
             visitorWindows := Sys2Proof.Config.visitorWindows d,
             visitorLines := Sys2Proof.Config.visitorLines d % 2 ^ 256 } }

/-- Step 5 of R444: the firmware runs, MEAS[0], MEAS[1] and MEAS[6] are extended, the locks are set. -/
def firmwareRuns (s : State) : State :=
  let k := kilnDraw s 1 32
  let s0 := if kilnReleasing s then { k.2 with dgs := { k.2.dgs with ctxKey := k.1, ctxKeyValid := true, store := [] } } else s
  let s1 := measOf s0 0 (Sys2Proof.Config.fwKeeperImage (slotDigest s0.boot))
  let s2 := measOf s1 1 (Sys2Proof.Config.fwCommandImage (slotDigest s1.boot))
  let s3 := lockRegions (measState s2 (recGrid s2))
  bootRecords { s3 with boot := { s3.boot with
    phase := .firmware, start := s3.boot.start.map (fun x => { x with step := 7 }) } }

/-- Step 6 of R444: the host link comes up. DESIGN CHOICE: at its full width and rate; PERST_N_RISE gives other figures. -/
def linkTrain (s : State) : State :=
  if s.gth.linkUp then s else { s with gth := { s.gth with linkUp := true, linkWidth := 8, linkSpeed := 5 } }

/-- The boot halts (R446). -/
def bootHalt (s : State) (fail : Nat) : State :=
  linkTrain { s with boot := { s.boot with phase := .halted, fail := fail, start := none } }

/-- Bytes of history that a flash of `mib` MiB holds, in records of 64 bytes (R441, R466). -/
def historyRecords (mib : Nat) : Nat := (min (min mib 512 - 49) 128) * 16384

/-- BOOT_KILN_READY (step 4 of R444): a held transition completes; flash size, directory and firmware are verified; the
firmware runs. A kiln that has failed does not hold the start. -/
def bootKilnReady (f : FlashRead) (s : State) : State :=
  match s.boot.start with
  | none => s
  | some x =>
      if x.step ≠ 4 ∨ !(kilnReleasing s || s.rng.st == .failed) then s
      else
        let s1 := transitionResume s true
        -- a copy that is of another root is none; below SEALED a pair that fails is empty
        let same := s1.boot.keeperKey == storageKey s1 0x04 0
        let s2 := if same && (f.keeperOk || serving s1) then s1 else keeperLost s1
        match f.mib with
        | none => bootHalt s2 4
        | some m =>
            if m < 64 then bootHalt s2 4
            else if !f.dirOk then bootHalt s2 2
            else
              let okA := f.slotA && s2.boot.fwA
              let okB := f.slotB && s2.boot.fwB
              let want := if s2.boot.dirSlot = 0 then okA else okB
              if !okA && !okB then bootHalt s2 1
              else
                let slot := if want then s2.boot.dirSlot else 1 - s2.boot.dirSlot
                let s3 := { s2 with
                  boot := { s2.boot with flashMib := m, slot := slot, fallback := !want },
                  evt := { s2.evt with historyCap := historyRecords m } }
                let s4 := firmwareRuns s3
                if same && !f.keeperOk && serving s4 && s4.peat.latch.isNone then
                  let s5 := record s4 0x0E06 s4.boot.resetCause sevAlarm none (payState 0 0 3 0 0)
                  quenchStart { s5 with boot := { s5.boot with fail := 3, start := none } } 4 0 4
                else s4

def execBootKilnReady (f : FlashRead) (s : State) : Host.Outcome State Fault Refusal := answer s (bootKilnReady f s)

/-- The bytes of a policy, a custodian record and a publisher entry as their commands carry them (R99, R105, R181). -/
def policyBytes (p : Policy) : Bytes :=
  leBytes 4 p.consoleWait ++ leBytes 4 p.tokenSpan ++ leBytes 2 p.entries.length ++ List.replicate 6 0
    ++ p.entries.flatMap (fun e => leBytes 2 e.1 ++ leBytes 1 e.2 ++ [0])
def scopeWord (isScoped : Bool) (t : Nat) : Bytes := leBytes 2 (if isScoped then 0x8000 + t else 0)
def custodianBytes (i : Nat) (c : Custodian) : Bytes :=
  leBytes 1 i ++ leBytes 1 c.roles ++ scopeWord c.isScoped c.scope ++ [0, 0, 0, 0] ++ leBytes 8 c.notAfter ++ padTo 32 c.name
    ++ padTo 97 c.sigEc ++ padTo 1952 c.sigMl ++ padTo 1184 c.kemPk ++ List.replicate 15 0
def publisherBytes (i : Nat) (p : Publisher) : Bytes :=
  leBytes 1 i ++ [1] ++ scopeWord p.isScoped p.scope ++ [0, 0, 0, 0] ++ padTo 97 p.pkEc ++ padTo 1952 p.pkMl

/-- A byte of a signed number. -/
def sByte (i : Int) : Bytes := leBytes 1 (i % 256).toNat
/-- The configuration of LIFE_TAMPER_SET as the unit holds it (R414). -/
def tamperBytes (t : Tmp) : Bytes :=
  [1] ++ leBytes 1 t.meshEn ++ leBytes 1 t.throttleDuty ++ [0]
    ++ (List.range 4).flatMap (fun v => leBytes 1 (kget winDefault t.win v).1 ++ leBytes 1 (kget winDefault t.win v).2)
    ++ sByte t.tempLow ++ sByte t.tempHigh ++ sByte t.cellTempLow ++ sByte t.cellTempHigh ++ List.replicate 16 0
    ++ (List.range 16).flatMap (fun i =>
      let c := kget srcCfgDefault t.cfg i
      leBytes 1 (c.resp + 16 * b2n c.cellQuench) ++ leBytes 1 c.n ++ leBytes 2 c.w ++ [0, 0, 0, 0])

/-- Step 7 of R444: the keeper region, LIBRARY and USER_CODE are loaded, MEAS[2] to MEAS[5] and MEAS[7] extended in load
order (R265). -/
def measLoad (s : State) : State :=
  let s1 := if s.aut.policy = policyDefault then s else measOf s 5 (policyBytes s.aut.policy)
  let s2 := s1.aut.custodians.foldl (fun s e => measOf s 5 (custodianBytes e.1 e.2)) s1
  let s3 := s2.lib.publishers.foldl (fun s e => measOf s 5 (publisherBytes e.1 e.2)) s2
  let s4 := if s3.tmp.defaults then s3 else measOf s3 7 (tamperBytes s3.tmp)
  let s5 := (libraryIds.filter (libLoaded s4)).foldl (fun s i => measOf s 2 (libPackage i)) s4
  s5.boot.code.foldl (fun s e => measOf s (if e.kind = .program then 3 else 4) e.bytes) s5

/-- Objects of another root are freed at the reset that ends a transition (R139); the tags of a kept store are verified
and a bad one makes its object DAMAGED (R148). -/
def kstVerify (s : State) (bad : List Nat) : State :=
  let other := s.kst.objs.filter (fun e => some e.2.attr.root != rootIx s)
  let s1 := other.foldl (fun s e => freeObj s e.1) s
  let n := s1.kst.objs.length
  let hit := bad.filter (fun b => decide (b < 256) || (kfind s1.kst.objs b).isSome)
  let s2 := hit.foldl (fun s b => damageObj s b false) s1
  { s2 with kst := { s2.kst with
      ready := true, reverify := false, deleted := 0, reverifyObj := n, reverifyFail := hit.length } }

/-- A part's test of a start failed, `x.2.2` the index of the first failing vector: it is quarantined (R444, R474). -/
def failQuarantine (s : State) (x : Nat × Nat × Nat) : State :=
  quarantineNow (repInt (repRecord s 4 sevFault x.1 x.2.1 x.2.2 (Config.startTestTicks s.evt.nextSeq x.1 x.2.1) 0) 3) x.1 x.2.1 5

/-- A part that was out before a full reset returns if its test passed, and stays out otherwise (R447). -/
def retestPart (failed : List (Nat × Nat × Nat)) (s : State) (x : Nat × Nat) : State :=
  match failed.find? (fun f => f.1 == x.1 && f.2.1 == x.2) with
  | some f => failQuarantine s f
  | none =>
    let s1 := listIn s x.1 x.2
    let s2 := if x.1 = 1 then setEng s1 x.2 (engReset x.2) else if x.1 = 3 then setBne s1 x.2 bnReset else s1
    repRecord s2 5 sevNotice x.1 x.2 0 0 0

/-- The parts that were out, those whose test passed first: a spare that returns serves the position of one that stays out
(R9). -/
def passedFirst (failed : List (Nat × Nat × Nat)) (l : List (Nat × Nat)) : List (Nat × Nat) :=
  let bad (x : Nat × Nat) : Bool := failed.any (fun f => f.1 == x.1 && f.2.1 == x.2)
  l.filter (fun x => !bad x) ++ l.filter bad

/-- A part that fails its test at a start is quarantined, and service starts without it (R444, R474). -/
def failPart (s : State) (x : Nat × Nat × Nat) : State :=
  if kindCount x.1 ≤ x.2.1 ∨ x.1 = kdSource ∨ isAbsent s x.1 x.2.1 ∨ outOfService s x.1 x.2.1 then s
  else failQuarantine s x

/-- SERVICE_READY (step 8 of R444, step 7 of R447): the tests end; the parts that failed are out. `bad`: base units whose
tag failed. -/
def serviceReady (failed : List (Nat × Nat × Nat)) (bad : List Nat) (s : State) : State :=
  match s.boot.start with
  | none => s
  | some x =>
      if x.step ≠ 7 ∨ stopped s then s
      else
        let s1 := measLoad s
        let s2 := kstVerify s1 (if s1.boot.cold then [] else bad)
        let s3 := (passedFirst failed s2.boot.retest).foldl (retestPart failed) s2
        let s4 := failed.foldl failPart s3
        let load := s4.boot.cold && s4.boot.coldRecs != []
        { bumpCtr s4 with
          boot := { s4.boot with
            phase := .service, start := none, retest := [], coldLoad := load, coldNext := 0,
            serviceMs := min ((s4.tick - x.began) * 1000 / 2 ^ 20) 65535 } }

def execServiceReady (failed : List (Fin 8 × Fin 272 × Fin 65536)) (bad : List (Fin 196608)) (s : State) :
    Host.Outcome State Fault Refusal :=
  answer s (serviceReady (failed.map (fun x => (x.1.val, x.2.1.val, x.2.2.val))) (bad.map (fun x => x.val)) s)

/-- SELFTEST: the engine tests are under way from 20 ms of a cold start and 35 ms of a full reset until service. -/
def bootTick (s : State) : State :=
  match s.boot.start with
  | some x =>
      if s.boot.phase = .firmware ∧ x.began + (if s.boot.cold then 20971 else 36701) ≤ s.tick then
        linkTrain { s with boot := { s.boot with phase := .selftest } }
      else s
  | none => s

/-- COLD_RECORD_RELOAD (R449): the next record in region order, under the checks of R142 with RELOCATE 0. -/
def coldRecordReload (s : State) : State :=
  if !s.boot.coldLoad then s
  else match s.boot.coldRecs.drop s.boot.coldNext with
    | [] => { s with boot := { s.boot with coldLoad := false } }
    | r :: rest =>
        let s1 := { s with boot := { s.boot with coldNext := s.boot.coldNext + 1, coldLoad := decide (rest ≠ []) } }
        match loadBlob (meterAdd s1 6 (8 + r.blob.length)) 0x03 r.tenant false r.blob with
        | .ok (s2, _) => { s2 with boot := { s2.boot with coldLoaded := min (s2.boot.coldLoaded + 1) 262143 } }
        | .error e =>
            let s2 := record { s1 with boot := { s1.boot with coldFailed := satInc 16 s1.boot.coldFailed } } 0x0E04
              s1.boot.resetCause sevNotice none (payState 0 0 (e.2 % 256) (coldHandle r) (e.1 * 65536 + e.2))
            s2

def execColdRecordReload (s : State) : Host.Outcome State Fault Refusal := answer s (coldRecordReload s)

/-! Full reset (R447, R450, R508) -/

/-- Steps 1 to 3 of R447. -/
def beginReset (s : State) (r : ResetReq) : State :=
  let flag := parkFlag s
  let s1 := if s.dbg.isOpen then closeDebug s else { s with dbg := { s.dbg with suspending := false } }
  let s2 := flushAll s1
  let s3 := blocksStart s2 r.cold (r.time || s2.sdl.coreFault)
  let s4 := flagCleared flag { s3 with boot := { s3.boot with
    resetCause := r.cause, resetCount := satInc 32 s3.boot.resetCount, held := r.cause == 11 && s3.boot.resetLow,
    start := some { kind := if r.cold then .adminCold else .full, began := s.tick, step := 2, time := r.time || s2.sdl.coreFault } } }
  if s4.boot.held then s4 else bootRom s4

/-- FULL_RESET: a requested full reset begins at its tick. -/
def fullReset (s : State) : State :=
  if !s.boot.pwrGood || s.tmp.quench.isSome || s.tmp.halted then s
  else match s.boot.request with
    | some r => if r.due ≤ s.tick then beginReset s r else s
    | none => s

def execFullReset (s : State) : Host.Outcome State Fault Refusal := answer s (fullReset s)

/-- RESET_DELAY_END: the same, 1,048 ticks after the commit of ADMIN_RESET. -/
def execResetDelayEnd (s : State) : Host.Outcome State Fault Refusal :=
  answer s (match s.boot.request with
    | some r => if 1 ≤ r.cause ∧ r.cause ≤ 3 then fullReset s else s
    | none => s)

/-- WATCHDOG: the keeper world did not service it for 65,536 ticks. -/
def execWatchdog (s : State) : Host.Outcome State Fault Refusal :=
  answer s (if !s.boot.pwrGood || stopped s then s else requestReset s 6 0 false false)

/-- RESET_BALL: RESET_N low, `us` whether for 1 µs; ignored while PWR_GOOD is low (R486). -/
def execResetBall (us : Bool) (s : State) : Host.Outcome State Fault Refusal :=
  answer s (if !us then s
    else
      let s1 := { s with boot := { s.boot with resetLow := true } }
      if !s.boot.pwrGood || stopped s then s1 else fullReset (requestReset s1 11 0 false false))

/-- RESET_N_RISE: a start held at its first steps goes on, and its time counts from here (R486, R494). -/
def execResetNRise (s : State) : Host.Outcome State Fault Refusal :=
  answer s (
    let s1 := { s with boot := { s.boot with resetLow := false } }
    if s.boot.held then
      let s2 := { s1 with boot := { s1.boot with
        held := false, start := s1.boot.start.map (fun x => if x.kind = .power then x else { x with began := s.tick }) } }
      bootRom s2
    else s1)

/-- ADMIN_RESET past its commit: fetching stops, the completion is written, and the reset begins 1,048 ticks later. -/
def performReset (c : Cmd) (s : State) : State :=
  let p := c.desc.select % 65536
  if 2 < p then completeCmd s c stParam dParamSet
  else requestReset (completeCmd (critCommitted s c) c 0 0) (1 + p) 1048 (p == 1) (p == 2)

/-! Shutdown and power-down (R451, R452, R485) -/

/-- ADMIN_SHUTDOWN at its acceptance. -/
def doShutdown (c : Cmd) (s : State) : State :=
  let vf := kmap (fun _ v => if v.st = .serving then { v with st := .draining } else v) s.ten.vf
  { s with boot := { s.boot with shutdown := s.boot.shutdown ++ [(c.fn, c.queue, c.desc.tag)] }, ten := { s.ten with vf := vf } }

/-- Nothing of any function is in flight. -/
def allDrained (s : State) : Bool :=
  s.gth.held == [] && s.gth.jobs == [] && s.gth.batches == [] && s.aut.mailbox == [] && s.aut.wait.isNone
    && s.aut.busy.isNone && s.rng.ports == [] && s.rng.rawReads == [] && s.prk.shares == []
    && s.ldg.parts.all (fun p => p.2.queue == [] && p.2.running.isNone) && s.gth.ideHeld == []
    && !s.ten.vf.any (fun e => e.2.flrBusy)

/-- SHUTDOWN_DRAINED: the ring is flushed, PHASE is SHUT, the completion is released. -/
def execShutdownDrained (s : State) : Host.Outcome State Fault Refusal :=
  answer s (if s.boot.shutdown = [] ∨ !allDrained s then s
    else
      let s1 := (List.range 1023).foldl (fun s n => if (getVf s (n + 1)).st = .draining then quiesceEnd s (n + 1) else s) s
      let s2 := flushAll (record s1 0x0E05 s1.boot.resetCause sevNotice none (payState 3 4 0 0 0))
      let s3 := { s2 with boot := { s2.boot with phase := .shut, shutdown := [] } }
      s.boot.shutdown.foldl (fun s x => complete s x.1 x.2.1 x.2.2 0 0 0 0) s3)

/-- PWR_GOOD_FALL (R485): `long` when the pulse lasts 2 µs or more. The part stops, every SRAM is scrubbed, and the peat
domain moves to VBAT; below 2.2 V that quenches (R412). -/
def execPwrGoodFall (long : Bool) (vbat : Nat) (s : State) : Host.Outcome State Fault Refusal :=
  answer s (if !s.boot.pwrGood || !long then s
    else
      let s1 := blocksStart { s with evt := { s.evt with ring := [] } } true false
      let s2 := { s1 with
        gth := gthReset, peat := { s1.peat with main := false, vbat := vbat, cellLow := false },
        dbg := { dbgReset with suspending := s.dbg.suspending, isOpen := s.dbg.isOpen },
        tmp := { s1.tmp with quench := none, halted := false },
        boot := { s1.boot with pwrGood := false, start := none, held := false, phase := .rom } }
      if serving s2 && s2.peat.latch.isNone && decide (vbat < 2200) then cellQuench s2 2 0 0 else s2)

end Sys2Proof.Machine
end

