-- ==== Sys2Proof/Machine/CipherResults.lean ====
section
/-! DEFINITION. Cipher and digest jobs: modes, work, lengths, streams and results (09_cipher_digest_payment.md R249 to
R264; 05_key_store.md R141, R142). -/

namespace Sys2Proof.Machine

def selMode (c : Cmd) : Nat := c.desc.select % 256
def selTlen (c : Cmd) : Nat := c.desc.select / 256 % 128
def selDir (c : Cmd) : Bool := c.desc.select.testBit 15

def mdGcm : Nat := 0x01
def mdCbc : Nat := 0x02
def mdCtr : Nat := 0x03
def mdCmac : Nat := 0x04
def mdTcbc : Nat := 0x11
def mdTcmac : Nat := 0x12
def mdRmac : Nat := 0x13

/-- Block size of a mode. -/
def modeBlock (m : Nat) : Nat := if 0x10 ≤ m then 8 else 16

/-- Modes of an opcode, and the algorithms of a mode (R252). -/
def symModeOf (op m : Nat) : Bool :=
  if op = 0x3001 ∨ op = 0x3002 ∨ op = 0x3003 then m == 1 || m == 2 || m == 3 || m == 0x11
  else if op = 0x3004 ∨ op = 0x3005 then m == 4 || m == 0x12 || m == 0x13
  else false
def modeAlg (m alg : Nat) : Bool :=
  if m = 0x13 then alg == 0x0111 else if 0x10 ≤ m then isTdea alg else isAes alg

/-- Does a command encrypt? -/
def encrypts (c : Cmd) : Bool := c.desc.opcode == 0x3001 || (c.desc.opcode == 0x3003 && !selDir c)

/-- Bytes that lead a ciphertext: nonce, IV or counter block. -/
def prefixLen (m : Nat) : Nat := if m = 1 then 12 else modeBlock m
def tagLen (m : Nat) : Nat := if m = 1 then 16 else 0

def blockEnc (alg : Nat) (key blk : Bytes) : Bytes := if isTdea alg then tdeaEnc key blk else aesEnc key blk
def blockDec (alg : Nat) (key blk : Bytes) : Bytes := if isTdea alg then tdeaDec key blk else aesDec key blk

/-! Digests (R262, R263) -/

/-- Digest parameter sets: output size, 0 for the XOFs, none when undefined. -/
def digestOut (ps : Nat) : Option Nat := match ps with
  | 0x01 => some 32 | 0x02 => some 48 | 0x03 => some 64 | 0x04 => some 32 | 0x11 => some 32 | 0x12 => some 48
  | 0x13 => some 64 | 0x21 => some 0 | 0x22 => some 0 | _ => none

/-- Block or rate of a digest. -/
def digestBlock (ps : Nat) : Nat := match ps with
  | 0x01 => 64 | 0x02 => 128 | 0x03 => 128 | 0x04 => 128 | 0x11 => 136 | 0x12 => 104 | 0x13 => 72 | 0x21 => 168 | _ => 136
def digestKeccak (ps : Nat) : Bool := decide (0x11 ≤ ps)

/-- SHA-512/256 of FIPS 180-4. -/
def h512_256 : List Nat :=
  [0x22312194FC2BF72C, 0x9F555FA3C84C64C2, 0x2393B86B6F53B151, 0x963877195940EABD, 0x96283EE2A88EFFE3, 0xBE5E1E2553863992,
   0x2B0199FC2C85B8AA, 0x0EB72DDC81C52CA2]

def digestOf (ps : Nat) (m : Bytes) (out : Nat) : Bytes := match ps with
  | 0x01 => sha256 m
  | 0x02 => sha384 m
  | 0x03 => sha512 m
  | 0x04 => sha2 rot512 k512 h512_256 m 32
  | 0x11 => sha3_256 m
  | 0x12 => sha3_384 m
  | 0x13 => sha3_512 m
  | 0x21 => shake128 m out
  | _ => shake256 m out

/-! MAC parameter sets (R262, R263): SELECT bits [14:8] are both the high byte of a set's code and TLEN. The values 1 and
2, which no TLEN takes, are read as the code written out, with the default length; any other value is TLEN, and the set is
told by bits [7:0] and the algorithm of the key. -/

/-- The HMAC or KMAC code of a command under a key of an algorithm, and its TLEN (0: the default output). -/
def macCode (c : Cmd) (alg : Nat) : Nat × Nat :=
  let lo := c.desc.select % 256
  let h := selTlen c
  if h = 1 ∨ h = 2 then (256 * h + lo, 0) else ((if alg = 0x0122 then 0x0200 else 0x0100) + lo, h)

def macSets : List Nat := [0x0101, 0x0102, 0x0103, 0x0111, 0x0201, 0x0202]

/-- Default output of a MAC set. -/
def macSize (code : Nat) : Nat := match code with
  | 0x0101 => 32 | 0x0102 => 48 | 0x0103 => 64 | 0x0111 => 32 | 0x0201 => 32 | 0x0202 => 64 | _ => 0

/-- The hash of an HMAC set as a digest set; KMAC sets have rates of their own. -/
def macHash (code : Nat) : Nat := code % 256
def macBlock (code : Nat) : Nat := match code with
  | 0x0201 => 168 | 0x0202 => 136 | _ => digestBlock (macHash code)
def isKmacSet (code : Nat) : Bool := code == 0x0201 || code == 0x0202

/-- The set, TLEN and the key's algorithm fit together (R263). -/
def macSetOk (c : Cmd) (alg : Nat) : Bool :=
  let m := macCode c alg
  macSets.contains m.1 && !selDir c && (isKmacSet m.1 == (alg == 0x0122)) && isMacAlg alg
    && (m.2 == 0 || decide (4 ≤ m.2 ∧ m.2 ≤ (if isKmacSet m.1 then 64 else macSize m.1)))

/-- Bytes of a MAC. -/
def digestMacLen (c : Cmd) (alg : Nat) : Nat :=
  let m := macCode c alg
  if m.2 = 0 then macSize m.1 else m.2
def symMacLen (c : Cmd) : Nat := if selTlen c = 0 then modeBlock (selMode c) else selTlen c

/-- MODE, TLEN and DIR suit the opcode and the key (check 4, R252). -/
def symSetOk (c : Cmd) (alg : Nat) : Bool :=
  let op := c.desc.opcode
  let m := selMode c
  let mac := op == 0x3004 || op == 0x3005
  symModeOf op m && modeAlg m alg && (mac || selTlen c == 0) && (op == 0x3003 || !selDir c)
    && (!mac || selTlen c == 0 || decide (4 ≤ selTlen c ∧ selTlen c ≤ modeBlock m))

/-! Segments -/

def segFirst (c : Cmd) : Bool := !isStream c.desc.opcode || c.desc.flags.testBit 6
/-- DIGEST_FINAL implies SEG_LAST. -/
def segLast (c : Cmd) : Bool := !isStream c.desc.opcode || c.desc.flags.testBit 7 || c.desc.opcode == 0x4003

/-- Bytes that come before the text, and after it, in an input: the prefix and tag of a decryption. -/
def inHead (c : Cmd) : Nat := if !encrypts c && segFirst c then prefixLen (selMode c) else 0
def inTail (c : Cmd) : Nat := if !encrypts c && segLast c then tagLen (selMode c) else 0

/-- A first GCM segment of a stream carries additional data alone. -/
def aadSegment (c : Cmd) : Bool := isStream c.desc.opcode && segFirst c && selMode c == mdGcm

/-- Check 2 on a cipher or digest opcode: none, or the detail of LENGTH_INVALID. `inp` and `aux` are the lengths of the item
(R253, R256, R262). The lengths that depend on a key are tested once it is known. -/
def cipherLens (c : Cmd) (inp aux : Nat) : Option Nat :=
  let op := c.desc.opcode
  let m := selMode c
  if op = 0x1006 then (if inp = 0 then none else some 0)
  else if op = 0x3001 ∨ op = 0x3002 ∨ op = 0x3003 then
    if !symModeOf op m then none
    else if m = mdGcm ∧ op ≠ 0x3003 ∧ 2 ^ 24 < aux then some 0
    else if (m ≠ mdGcm ∨ op = 0x3003) ∧ aux ≠ 0 then some 0
    else if !segLast c ∧ inp % modeBlock m ≠ 0 then some 0x01A1
    else if inp < inHead c + inTail c then some 0x01A0
    else if (m = mdCbc ∨ m = mdTcbc) ∧ (inp - inHead c) % modeBlock m ≠ 0 then some 0x01A0
    else none
  else if op = 0x3004 then (if aux = 0 then none else some 0)
  else if op = 0x3005 then
    if symModeOf op m ∧ aux ≠ symMacLen c then some 0x01A6 else none
  else
    let ps := c.desc.select % 65536
    if op = 0x4001 ∨ op = 0x4002 ∨ op = 0x4003 then
      match digestOut ps with
      | none => none
      | some n =>
          if aux ≠ 0 then some 0
          else if n = 0 ∧ op ≠ 0x4002 ∧ ¬ (1 ≤ c.desc.outLen ∧ c.desc.outLen ≤ 65536) then some 0
          else if !segLast c ∧ inp % digestBlock ps ≠ 0 then some 0x01A1
          else none
    else if op = 0x4004 ∧ aux ≠ 0 then some 0
    else none

/-! Work and figures (R250) -/

/-- Cost of a core invocation: kind of core, secret, profile. -/
def coreCost (keccak wide secret : Bool) (p : Nat) : Nat :=
  if keccak then (if secret then 26 * (p + 1) else 26)
  else if wide then (if secret then 82 + 6 * p else 82)
  else if secret then 66 + 6 * p else 66

/-- Padding bytes a hash needs at least. -/
def padMin (ps : Nat) : Nat := if digestKeccak ps then 1 else if ps = 0x01 then 9 else 17

def digestCost (ps b : Nat) (secret : Bool) (p : Nat) : Nat :=
  b * coreCost (digestKeccak ps) (ps != 0x01) secret p * (if digestKeccak ps then 4 else 8)

/-- Invocations of a digest segment: whole blocks, then padding and the squeezes of an XOF. -/
def digestBlocks (ps n out : Nat) (last : Bool) : Nat :=
  let b := digestBlock ps
  if last then ceilDiv (n + padMin ps) b + (if digestKeccak ps then ceilDiv out b - 1 else 0) else n / b

/-- HMAC: the hash of a long key, the inner hash, the outer one. -/
def hmacBlocks (ps key n full : Nat) : Nat :=
  let b := digestBlock ps
  (if b < key then ceilDiv (key + padMin ps) b else 0) + ceilDiv (b + n + padMin ps) b + ceilDiv (b + full + padMin ps) b

/-- Bytes of left_encode. -/
def leftLen (v : Nat) : Nat := 1 + byteLen v

/-- KMAC: the prefix blocks, before the key, are public. The length of S is not in the descriptor: the dearest split. -/
def kmacCost (code key n tlen p : Nat) : Nat :=
  let rate := macBlock code
  let k := leftLen (8 * key) + key + 2
  (List.range (min 255 (n - 2) + 1)).foldl (fun best v =>
    let pre := ceilDiv (2 + 6 + leftLen (8 * v) + v) rate
    let msg := ceilDiv (n - 2 - v + leftLen (8 * tlen) + 1) rate
    max best ((pre * 26 + (ceilDiv k rate + msg) * (26 * (p + 1))) * 4)) 0

/-- W of a cipher or digest job: `inp` and `aux` the lengths of the item, the key's attributes, the profile. -/
def cipherWork (c : Cmd) (inp aux : Nat) (key : Option Attr) (p : Nat) : Nat :=
  let op := c.desc.opcode
  let m := selMode c
  let alg := (key.map (fun a => a.alg)).getD 0
  let len := (key.map (fun a => a.len)).getD 0
  let cc := aesCost alg
  let body := inp - inHead c - inTail c
  if op = 0x1001 ∨ op = 0x1002 then
    -- the blob of KEY_LOAD, or of the key KEY_SAVE names: AES-256-GCM over the material, the block as additional data
    let n := if op = 0x1001 then inp - 92 else len
    ceilDiv n 16 * 358 + 4 * 8 + 350 + 358
  else if op = 0x1006 then (if isTdea alg then 400 else 2 * cc)
  else if op = 0x3001 ∨ op = 0x3002 ∨ op = 0x3003 then
    if m = mdGcm then
      let t := if aadSegment c then 0 else ceilDiv body 16
      let a := if aadSegment c then ceilDiv body 16 else ceilDiv aux 16
      t * (cc + 8) + a * 8 + (if segFirst c then cc else 0) + (if segLast c then cc + 8 else 0)
    else if m = mdTcbc then ceilDiv body 8 * 400
    else ceilDiv body 16 * cc
  else if op = 0x3004 ∨ op = 0x3005 then
    if m = mdRmac then (ceilDiv inp 8 + 2) * 400
    else if m = mdTcmac then (ceilDiv inp 8 + 1) * 400
    else (max 1 (ceilDiv inp 16) + 1) * cc
  else if op = 0x4004 ∨ op = 0x4005 then
    let x := macCode c alg
    if isKmacSet x.1 then kmacCost x.1 len inp (digestMacLen c alg) p
    else digestCost (macHash x.1) (hmacBlocks (macHash x.1) len inp (macSize x.1)) true p
  else
    let ps := c.desc.select % 65536
    let out := if (digestOut ps).getD 0 = 0 then c.desc.outLen else (digestOut ps).getD 0
    digestCost ps (digestBlocks ps inp (if op = 0x4002 then 0 else out) (segLast c)) false p

/-- Block size that pieces are counted in. -/
def pieceBlock (c : Cmd) (alg : Nat) : Nat :=
  let op := c.desc.opcode
  if op / 4096 = 1 then 16
  else if op / 4096 = 3 then modeBlock (selMode c)
  else if op = 0x4004 ∨ op = 0x4005 then macBlock (macCode c alg).1
  else digestBlock (c.desc.select % 65536)

/-- Bytes of a piece, and the pieces of an input. -/
def pieceSize (c : Cmd) (alg : Nat) : Nat := 4096 / pieceBlock c alg * pieceBlock c alg
def cipherPieces (c : Cmd) (alg inp : Nat) : Nat := pieces inp (pieceBlock c alg)

/-- f of R250. -/
def cipherFactor (c : Cmd) (p : Nat) : Nat := if c.desc.opcode / 4096 = 4 then 1 else p + 1

/-- The allotment of a cipher job. -/
def cipherFig (c : Cmd) (inp aux : Nat) (key : Option Attr) (p : Nat) : Figures :=
  gridFig (cipherAllot (cipherWork c inp aux key p) (cipherFactor c p)
    (cipherPieces c ((key.map (fun a => a.alg)).getD 0) inp))

/-- Bytes a cipher job writes when it succeeds. -/
def cipherOutLen (c : Cmd) (inp : Nat) (key : Option Attr) : Nat :=
  let op := c.desc.opcode
  let m := selMode c
  let alg := (key.map (fun a => a.alg)).getD 0
  if op = 0x1006 then 4
  else if op = 0x3001 ∨ op = 0x3002 ∨ op = 0x3003 then
    let body := if aadSegment c then 0 else inp - inHead c - inTail c
    if encrypts c then (if segFirst c then prefixLen m else 0) + body + (if segLast c then tagLen m else 0) else body
  else if op = 0x3004 then symMacLen c
  else if op = 0x4004 then digestMacLen c alg
  else if op = 0x4001 ∨ op = 0x4003 then
    let n := (digestOut (c.desc.select % 65536)).getD 0
    if n = 0 then c.desc.outLen else n
  else 0

/-- SYM and DIGEST output of more than 64 KiB is not staged (R91). -/
def unstaged (c : Cmd) (inp : Nat) (key : Option Attr) : Bool :=
  (c.desc.opcode / 4096 == 3 || c.desc.opcode / 4096 == 4) && decide (65536 < cipherOutLen c inp key)

/-- It is written as produced, but for the plaintext of a GCM stream's last segment, which is written when the tag has
matched (R91, R259). -/
def cipherDirect (c : Cmd) (inp : Nat) (key : Option Attr) : Bool :=
  let held := c.desc.opcode == 0x3003 && selMode c == mdGcm && !encrypts c && segLast c
  unstaged c inp key && !held

/-! Results -/

/-- A command builds a nonce or IV at its start (R254). -/
def buildsNonce (c : Cmd) : Bool :=
  encrypts c && segFirst c && (c.desc.opcode == 0x3001 || c.desc.opcode == 0x3003)
def nonceLen (m : Nat) : Nat := if m = mdGcm ∨ m = mdCtr then 12 else modeBlock m
/-- The value built of the feed's bytes. -/
def nonceOf (m : Nat) (b : Bytes) : Bytes := if m = mdCtr then b ++ [0, 0, 0, 1] else b

/-- A whole text enciphered or deciphered from a nonce, IV or counter block. -/
def symText (m : Nat) (enc : Bool) (alg : Nat) (key iv text : Bytes) : Bytes :=
  let f := blockEnc alg key
  if m = mdGcm then gcmCtr f iv text
  else if m = mdCtr then xorBytes text (ctrStream f (ceilDiv text.length 16) iv)
  else if enc then cbcEnc f (modeBlock m) (text.length / modeBlock m) iv text
  else cbcDec (blockDec alg key) (modeBlock m) (text.length / modeBlock m) iv text

/-- A stream that a command opens, before anything has come; a one-shot command starts from it. -/
def streamNew (c : Cmd) : Stream :=
    { fn := c.fn, number := streamNo c, ident := 0, queue := c.queue, opcode := c.desc.opcode, paramSet := c.desc.select % 65536,
      keyA := c.desc.keyA, declared := none, total := 0, processed := 0, text := 0, context := [], aad := [], nonce := [], busy := 0,
      ended := false }

/-- A segment or one-shot command of the text modes, from the stream before it: the stream after it, and its end. -/
def textSegment (x : Stream) (j : Job) (aux inp : Bytes) : Stream × JobEnd :=
  let c := j.cmd
  let m := selMode c
  let alg := (j.attrA.map (fun a => a.alg)).getD 0
  let enc := encrypts c
  let body := (inp.drop (inHead c)).take (inp.length - inHead c - inTail c)
  let tag := inp.drop (inp.length - inTail c)
  let iv := if segFirst c then (if enc then nonceOf m j.matB else inp.take (inHead c)) else x.nonce
  let aad := if aadSegment c then body else if segFirst c then aux else x.aad
  let text := if aadSegment c then [] else body
  let prior := if segFirst c then [] else x.context
  let all := prior ++ text
  let res := symText m enc alg j.matA iv all
  let out := (if enc && segFirst c then iv else []) ++ res.drop prior.length
  let mac := if m = mdGcm ∧ segLast c then gcmTag (blockEnc alg j.matA) iv aad (if enc then res else all) else []
  let y := { x with context := all, aad := aad, nonce := iv }
  if m = mdGcm && segLast c && !enc then
    if mac = tag then (y, okEnd out) else (y, { failEnd stMac 0x01A5 with out := if j.direct then out else [] })
  else (y, okEnd (out ++ (if segLast c then mac else [])))

/-- A digest segment. -/
def digestSegment (x : Stream) (j : Job) (inp : Bytes) : Stream × JobEnd :=
  let c := j.cmd
  let ps := c.desc.select % 65536
  let all := (if segFirst c then [] else x.context) ++ inp
  ({ x with context := all }, okEnd (if c.desc.opcode = 0x4002 then [] else digestOf ps all c.desc.outLen))

/-- A MAC made or compared (R264). -/
def macEnd (verify : Bool) (mac expected : Bytes) : JobEnd :=
  if !verify then okEnd mac else if mac = expected then matchEnd [] else missEnd stMac 0x01A5 false

def symMac (m alg : Nat) (key msg : Bytes) : Bytes :=
  if m = mdRmac then retailMac key (padMethod2 8 msg) else cmac (blockEnc alg key) (modeBlock m) msg

def symMacResult (j : Job) (aux inp : Bytes) : JobEnd :=
  let alg := (j.attrA.map (fun a => a.alg)).getD 0
  if j.cmd.desc.opcode = 0x3005 ∧ aux.length ≠ symMacLen j.cmd then itemForm j
  else macEnd (j.cmd.desc.opcode == 0x3005) ((symMac (selMode j.cmd) alg j.matA inp).take (symMacLen j.cmd)) aux

/-- HMAC and KMAC of a MAC set. -/
def digestMac (code : Nat) (key msg cust : Bytes) (n : Nat) : Bytes := match code with
  | 0x0201 => kmac128 key msg cust n
  | 0x0202 => kmac256 key msg cust n
  | _ => (hmac (fun x => digestOf (macHash code) x 0) (macBlock code) key msg).take n

def digestMacResult (j : Job) (aux inp : Bytes) : JobEnd :=
  let alg := (j.attrA.map (fun a => a.alg)).getD 0
  let code := (macCode j.cmd alg).1
  let n := digestMacLen j.cmd alg
  let verify := j.cmd.desc.opcode == 0x4005
  let sl := leAt inp 0 2
  if verify ∧ aux.length ≠ n then itemForm j
  else if isKmacSet code then
    if inp.length < 2 ∨ inp.length - 2 < sl then
      (if verify then missEnd stMac 0x01AC false else failEnd stParam 0x01AC)
    else macEnd verify (digestMac code j.matA (inp.drop (2 + sl)) ((inp.drop 2).take sl) n) aux
  else macEnd verify (digestMac code j.matA inp [] n) aux

/-- KEY_CHECK_VALUE: the check value of R114, then a zero byte (R251). -/
def kcvResult (j : Job) : JobEnd := okEnd (leBytes 3 (kcvOf ((j.attrA.map (fun a => a.alg)).getD 0) j.matA) ++ [0])

/-- KEY_LOAD under the BLOB key of the tenant (R142). -/
def keyLoadResult (s : State) (j : Job) : State × JobEnd :=
  let c := j.cmd
  match loadBlob s 0x01 (tenantOf s c.fn) (c.desc.select.testBit 16) c.input with
  | .error e =>
      (blobRejected s (tenantOf s c.fn) (attrParse c.input).handle, failEnd e.1 e.2)
  | .ok (s1, h) => (s1, okEnd (leBytes 4 h))

/-- KEY_SAVE without COLD: the object as a blob. -/
def keySaveResult (s : State) (j : Job) : State × JobEnd :=
  match j.attrA with
  | none => (s, failEnd stNotFound 0)
  | some a =>
      let d := genDraw s 12
      (d.2, okEnd (blobSeal (storageKey s 0x01 a.tenant) d.1 a j.matA))

/-- The total of a stream disagrees with its declaration (R82). -/
def totalWrong (x : Stream) (c : Cmd) (n : Nat) : Bool := match x.declared with
  | none => false
  | some d => decide (d < x.processed + n) || (segLast c && x.processed + n != d)

/-- What a cipher job ends with; the context of its stream follows. -/
def cipherResult (s : State) (j : Job) : State × JobEnd :=
  let c := j.cmd
  let op := c.desc.opcode
  if op = 0x1001 then keyLoadResult s j
  else if op = 0x1002 then keySaveResult s j
  else if op = 0x1006 then (s, kcvResult j)
  else match itemParts j with
  | none => (s, itemForm j)
  | some (aux, inp) =>
      if op = 0x3004 ∨ op = 0x3005 then (s, symMacResult j aux inp)
      else if op = 0x4004 ∨ op = 0x4005 then (s, digestMacResult j aux inp)
      else
        let x := (liveStream s j).getD (streamNew c)
        if isStream op && (liveStream s j).isNone then (s, failEnd stParam 0x0027)
        else if isStream op && totalWrong x c inp.length then (s, failEnd stMismatch 0)
        else
          let r := if op / 4096 = 3 then textSegment x j aux inp else digestSegment x j inp
          let y := { r.1 with processed := x.processed + inp.length }
          (if isStream op then putStream s y else s, r.2)

end Sys2Proof.Machine
end

