-- ==== Sys2Proof/Machine/Accept.lean ====
section
/-! DEFINITION. The acceptance checks of a command (01_organisation.md R18; 03_gatehouse.md R73 to R88) and the plan of its
job: profile, release class, program, figures (02_sundial.md R41; 06 R178; 08 R222 to R225; 09 R249 to R273; 10 R277 to
R292). -/

namespace Sys2Proof.Machine

/-! The opcode table (R88) -/

inductive Release where
  | general | immediate | critical
deriving DecidableEq, Repr

/-- A row of R88: the opcode, whether only the PF may send it, whether it has a batch form. The release column follows from
the opcode: bit 4 is set exactly for critical opcodes. -/
structure OpRow where
  op : Nat
  pfOnly : Bool
  rel : Release
  batch : Bool
deriving DecidableEq, Repr

def rowI (op : Nat) (pf : Bool) : OpRow := { op := op, pfOnly := pf, rel := .immediate, batch := false }
def rowC (op : Nat) (pf : Bool) : OpRow := { op := op, pfOnly := pf, rel := .critical, batch := false }
def rowG (op : Nat) (batch : Bool) : OpRow := { op := op, pfOnly := false, rel := .general, batch := batch }

def opTableI : List OpRow :=
  [rowI 0x0001 false, rowI 0x0002 false, rowI 0x0003 false, rowI 0x0004 false, rowI 0x0005 true, rowI 0x0006 true,
   rowI 0x0007 true, rowI 0x1003 false, rowI 0x1005 false, rowI 0x2002 false, rowI 0x4006 false, rowI 0x4007 true,
   rowI 0x6001 false, rowI 0x6002 true, rowI 0x7001 false, rowI 0x7002 false, rowI 0x8001 false, rowI 0x9001 true,
   rowI 0x9002 true, rowI 0x9003 true, rowI 0xA001 false, rowI 0xB001 false, rowI 0xC001 false, rowI 0xC002 true]

def opTableC : List OpRow :=
  [rowC 0x0010 true, rowC 0x0011 true, rowC 0x0012 true, rowC 0x0013 false, rowC 0x0014 false, rowC 0x0015 false,
   rowC 0x0016 true, rowC 0x0017 true, rowC 0x0018 true, rowC 0x1010 false, rowC 0x1011 false, rowC 0x1012 false,
   rowC 0x1013 false, rowC 0x1014 false, rowC 0x1015 true, rowC 0x1016 false, rowC 0x6010 true, rowC 0x6011 true,
   rowC 0x7010 true, rowC 0x7011 false, rowC 0x7012 false, rowC 0x8010 true, rowC 0x8011 true, rowC 0x8012 true,
   rowC 0x8013 true, rowC 0x8014 true, rowC 0x9010 true, rowC 0x9011 true, rowC 0x9012 true, rowC 0x9013 true,
   rowC 0x9014 true, rowC 0x9015 true, rowC 0x9016 true, rowC 0xA010 true, rowC 0xA011 true, rowC 0xA012 true,
   rowC 0xA013 true, rowC 0xA014 true, rowC 0xB010 true]

def opTableG : List OpRow :=
  [rowG 0x1001 false, rowG 0x1002 false, rowG 0x1004 true, rowG 0x1006 false, rowG 0x2001 true, rowG 0x3001 true,
   rowG 0x3002 true, rowG 0x3003 false, rowG 0x3004 true, rowG 0x3005 true, rowG 0x3006 true, rowG 0x3007 true,
   rowG 0x3008 true, rowG 0x3009 true, rowG 0x300A true, rowG 0x4001 true, rowG 0x4002 false, rowG 0x4003 false,
   rowG 0x4004 true, rowG 0x4005 true, rowG 0x5001 true, rowG 0x5002 true, rowG 0x5003 true, rowG 0x5004 true,
   rowG 0x5005 true, rowG 0x5006 true, rowG 0x5007 true]

def opTable : List OpRow := opTableI ++ opTableC ++ opTableG

def opRow (op : Nat) : Option OpRow := opTable.find? (fun r => r.op == op)
def opRel (op : Nat) : Option Release := (opRow op).map (fun r => r.rel)
def isCritical (op : Nat) : Bool := opRel op == some .critical

/-! Descriptor fields -/

def flSgl (c : Cmd) : Bool := c.desc.flags.testBit 0
def flOutSgl (c : Cmd) : Bool := c.desc.flags.testBit 1
def flFence (c : Cmd) : Bool := c.desc.flags.testBit 2
def flBatch (c : Cmd) : Bool := c.desc.flags.testBit 3
def flSpread (c : Cmd) : Bool := c.desc.flags.testBit 4
def flRetry (c : Cmd) : Bool := c.desc.flags.testBit 5
def flSegs (c : Cmd) : Bool := c.desc.flags.testBit 6 || c.desc.flags.testBit 7

/-- Items of a command: the count of a batch, else one. -/
def items (c : Cmd) : Nat := if flBatch c then c.desc.auxLen else 1
/-- The auxiliary length of a single form; a batch has none. -/
def auxOf (c : Cmd) : Nat := if flBatch c then 0 else c.desc.auxLen

/-- KEY_SAVE with COLD (R449): a cipher job for the keeper world, of no release class. -/
def coldSave (c : Cmd) : Bool := c.desc.opcode == 0x1002 && c.desc.select.testBit 17

/-- The release column as the command takes it. -/
def releaseCol (c : Cmd) : Release := if coldSave c then .immediate else (opRel c.desc.opcode).getD .immediate

def descProfile (c : Cmd) : Nat := c.desc.cls % 4
def descRelease (c : Cmd) : Nat := c.desc.cls / 4 % 4

/-- A library algorithm under a PK opcode, or a classical one (R221, R277). -/
def pkClassical (c : Cmd) : Bool := isClassical (selAlg c)

/-! Check 1: form -/

/-- What a key position of an opcode takes: no key, or a key with one of the usages (none listed: any). -/
inductive Need where
  | absent
  | optional (usages : List Nat)
  | required (usages : List Nat)
deriving DecidableEq, Repr

def keyNeed (u : Nat) : Need := .required [u]

/-- A manifest's KEY entry as a need. -/
def entryNeed (k : KeyEntry) : Need := if k.usage = 0 then .absent else .required [k.usage]

/-- A program that RUN_PROGRAM may name and that is loaded: no library operation 0 to 5, nor a combiner (R222). -/
def runProgram (s : State) (id : Nat) : Option Program :=
  if id / 2 ^ 24 = 2 ∧ !libRun id then none else (kfind s.lib.programs id).filter (fun p => !p.removed)

/-- The needs of KEY_A and KEY_B (R76, R128). -/
def keyNeeds (s : State) (c : Cmd) : Need × Need :=
  let dukpt := if selDukpt c then keyNeed usDukpt else keyNeed usPinIn
  match c.desc.opcode with
  | 0x1002 => (.required [], .absent)
  | 0x1003 => (.required [], .absent)
  | 0x1004 => if c.desc.select % 65536 = 0x0D01 then (keyNeed usDukpt, .absent) else (keyNeed usDerive, keyNeed usDerive)
  | 0x1005 => (.required [], .absent)
  | 0x1006 => (.required [], .absent)
  | 0x1011 => (.absent, keyNeed usUnwrap)
  | 0x1012 => (.required [], keyNeed usWrap)
  | 0x1013 => (.required [], .absent)
  | 0x1014 => (.required [], .absent)
  | 0x1016 => (.optional [], .absent)
  | 0x2001 => (match runProgram s c.desc.select with
      | some p => (entryNeed p.man.key0, entryNeed p.man.key1)
      | none => if libRun c.desc.select then (keyNeed usSign, .absent) else (.optional [], .optional []))
  | 0x3001 => (keyNeed usEncrypt, .absent)
  | 0x3002 => (keyNeed usDecrypt, .absent)
  | 0x3003 => (keyNeed (if selDir c then usDecrypt else usEncrypt), .absent)
  | 0x3004 => (keyNeed usMacGen, .absent)
  | 0x3005 => (keyNeed usMacVerify, .absent)
  | 0x3006 => (dukpt, keyNeed usPinOut)
  | 0x3007 => (dukpt, .absent)
  | 0x3008 => (keyNeed usCard, .absent)
  | 0x3009 => (keyNeed usCard, .absent)
  | 0x300A => (keyNeed usCard, .absent)
  | 0x4004 => (keyNeed usMacGen, .absent)
  | 0x4005 => (keyNeed usMacVerify, .absent)
  | 0x5001 => (keyNeed usSign, .absent)
  | 0x5002 => (.optional [usVerify], .absent)
  | 0x5003 => (.optional [usEncaps], .absent)
  | 0x5004 => (keyNeed usDecaps, .absent)
  | 0x5005 => (keyNeed usDerive, .absent)
  | 0x5006 => (keyNeed usEncrypt, .absent)
  | 0x5007 => (keyNeed usDecrypt, .absent)
  | 0x9015 => (.absent, keyNeed usWrap)
  | 0x9016 => (.absent, keyNeed usUnwrap)
  | _ => (.absent, .absent)

/-- Opcodes that define no parameter set: SELECT bits [15:0] are zero. -/
def noParams : List Nat :=
  [0x0001, 0x0002, 0x0003, 0x0007, 0x0010, 0x0011, 0x0013, 0x0016, 0x1001, 0x1002, 0x1005, 0x1006, 0x1013, 0x1014, 0x6010,
   0x6011, 0x7001, 0x7002, 0x7010, 0x7011, 0x7012, 0x8001, 0x8010, 0x8011, 0x8012, 0x8013, 0x8014, 0x9010, 0x9011, 0x9014,
   0xA001, 0xA010, 0xA011, 0xA012, 0xA013, 0xA014, 0xB001, 0xB010, 0xC002]

/-- Opcodes whose SELECT names a VF in bits [9:0] (R355). -/
def vfSelects : List Nat := [0x9001, 0x9002, 0x9003, 0x9012, 0x9013, 0x9015, 0x9016]

/-- The parameter set of a PK opcode (R223, R278). -/
def pkSelectOk (op sel : Nat) : Bool :=
  let alg := sel % 4096
  let mid := sel / 4096 % 4
  let opt := sel.testBit 14
  let signs := op == 0x5001 || op == 0x5002
  if sel.testBit 15 || mid == 3 then false
  else if isClassical alg then
    (if signs then isRsa alg || isEcdsa alg || isEddsa alg
      else if op = 0x5005 then isEcdsa alg || isXdh alg
      else (op == 0x5006 || op == 0x5007) && isRsa alg)
    && (mid == 0 || (op != 0x5005 && (isRsa alg || isEcdsa alg)))
    && (!opt || (op == 0x5001 && (isEcdsa alg || isRsa alg)) || (op == 0x5002 && isRsa alg) || op == 0x5005)
  else
    ((signs && (isMldsa alg || isSlhdsa alg || isStateful alg || alg == 0x0241))
      || ((op == 0x5003 || op == 0x5004) && (isKem alg || isMceliece alg)))
    && (mid == 0 || (signs && (isMldsa alg || isSlhdsa alg)))
    && (!opt || (op == 0x5001 && (isMldsa alg || isSlhdsa alg)) || op == 0x5003 || op == 0x5004)

/-- PIN formats of R268: a defined one, and a permitted pair. -/
def pinFormat (f : Nat) : Bool := f == 0 || f == 1 || f == 3 || f == 4
def pinPair (i o : Nat) : Bool :=
  match i, o with
  | 0, 0 => true | 0, 3 => true | 0, 4 => true | 1, 1 => true | 1, 4 => true | 3, 0 => true | 3, 3 => true | 3, 4 => true
  | 4, 4 => true | _, _ => false

/-- The formats, and DUKPT_IN, as check 4 asks for them. -/
def pinFormatsOk (c : Cmd) : Bool :=
  pinFormat (selInFmt c) && (c.desc.opcode == 0x3007 || pinFormat (selOutFmt c)) && (!selDukpt c || selInFmt c == 4)

/-- Check 1: reserved bits (OUT_FMT among them where nothing is translated), and a forbidden pair of formats. -/
def pinSelectBad (c : Cmd) : Option Nat :=
  let fi := selInFmt c
  let fo := selOutFmt c
  if c.desc.select % 65536 / 512 ≠ 0 then some dReserved
  else if c.desc.opcode = 0x3007 then (if fo = 0 then none else some dReserved)
  else if pinFormat fi && pinFormat fo && !pinPair fi fo then some 0x01A7
  else none

/-- SELECT (R77): the detail of PARAM_INVALID, if any. -/
def selectBad (c : Cmd) : Option Nat :=
  let op := c.desc.opcode
  let lo := c.desc.select % 65536
  let hi := c.desc.select / 65536
  let hiBad :=
    if op = 0x2001 ∨ op = 0x2002 ∨ op = 0x0014 ∨ isStream op then false
    else if op = 0x1010 ∨ op = 0x1001 then decide (1 < hi)
    else if op = 0x1002 then hi != 0 && hi != 2
    else hi != 0
  if hiBad then some dReserved
  else if noParams.contains op then (if lo = 0 then none else some dParamSet)
  else if vfSelects.contains op then (if lo < 1024 then none else some dReserved)
  else if decide (0x5001 ≤ op ∧ op ≤ 0x5007) then (if pkSelectOk op lo then none else some dParamSet)
  else match op with
    | 0x0012 => if lo ≤ 2 then none else some dParamSet
    | 0x0015 => if lo = 1 ∨ lo = 2 then none else some dParamSet
    | 0x0018 => if lo = 1 ∨ lo = 2 then none else some dParamSet
    | 0x1003 => if lo = 0 ∨ lo = 2 then none else some dParamSet
    | 0x1004 => if lo = 0x0D01 ∨ lo = 0x0F01 ∨ lo = 0x0F02 then none else some dParamSet
    | 0x1011 => if 1 ≤ lo ∧ lo ≤ 4 then none else some dParamSet
    | 0x1012 => if 1 ≤ lo ∧ lo ≤ 4 then none else some dParamSet
    | 0x1015 => if lo % 256 ∈ [2, 3] ∧ lo / 512 = 0 then none else some dParamSet
    | 0x1016 => if lo < 4096 then none else some dReserved
    | 0x3006 => pinSelectBad c
    | 0x3007 => pinSelectBad c
    | 0x3008 => if lo < 4 then none else some dReserved
    | 0x3009 => if lo = 1 then none else some dParamSet
    | 0x300A => if lo = 1 then none else some dParamSet
    | 0x4001 => if (digestOut lo).isSome then none else some dParamSet
    | 0x4002 => if (digestOut lo).isSome then none else some dParamSet
    | 0x4003 => if (digestOut lo).isSome then none else some dParamSet
    | 0x6001 => if lo < 2 then none else some dReserved
    | 0x6002 => if lo < 16 then none else some dReserved
    | _ => none

/-- A PK form that SPREAD may not take: it creates an object, or signs with a stateful key (R229, R245, R282). -/
def spreadBarred (c : Cmd) : Bool :=
  let op := c.desc.opcode
  ((op == 0x5003 || op == 0x5004 || op == 0x5005) && !selOption c) || (op == 0x5001 && isStateful (selAlg c))

/-- FLAGS (R74). -/
def flagsBad (c : Cmd) (batchForm : Bool) : Bool :=
  (flBatch c && !batchForm) || (flSpread c && !flBatch c) || (flRetry c && !flSpread c)
    || (flSegs c && !isStream c.desc.opcode) || (flBatch c && flSegs c) || (flSpread c && spreadBarred c)

/-- Library operation of a PK opcode. -/
def pkOp (op : Nat) : Nat :=
  if op = 0x5001 then opSign else if op = 0x5002 then opVerify else if op = 0x5003 then opEncaps else opDecaps

/-- The class of the opcode's jobs as far as the descriptor names their program: true for LADDER. The manifest of a customer
program is known only at check 8. -/
def classKnown (c : Cmd) : Option Bool :=
  let op := c.desc.opcode
  if op = 0x2001 ∧ !libRun c.desc.select then none
  else if op / 4096 = 5 ∧ !pkClassical c then
    (libFig (selAlg c) (pkOp op) 0).map (fun f => f.ladder)
  else some false

/-- The opcode's job is keyed with secret material, or its program has declassify points, whatever key it names (R41, R237,
R249). -/
def secretKnown (c : Cmd) : Bool :=
  let op := c.desc.opcode
  op == 0x1001 || op == 0x1002 || op == 0x1004 || (op == 0x2001 && libRun c.desc.select)
    || decide (0x3006 ≤ op ∧ op ≤ 0x300A) || (op / 4096 == 5 && op != 0x5002 && !pkClassical c)

/-- Byte 3 (R41, R75), as far as the descriptor alone decides it. -/
def classBad (c : Cmd) : Bool :=
  let r := descRelease c
  if releaseCol c ≠ .general then c.desc.cls != 0
  else if r = 3 then descProfile c == 2 || (descProfile c != 0 && secretKnown c)
  else if r = 0 then false
  else match classKnown c with
    | some ladder => (r == 2) != ladder
    | none => false

/-- The address fields (R78, R79, R81); a console-started command has none. -/
def addressBad (c : Cmd) : Bool :=
  let d := c.desc
  if !hasQueue c.fn then d.inAddr != 0 || d.outAddr != 0 || d.auxAddr != 0 || d.authAddr != 0
  else
    (if isCritical d.opcode then d.authAddr == 0 || d.authAddr % 64 != 0 else d.authAddr != 0)
    || (d.inLen == 0 && (d.inAddr != 0 || flSgl c)) || (d.outLen == 0 && (d.outAddr != 0 || flOutSgl c))
    || (if flBatch c then d.auxAddr % 8 != 0
        else d.auxLen == 0 && d.auxAddr != 0 && !(isStream d.opcode && d.flags.testBit 6))

/-- A stream segment against the streams of its function (R82): none, or status and detail. The tick at which SEG_LAST ends its
stream is not stated: until its release the number is taken (DEDUCED, log 140). -/
def streamBad (s : State) (c : Cmd) : Option (Nat × Nat) :=
  if !isStream c.desc.opcode then none
  else match findStream s c.fn (streamNo c) with
    | none =>
        if !c.desc.flags.testBit 6 then some (stParam, 0x0027)
        else if 256 ≤ (streamsOfFn s c.fn).length ∨ 16384 ≤ s.gth.streams.length then some (stDenied, 0x0033)
        else if (quotaOf s (tenantOf s c.fn)).streamsMax ≤ streamsOfTenant s (tenantOf s c.fn) then
          some (stDenied, dQuotaStreams)
        else none
    | some x =>
        if c.desc.flags.testBit 6 ∨ x.ended ∨ x.queue ≠ c.queue ∨ (x.opcode = 0x3003) ≠ (c.desc.opcode = 0x3003) then
          some (stParam, 0x0027)
        else if x.paramSet ≠ c.desc.select % 65536 ∨ x.keyA ≠ c.desc.keyA then some (stParam, 0x0027)
        else none

/-- The opcodes of the KEY family. -/
def isKeyOp (op : Nat) : Bool := op / 256 == 0x10 && (opRow op).isSome

/-- What the state of the part refuses before the checks (R71, R139, R416, R439, R445, R451). -/
def stateBad (s : State) (c : Cmd) : Option (Nat × Nat) :=
  let op := c.desc.opcode
  if s.boot.phase = .halted then some (stDenied, 0x02A1)
  else if s.boot.phase = .shut then
    if c.fn = 0 ∧ op ∈ [0x0001, 0x0003, 0x0012, 0xA001, 0xB001, 0xC001] then none else some (stDenied, 0x02A2)
  else if s.boot.phase ≠ .service then some (stDenied, 0x02A0)
  else if s.lcs.state = 5 then
    if op ∈ [0x0001, 0x0003, 0xA001, 0x7001, 0x7002, 0xB001, 0xC001, 0xA011, 0xA012] then none else some (stDenied, 0x0286)
  else if s.lcs.state = 0 && isKeyOp op then some (stDenied, 0)
  else if quenched s then
    if op ∈ [0x0001, 0x0002, 0x0003, 0xA001, 0x7001, 0x7002, 0xB001, 0xC001, 0xA014] then none else some (stDenied, 0x0260)
  else if isVf c.fn && (getVf s c.fn).st == .unbound then some (stDenied, 0x0030)
  else none

/-- The reserved bytes of the auxiliary buffer of SYM_EMV_VERIFY, which the gatehouse reads with the command (R6, R271); the
program tests those of a batch item (DEDUCED, log 142). -/
def emvReservedBad (c : Cmd) : Bool :=
  c.desc.opcode == 0x3008 && !flBatch c && c.desc.auxLen == 40 && !(leAt c.aux 21 1 == 0 && leAt c.aux 36 4 == 0)

/-- Check 1 of R18. -/
def check1 (s : State) (c : Cmd) : Res Unit :=
  match stateBad s c with
  | some e => reject e.1 e.2
  | none => match opRow c.desc.opcode with
    | none => reject stParam 0x0020
    | some row => do
        failIf (isVf c.fn && row.pfOnly) stParam 0x0021
        failIf (releaseCol c == .general && decide (16 ≤ c.desc.cls)) stParam dReserved
        failIf (flagsBad c row.batch) stParam 0x0029
        failIf (classBad c) stParam 0x0022
        failIf (addressBad c) stParam 0x0028
        let needs := keyNeeds s c
        failIf (emvReservedBad c) stParam dReserved
        failIf ((needs.1 == .absent && c.desc.keyA != 0) || (needs.2 == .absent && c.desc.keyB != 0)) stParam dReserved
        match selectBad c with
        | some d => reject stParam d
        | none => match streamBad s c with
          | some e => reject e.1 e.2
          | none =>
              if flSpread c then
                failIf (s.prk.st != .formed) stDenied 0x0200
              else .ok ()

/-! Check 2: lengths, counts and scatter lists -/

/-- Walk a scatter list (R80): the total of its data entries, or the detail of PARAM_INVALID. `left`: entries that the part
under way still holds; the first part is as long as it is. -/
def sglWalk : List SglEntry → Option Nat → Nat → Nat → Except Nat Nat
  | [], _, _, _ => .error 0x0025
  | e :: r, left, n, total =>
      let chain := e.ctrl.testBit 0
      let fin := e.ctrl.testBit 1
      if left = some 0 ∨ 4096 < n + 1 then .error 0x0025
      else if 4 ≤ e.ctrl ∨ e.reserved ≠ 0 then .error dReserved
      else if chain && fin then .error 0x0025
      else if chain then
        if e.len % 16 ≠ 0 ∨ 65536 < e.len ∨ e.addr % 16 ≠ 0 then .error 0x0025
        else sglWalk r (some (e.len / 16)) (n + 1) total
      else if e.len = 0 ∨ 2 ^ 24 < e.len then .error 0x0025
      else if fin then .ok (total + e.len)
      else sglWalk r (left.map (· - 1)) (n + 1) (total + e.len)

/-- One buffer's list covers its length. -/
def sglCheck (on : Bool) (addr : Nat) (l : List SglEntry) (need : Nat) : Res Unit :=
  if !on then .ok ()
  else if addr % 16 ≠ 0 then reject stParam 0x0025
  else match sglWalk l none 0 0 with
    | .error d => reject stParam d
    | .ok total => failIf (decide (total < need)) stOverrun 0

/-- Opcodes with no input (R83). -/
def noInput : List Nat :=
  [0x0001, 0x0002, 0x0003, 0x0005, 0x0006, 0x0007, 0x0011, 0x0012, 0x0014, 0x0017, 0x1002, 0x1003, 0x1005, 0x1006, 0x1012,
   0x1013, 0x2002, 0x4006, 0x6001, 0x6002, 0x6010, 0x7001, 0x7002, 0x8001, 0x8011, 0x8013, 0x8014, 0x9001, 0x9002, 0x9013,
   0x9015, 0xA001, 0xA012, 0xA014, 0xB010, 0xC001]

/-- The input lengths an opcode admits in its single form (R83). -/
def inLenOk (c : Cmd) : Bool :=
  let n := c.desc.inLen
  if noInput.contains c.desc.opcode then n == 0
  else match c.desc.opcode with
    | 0x0015 => c.desc.select % 65536 != 2 || n == 4
    | 0x0016 => n == 3296
    | 0x0018 => c.desc.select % 65536 != 2 || n == 2057
    | 0x1010 => n == 64
    | 0x1014 => n == 64
    | 0x1015 => n == 64
    | 0x1016 => n == 16
    | 0x4007 => n == 48
    | 0x6011 => n == 4
    | 0x7010 => n == 4
    | 0x7011 => n % 32 == 0 && decide (32 ≤ n ∧ n ≤ 512)
    | 0x7012 => n % 4 == 0 && decide (4 ≤ n ∧ n ≤ 64)
    | 0x8010 => n % 32 == 0 && decide (96 ≤ n ∧ n ≤ 32 + 32 * 64)
    | 0x8012 => n == 4
    | 0x9003 => n == 4
    | 0x9010 => n == 32
    | 0x9011 => n == 2
    | 0x9012 => n == 1188
    | 0x9014 => n == 32
    | 0xA010 => n == 16 || n == 3517
    | 0xA011 => n == 3501
    | 0xA013 => n == 160
    | 0xB001 => n == 16
    | 0xC002 => n == 16
    | _ => true

/-- The attributes of KEY_A, where the length rules of an RSA operation need its size. -/
def peekA (s : State) (c : Cmd) : Option Attr := (findKey s (tenantOf s c.fn) c.desc.keyA).map (fun r => r.2.attr)

/-- The length rules of the single forms of jobs: none, or the detail of LENGTH_INVALID. -/
def jobLens (s : State) (c : Cmd) : Option Nat :=
  let op := c.desc.opcode
  let inp := c.desc.inLen
  let aux := c.desc.auxLen
  let bad (b : Bool) : Option Nat := if b then none else some 0
  if op = 0x1004 then
    bad (inp == 0 && (if c.desc.select % 65536 = 0x0D01 then aux == 72 else decide (64 ≤ aux ∧ aux ≤ 64 + 4096)))
  else if op = 0x2001 then
    if libRun c.desc.select then
      bad (inp == 16 && (if c.desc.select / 256 % 16 = 7 then aux == 640 else aux == 0))
    else bad (decide (inp < 2 ^ 28 ∧ aux < 2 ^ 28) && (match runProgram s c.desc.select with
      | some p => p.man.inFixed == 0 || p.man.inFixed == inp
      | none => true))
  else if decide (0x3006 ≤ op ∧ op ≤ 0x300A) then
    bad ((decide (op ≤ 0x3007) && !pinFormat (selInFmt c)) || payLensOk c aux inp)
  else if decide (0x5001 ≤ op ∧ op ≤ 0x5007) then
    if pkClassical c then
      if isRsa (selAlg c) && c.desc.keyA != 0 && (peekA s c).isNone then none
      else poolLens op (selAlg c) (selHash c) (selOption c)
        (if c.desc.keyA = 0 then none else some ((peekA s c).getD (attrParse []))) aux inp
    else bad (pqLensOk op (selAlg c) (c.desc.keyA != 0) (selPrehash c != 0) (selOption c) aux inp)
  else cipherLens c inp aux

def allOnes : Nat := 2 ^ 32 - 1

/-- Check 2 of R18. -/
def check2 (s : State) (c : Cmd) : Res Unit := do
  let d := c.desc
  let op := d.opcode
  failIf (d.inLen == allOnes || d.outLen == allOnes || d.auxLen == allOnes) stLength 0
  failIf (flBatch c && d.auxLen == 0) stParam 0x0024
  failIf (flBatch c && decide (65536 < d.auxLen)) stLength 0
  failIf (isStream op && decide (2 ^ 24 < d.inLen)) stLength 0
  failIf (isCritical op && decide (2 ^ 21 < d.inLen + d.auxLen)) stLength 0
  failIf (!flBatch c && !inLenOk c) stLength 0
  failIf (op == 0x1011 && d.auxLen != 64) stLength 0
  failIf (op == 0x0004 && decide (65536 < d.inLen ∨ 65536 < d.outLen)) stLength 0
  failIf (op == 0x6001 && decide (d.outLen = 0 ∨ 2 ^ 20 < d.outLen)) stLength 0
  failIf (op == 0x6002 && decide (d.outLen = 0 ∨ 65536 < d.outLen)) stLength 0
  failIf (op == 0x2001 && flBatch c && !libRun d.select && (decide (2 ^ 28 ≤ d.inLen) || (match runProgram s d.select with
    | some p => p.man.inFixed != 0 && p.man.inFixed != d.inLen
    | none => false))) stLength 0
  match (if (opRel op) != some .general || (flBatch c && headerOp op) || (flBatch c && op == 0x2001) then none
      else jobLens s { c with desc := { d with auxLen := auxOf c } }) with
  | some x => reject stLength x
  | none =>
      failIf (c.dma == .sglFails && (flSgl c || flOutSgl c)) stDma 0
      sglCheck (flSgl c) d.inAddr c.inSgl (items c * d.inLen)
      sglCheck (flOutSgl c) d.outAddr c.outSgl (items c * d.outLen)

/-! Checks 3 to 7: the keys -/

/-- The profile a G command runs in (R75). -/
def profileOf (c : Cmd) (keyA : Option Attr) : Nat :=
  if descProfile c = 3 then max 1 ((keyA.map (fun a => a.floor)).getD 0) else descProfile c

/-- Check 4 on KEY_A beyond its usage: the algorithm against the parameter set, and the flags an operation needs (R128,
R223, R230, R251, R252, R259, R263, R268, R271, R272, R278, R293). -/
def fitA (c : Cmd) (a : Attr) : Res Unit :=
  let op := c.desc.opcode
  let m := selMode c
  if op = 0x1006 then failIf (!(a.cls == clsSecret && (isAes a.alg || isTdea a.alg))) stUsage 0
  else if op = 0x1004 then
    failIf (c.desc.select % 65536 != 0x0D01 && !(a.cls == clsSecret && (a.alg == 0x0103 || isMacAlg a.alg))) stUsage 0
  else if decide (0x3001 ≤ op ∧ op ≤ 0x3005) then do
    failIf (!symSetOk c a.alg) stParam dParamSet
    let dec := m == mdGcm && !encrypts c && !attrFlag a flStream
    failIf (dec && op == 0x3002 && decide (65536 + 28 < c.desc.inLen)) stLength 0x01A2
    failIf (dec && op == 0x3003 && segFirst c) stDenied 0x01A3
  else if op = 0x3006 ∨ op = 0x3007 then do
    -- the reference block of SYM_PIN_VERIFY is format 4 under the same key
    failIf (!pinFormatsOk c) stParam dParamSet
    failIf (!(if selInFmt c = 4 then isAes a.alg else isTdea a.alg && op == 0x3006)) stParam dParamSet
  else if op = 0x3008 then
    failIf (!(isAes a.alg || isTdea a.alg) || (isAes a.alg && c.desc.select.testBit 0 && !c.desc.select.testBit 1)) stParam dParamSet
  else if op = 0x3009 ∨ op = 0x300A then failIf (a.alg != 0x0111) stParam dParamSet
  else if op = 0x4004 ∨ op = 0x4005 then failIf (!macSetOk c a.alg) stParam dParamSet
  else if decide (0x5001 ≤ op ∧ op ≤ 0x5007) then do
    failIf (a.alg != selAlg c) stParam dParamSet
    failIf ((op == 0x5004 || op == 0x5005) && selOption c && !attrFlag a flExportable) stDenied 0x0180
    if pkClassical c && isRsa a.alg && !flBatch c then
      match poolLens op (selAlg c) (selHash c) (selOption c) (some a) c.desc.auxLen c.desc.inLen with
      | some x => reject stLength x
      | none => .ok ()
    else .ok ()
  else if op = 0x2001 ∧ libRun c.desc.select then
    failIf (a.alg % 4096 != c.desc.select / 4096 % 4096) stParam dParamSet
  else .ok ()

/-- The same on KEY_B. -/
def fitB (c : Cmd) (a : Attr) : Res Unit :=
  let op := c.desc.opcode
  if op = 0x1004 then failIf (!(a.cls == clsSecret && (a.alg == 0x0103 || isMacAlg a.alg))) stUsage 0
  else if op = 0x3006 then failIf (!(if selOutFmt c = 4 then isAes a.alg else isTdea a.alg)) stParam dParamSet
  else .ok ()

/-- The algorithm a manifest names for a key position. -/
def manifestAlg (s : State) (c : Cmd) (second : Bool) : Option Nat :=
  if c.desc.opcode = 0x2001 then
    (runProgram s c.desc.select).map (fun p => if second then p.man.key1.alg else p.man.key0.alg)
  else none

/-- A command whose items are signatures: PK_SIGN, and a program of the host's own; LEAVES and LINK sign nothing, and KEY_SAVE
leaves the meter (R134, R243 to R245). -/
def signsOts (c : Cmd) : Bool := c.desc.opcode == 0x5001 || (c.desc.opcode == 0x2001 && !libRun c.desc.select)

/-- What the command charges the meter of a key (R134). -/
def chargeOf (c : Cmd) (a : Attr) : Nat :=
  let gcm := if selMode c = mdGcm ∧ encrypts c ∧ segFirst c then items c else 0
  let blk := items c * ceilDiv c.desc.inLen 8
  meterUnits a gcm blk (if signsOts c then items c else 0) (items c)

/-- Checks 3 to 7 on one position. -/
def keyChecks (s : State) (c : Cmd) (h : Nat) (need : Need) (second : Bool) (floorCheck : Attr → Bool) :
    Res (Option (Nat × Attr)) :=
  let go (us : List Nat) : Res (Option (Nat × Attr)) := do
    let r ← keyLookup s c h
    let a := r.2.attr
    failIf (us != [] && !us.contains a.usage) stUsage 0
    failIf (match manifestAlg s c second with
      | some al => al != a.alg
      | none => false) stUsage 0
    if second then fitB c a else fitA c a
    failIf (flSpread c && !attrFlag a flParkWide) stDenied 0x0204
    failIf (!floorCheck a) stFloor 0
    keyWindow s a
    keyMeter s a (chargeOf c a)
    .ok (some (r.1, a))
  match need with
  | .absent => .ok none
  | .optional us => if h = 0 then .ok none else go us
  | .required us => go us

/-! Check 8: the program -/

/-- What check 8 selects. -/
structure Chosen where
  kind : JobKind
  prog : Nat
  fig : Figures
  /-- the manifest lists declassify points, or secret keys enter (R41) -/
  secret : Bool
  maxOut : Nat
deriving DecidableEq, Repr

def loadedOr (s : State) (id : Nat) : Res Unit := failIf (!libLoaded s id) stParam 0x0026

def orNotOffered (f : Option Figures) : Res Figures := match f with
  | some f => .ok f
  | none => reject stParam 0x0188

/-- The payment program of a form (R267). -/
def paymentId (c : Cmd) : Nat := match c.desc.opcode with
  | 0x3006 => if selDukpt c then 0x01001101 else 0x01001001
  | 0x3007 => if selDukpt c then 0x01001301 else 0x01001201
  | 0x3008 => 0x01002001
  | 0x3009 => 0x01003001
  | _ => 0x01003101

/-- Output of a PK operation when it succeeds. -/
def pkMaxOut (c : Cmd) (a : Option Attr) : Nat :=
  let alg := selAlg c
  let op := c.desc.opcode
  let k := match a with
    | some x => rsaK alg x.cls x.len
    | none => 0
  if op = 0x5001 then (if isRsa alg then k else if isClassical alg then ecSig alg else pqOut alg)
  else if op = 0x5003 then pqOut alg + (if selOption c then pqSecret alg else 4)
  else if op = 0x5004 then (if selOption c then pqSecret alg else 4)
  else if op = 0x5005 then (if selOption c then zLen alg else 4)
  else if op = 0x5006 ∨ op = 0x5007 then k
  else 0

/-- Modulus bits of a pool operation. -/
def poolBits (c : Cmd) (a : Option Attr) : Nat := match a with
  | some x => (rsaBits x.alg x.cls x.len).getD 0
  | none => if flBatch c then (auxRsaBits (min c.desc.inLen 65535)).getD 16384 else (auxRsaBits c.desc.auxLen).getD 0

/-- Is a command routed to the pool (R277)? -/
def poolCmd (c : Cmd) : Bool := decide (0x5001 ≤ c.desc.opcode ∧ c.desc.opcode ≤ 0x5007) && pkClassical c

/-- A loaded package with the figures of its manifest; a profile it does not offer (R178, R224). -/
def chosenProgram (id : Nat) (pr : Program) (p : Nat) : Res Chosen := do
  failIf (!pr.man.profiles.testBit p) stParam 0x0188
  .ok { kind := .program, prog := id, fig := manifestFig pr.man p,
        secret := pr.man.decl != [] || pr.man.key0.usage != 0 || pr.man.key1.usage != 0, maxOut := pr.man.maxOut }

/-- Check 8 of R18, with the profile: the program, its figures, NO_PAVILION (R42) and POOL_EMPTY (R276). -/
def choose (s : State) (c : Cmd) (p : Nat) (a b : Option Attr) : Res Chosen := do
  let op := c.desc.opcode
  let secretKey := (a.map (fun x => x.cls != clsPublic)).getD false || (b.map (fun x => x.cls != clsPublic)).getD false
  let alg := (a.map (fun x => x.alg)).getD 0
  let ch ← (if op = 0x2001 then
      match runProgram s c.desc.select with
      | some pr => do
          failIf (pr.man.isScoped && pr.man.tenant != tenantOf s c.fn) stDenied 0
          chosenProgram c.desc.select pr p
      | none => do
          failIf (!(libRun c.desc.select && libLoaded s c.desc.select)) stParam 0x0026
          let o := c.desc.select / 256 % 16
          let f ← orNotOffered (libFig (0x0200 + c.desc.select / 4096 % 256) o p)
          .ok { kind := .library, prog := c.desc.select, fig := f, secret := true,
                maxOut := if o = 7 then 56 + 2828 + 32768 else 2048 }
    else if op = 0x1004 then do
      let ps := c.desc.select % 65536
      let id := if ps = 0x0D01 then 0x01004001 else if ps = 0x0F01 then 0x02F00101 else 0x02F00201
      let x ← if ps = 0x0D01 then (do loadedOr s id; .ok (id, none)) else pickOr s id
      match x.2 with
      | some pr => chosenProgram x.1 pr p
      | none => .ok {
          kind := .library, prog := id, secret := true, maxOut := 4,
          fig := if ps = 0x0D01 then gridFig (paymentAllot id p true true) else combinerFig p }
    else if decide (0x3006 ≤ op ∧ op ≤ 0x300A) then do
      loadedOr s (paymentId c)
      let x := paymentAllot (paymentId c) p (selInFmt c == 4 && selOutFmt c == 4) (isAes alg)
      failIf (x == 0) stParam 0x0188
      .ok { kind := .library, prog := paymentId c, fig := gridFig x, secret := true,
            maxOut := if op = 0x3006 then (if selOutFmt c = 4 then 16 else 8) else if op = 0x3008 then 8
              else if op = 0x3009 then 4 else 0 }
    else if decide (0x5001 ≤ op ∧ op ≤ 0x5007) then
      if pkClassical c then do
        failIf (poolSize s == 0) stDenied 0x01C9
        let x := poolAllot op (selAlg c) (poolBits c a) p
        let dual := op == 0x5005
        .ok { kind := .pool dual, prog := selAlg c, fig := { gridFig x with load := if dual then 2 * x else x },
              secret := secretKey, maxOut := pkMaxOut c a }
      else do
        let x ← pickOr s (libId (selAlg c) (pkOp op))
        match x.2 with
        | some pr => chosenProgram x.1 pr p
        | none => do
            let f ← orNotOffered (libFig (selAlg c) (pkOp op) p)
            .ok { kind := .library, prog := x.1, fig := f, secret := op != 0x5002 || secretKey, maxOut := pkMaxOut c a }
    else do
      failIf (isTdea alg && p == 2) stParam 0x0188
      .ok { kind := .cipher, prog := 0, fig := cipherFig c c.desc.inLen (auxOf c) a p,
            secret := secretKey || op == 0x1001 || op == 0x1002,
            maxOut := if unstaged c c.desc.inLen a then 0
              else if op = 0x1001 then 4 else if op = 0x1002 then (a.map (fun x => x.len)).getD 0 + 92
              else cipherOutLen c c.desc.inLen a } : Res Chosen)
  match ch.kind with
  | .pool _ => .ok ch
  | _ => do
      failIf (pavsInService s == []) stDenied 0x02C6
      .ok ch

/-- The release class of R41 in a profile, against the manifest's. -/
def releaseClass (c : Cmd) (p : Nat) (ch : Chosen) : Res RelClass :=
  let own : RelClass := if ch.fig.ladder then .ladder else .grid
  let r := descRelease c
  if r = 0 then .ok (if p = 0 then .immediate else own)
  else if r = 3 then (if p = 2 ∨ (p = 1 ∧ ch.secret) then reject stParam 0x0022 else .ok .immediate)
  else if (r = 2) = (own = .ladder) then .ok own else reject stParam 0x0022

/-! Check 9: randomness (R18, R225, R292) -/

/-- Does a job need the kiln? -/
def needsKiln (c : Cmd) (p : Nat) (ch : Chosen) (a : Option Attr) : Bool :=
  let op := c.desc.opcode
  match ch.kind with
  | .pool _ => (a.map (fun x => x.cls == clsPrivate)).getD false || op == 0x5006
  | .library =>
      decide (1 ≤ p) || op == 0x5003 || op == 0x3006
        || (op == 0x5001 && !selOption c && !isStateful (selAlg c))
  | .cipher => buildsNonce c || op == 0x1002 || (decide (1 ≤ p) && (a.isSome || op == 0x1001))
  | .program => decide (1 ≤ p)

/-! The plan -/

/-- The job of an accepted command, before it is planned onto a pavilion or the pool. -/
def jobOf (s : State) (c : Cmd) (p : Nat) (rel : RelClass) (ch : Chosen) (ka kb : Option (Nat × Attr)) : Job :=
  let a := ka.map (fun x => x.2)
  { critJob s c ch.kind ch.prog p ch.fig none with
    rel := rel, crit := false, useA := ka.map (fun x => x.1), useB := kb.map (fun x => x.1), attrA := a,
    attrB := kb.map (fun x => x.2),
    staged := min (outRoom c) ch.maxOut,
    stream := ((findStream s c.fn (streamNo c)).map (fun x => x.ident)).getD 0,
    direct := ch.kind == .cipher && cipherDirect c c.desc.inLen a,
    piecesAll := if ch.kind = .cipher then cipherPieces c ((a.map (fun x => x.alg)).getD 0) c.desc.inLen else 0 }

/-- Checks 3 to 8 of R18 on a G command: its job, and whether check 9 applies. -/
def planG (s : State) (c : Cmd) : Res (Job × Bool) := do
  let needs := keyNeeds s c
  let floorOk (fa : Option Attr) (x : Attr) : Bool := decide (x.floor ≤ profileOf c fa)
  let ka ← keyChecks s c c.desc.keyA needs.1 false (fun x => floorOk (some x) x)
  let a := ka.map (fun x => x.2)
  let s1 := match a with
    | some x => meterCharge s x (chargeOf c x)
    | none => s
  let kb ← keyChecks s1 c c.desc.keyB needs.2 true (floorOk a)
  let p := profileOf c a
  let ch ← choose s c p a (kb.map (fun x => x.2))
  let rel ← releaseClass c p ch
  .ok (jobOf s c p rel ch ka kb, needsKiln c p ch a)

/-- KEY_SAVE with COLD: a cipher job in the floor of the key saved, for the keeper world (R75, R449). -/
def planCold (s : State) (c : Cmd) : Res (Job × Bool) := do
  let ka ← keyChecks s c c.desc.keyA (.required []) false (fun _ => true)
  let a := ka.map (fun x => x.2)
  let p := (a.map (fun x => x.floor)).getD 1
  let ch ← choose s c p a none
  .ok ({ jobOf s c p .immediate ch ka none with crit := true, staged := 0 }, true)

/-- Text bytes of a segment. -/
def segText (c : Cmd) : Nat := if aadSegment c then 0 else c.desc.inLen - inHead c - inTail c

/-- The running total of a stream's text would exceed what one invocation may take (R255). -/
def modeLimit (s : State) (c : Cmd) : Bool :=
  c.desc.opcode == 0x3003 &&
    (let t := (match findStream s c.fn (streamNo c) with
        | some x => x.text
        | none => 0) + segText c
     (selMode c == mdGcm && decide (2 ^ 36 - 32 < t)) || (selMode c == mdCtr && decide (2 ^ 36 - 16 < t)))

end Sys2Proof.Machine
end

