-- ==== Sys2Proof/Machine/Keeper.lean ====
section
/-! DEFINITION. The keeper world's way through its mailbox (01_organisation.md R26), the accounts of queues and batches, the
record of a DMA_ERROR (03_gatehouse.md R56). -/

namespace Sys2Proof.Machine

/-! Queue accounting -/

/-- The queue of a command is a queue pair of the host port. -/
def tracked (c : Cmd) : Bool := hasQueue c.fn && decide (c.queue < 256)

/-- One more command of the queue is accepted and not yet released (R66). -/
def enter (s : State) (c : Cmd) : State :=
  if tracked c then
    let k := qpIx c.fn c.queue
    setQp s k { getQp s k with inFlight := (getQp s k).inFlight + 1 }
  else s

/-- The error of a failed read is logged through AER as an advisory non-fatal error of the function: bit 13 of its correctable
status (R56). -/
def aerNote (s : State) (fn : Nat) : State :=
  if hasQueue fn then
    { s with gth := { s.gth with pci := { s.gth.pci with aerCor := kmod (fun _ => 0) s.gth.pci.aerCor fn (· ||| 2 ^ 13) } } }
  else s

/-- The record, interrupt and counter of a DMA_ERROR (R56, R463). -/
def dmaNote (s : State) (c : Cmd) : State :=
  record (pmcDev (gthInt (aerNote s c.fn) 1) 175 1) 0x0101 c.fn sevWarning (recTenant s c.fn) (cmdRecordPayload c stDma 0)

/-! Critical commands -/

/-- The change of a critical command, by opcode (R103 lists them). -/
def perform (c : Cmd) (s : State) : State := match c.desc.opcode with
  | 0x0010 => performFwUpdate c s
  | 0x0011 => performFwActivate c s
  | 0x0012 => performReset c s
  | 0x0013 => performProgramLoad c s
  | 0x0014 => performProgramRemove c s
  | 0x0015 => if c.desc.select % 65536 = 2 then performAppletRemove c s else performAppletLoad c s
  | 0x0016 => performEnrol c s
  | 0x0017 => performRevoke c s
  | 0x0018 => if c.desc.select % 65536 = 2 then performPublisherSet c s else performPolicy isCritical c s
  | 0x1010 => performKeyGenerate c s
  | 0x1011 => performKeyImport c s
  | 0x1012 => performKeyExport c s
  | 0x1013 => performKeyDelete c s
  | 0x1014 => performKeyAttrSet c s
  | 0x1015 => performKeyComponent c s
  | 0x1016 => performKeyMeterSet c s
  | 0x6010 => performRngRestart c s
  | 0x6011 => performRngRawEnable c s
  | 0x7010 => performTimePolicy c s
  | 0x7011 => performScheduleAdd parkBegin c s
  | 0x7012 => performScheduleCancel parkBegin c s
  | 0x8010 => performParkJoin c s
  | 0x8011 => performParkLeave c s
  | 0x8012 => performParkEvict c s
  | 0x8013 => performParkResync c s
  | 0x8014 => performParkKeyAgree c s
  | 0x9010 => performTenantCreate c s
  | 0x9011 => performTenantDelete c s
  | 0x9012 => performBindVf c s
  | 0x9013 => performUnbindVf c s
  | 0x9014 => performTenantQuotaSet c s
  | 0x9015 => performVfSave c s
  | 0x9016 => performVfRestore c s
  | 0xA010 => performTransition c s
  | 0xA011 => performDebugOpen c s
  | 0xA012 => performDebugClose c s
  | 0xA013 => performTamperSet c s
  | 0xA014 => performRecommission c s
  | 0xB010 => performEventClear c s
  | _ => completeCmd s c stParam 0x0020

/-- The keeper world goes on after a wait, a transaction or a job of its own. -/
def keeperNext (s : State) : State := keeperGo perform s

/-! Batches (R81) -/

def getBatch (s : State) (n : Nat) : Option Batch := kfind s.gth.batches n
def setBatch (s : State) (n : Nat) (b : Batch) : State := { s with gth := { s.gth with batches := kins s.gth.batches n b } }
def dropBatch (s : State) (n : Nat) : State := { s with gth := { s.gth with batches := kdel s.gth.batches n } }

end Sys2Proof.Machine
end

