-- ==== Sys2Proof/Machine/Release.lean ====
section
/-! DEFINITION. Release: the due completions, outputs and item records of a tick (02_sundial.md R43 to R45; 03_gatehouse.md
R81, R86; 12_park.md R345, R347), late releases and aborts, SQUASHED records (13_tenancy.md R362). -/

namespace Sys2Proof.Machine

/-! Items of a batch -/

/-- The item records of a batch are written to the host: output at item × OUT_LEN, then the status record. -/
def writeItem (s : State) (c : Cmd) (i unit status detail written : Nat) (out : Bytes) : State :=
  let w := (if out = [] then [] else [Output.data c.fn c.queue c.desc.tag (i * c.desc.outLen) out])
    ++ [.itemStatus c.fn c.queue c.desc.tag i status detail written unit]
  if ideBlocked s then { s with gth := { s.gth with ideHeld := s.gth.ideHeld ++ w } }
  else meterAdd (viewAdd (emitAll s w) c.fn 9 out.length) 1 (16 + out.length)

/-- Book an item's result on the share of the unit that ran it: a unit without an address, 0xFF, has left with this batch. -/
def bookShare (s : State) (n i unit status : Nat) : State :=
  let unit := if unit = 0xFF then s.prk.address else unit
  { s with prk := { s.prk with shares := s.prk.shares.map (fun x =>
      if x.batch = n ∧ x.unit = unit then
        { x with items := x.items.filter (fun k => k != i), ok := x.ok + (if status = 0 then 1 else 0),
                 failed := x.failed + (if status = 0 then 0 else 1) }
      else x) } }

/-- OUTCOME of a share whose batch is over (R347). -/
def shareOutcome (x : Share) : Nat := if x.outcome = 0 then 1 else x.outcome

/-- The summary of a spread batch: 64 entries in address order (R347). -/
def summaryBytes (l : List Share) : Bytes :=
  (List.range 64).flatMap (fun u => match l.find? (fun x => x.unit == u) with
    | some x => leBytes 1 u ++ leBytes 1 (shareOutcome x) ++ [0, 0] ++ leBytes 4 x.assigned ++ leBytes 4 x.ok ++ leBytes 4 x.failed
    | none => leBytes 1 u ++ List.replicate 15 0)

/-- Units whose share returned every item (R86, R347). -/
def outcomeBits (l : List Share) : Nat :=
  l.foldl (fun n x => if shareOutcome x = 1 then n ||| 2 ^ x.unit else n) 0

/-- The completion of a batch whose last item is known (R81, R347). -/
def endBatch (s : State) (n : Nat) (b : Batch) : State :=
  let c := b.plan.cmd
  let s1 := dropBatch s n
  let st := if b.ok = b.count then stOk else stPartial
  if 2048 ≤ c.fn then s1
  else if b.spread then
    let l := s1.prk.shares.filter (fun x => x.batch == n)
    let s2 := { s1 with prk := { s1.prk with shares := s1.prk.shares.filter (fun x => x.batch != n) } }
    let o : Output := .summary c.fn c.queue c.desc.tag (summaryBytes l)
    let s3 := if ideBlocked s2 then { s2 with gth := { s2.gth with ideHeld := s2.gth.ideHeld ++ [o] } } else emit s2 o
    completeAs 1 s3 c.fn c.queue c.desc.tag st 0 b.ok
      (outcomeBits l) []
  else completeAs 1 s1 c.fn c.queue c.desc.tag st 0 b.ok 0 []

/-- An item of batch `n` has its result: of the unit that ran it. Items of another unit's share go back to it. -/
def itemDone (s : State) (n i unit status detail written : Nat) (out : Bytes) : State :=
  match getBatch s n with
  | none => s
  | some b =>
      let c := b.plan.cmd
      let s1 := if 2048 ≤ c.fn then
          sendTo s (c.queue - 512) 0x31 (leBytes 4 c.desc.tag ++ leBytes 4 i ++ leBytes 2 status ++ leBytes 2 detail
            ++ leBytes 4 written ++ out)
        else writeItem (if b.spread then bookShare s n i unit status else s) c i unit status detail written out
      let b1 := { b with left := b.left - 1, ok := b.ok + (if status = 0 then 1 else 0) }
      if b1.left = 0 then endBatch s1 n b1 else setBatch s1 n b1

/-! Release of one job -/

/-- A released segment: its stream ends with the last one. -/
def releaseSegment (s : State) (j : Job) : State :=
  match liveStream s j with
    | none => s
    | some x =>
        if x.ended ∧ x.busy ≤ 1 then dropStream s j.cmd.fn (streamNo j.cmd)
        else putStream s { x with busy := x.busy - 1 }

/-- Counters of a release by class, and of a late one: SDL_OVERRUN, its interrupt and its record (R43). -/
def releaseNote (s : State) (j : Job) : State :=
  let s1 := pmcDev s (match j.rel with
    | .grid => 170
    | .ladder => 171
    | .immediate => 172) 1
  if j.late then
    let s2 := { s1 with sdl := { s1.sdl with overrun := satInc 32 s1.sdl.overrun } }
    let s3 := if isPool j then s2 else pmcPav s2 j.pav 20 1
    record (pmcDev (sdlInt s3 4) 173 1) 0x0103 j.cmd.fn sevWarning (recTenant s j.cmd.fn)
      (cmdRecordPayload j.cmd j.status 1)
  else s1

/-- A squashed command: its completion goes to the event recorder and the tenant view, never to the host (R362). -/
def squashNote (s : State) (c : Cmd) : State :=
  viewAdd (record s 0x0105 c.fn sevWarning (recTenant s c.fn) (cmdRecordPayload c stSquashed 0)) c.fn 6 1

/-- Output that the host already has, written as produced (R91). -/
def directOut (j : Job) : Bool := j.direct && hasQueue j.cmd.fn && decide (j.cmd.queue < 256)

/-- The compare pair of a verification does not fit its status (R86, R218). A fault or an abort ends a job without a pair, and
keeps the status that R174 and R175 give it (DEDUCED, log 141). -/
def pairBad (op st pair : Nat) : Bool :=
  verifyOp op && !(st == 0 && pair == pairMatch) && !((st == stMac || st == stSig) && pair == pairMiss)
    && (pair != 0 || st == 0 || st == stMac || st == stSig)

/-- The check of the pair at release: a job that fails it leaves with FAULT_DETECTED and a pair of zero. -/
def pairChecked (s : State) (j : Job) : State × Job :=
  if pairBad j.cmd.desc.opcode j.status j.pair then
    (if isCipher j then { s with dgs := { s.dgs with cmpFault := satInc 32 s.dgs.cmpFault } } else s,
      { j with status := stFault, detail := 0x0159, output := [], required := 0, pair := 0 })
  else (s, j)

/-- Release a job that has ended; a tag or MAC mismatch is counted with it (R259). -/
def releaseJob (s0 : State) (n : Nat) : State :=
  match getJob s0 n with
  | none => s0
  | some j0 =>
      let r := pairChecked s0 j0
      let s := r.1
      let j := r.2
      let s1 := releaseSegment (dropJob s n) j
      if j.status = stSquashed then squashNote s1 j.cmd
      else
        let detail := if j.late then 1 else j.detail
        let written := if j.status = 0 then j.output.length else j.required
        let s0 := releaseNote s1 j
        let s2 := if j.status = stMac ∧ isCipher j then { s0 with dgs := { s0.dgs with tagFail := satInc 32 s0.dgs.tagFail } }
          else s0
        let out := if directOut j then [] else j.output
        if j.crit then critEnd keeperNext s2 j
        else match j.batch, j.item with
          | some b, some i => itemDone s2 b i (unitByte s) j.status detail written out
          | _, _ => completeAs (viewClass j.status) s2 j.cmd.fn j.cmd.queue j.cmd.desc.tag j.status detail written j.pair
              out

/-- Insert a job by its due tick, behind those due at the same tick. -/
def byDue (e : Nat × Job) : List (Nat × Job) → List (Nat × Job)
  | [] => [e]
  | x :: r => if e.2.due < x.2.due then e :: x :: r else x :: byDue e r

/-- The due jobs in the order they leave: by tick, then acceptance; IMMEDIATE ones behind the others (R45). -/
def dueJobs (s : State) (p : Job → Bool) : List (Nat × Job) :=
  let l := s.gth.jobs.filter (fun e => e.2.phase == .done && decide (e.2.due ≤ now s) && p e.2)
  let sorted := l.foldl (fun m e => byDue e m) []
  sorted.filter (fun e => e.2.rel != .immediate) ++ sorted.filter (fun e => e.2.rel == .immediate)

def releaseWhere (s : State) (p : Job → Bool) : State := (dueJobs s p).foldl (fun s e => releaseJob s e.1) s

/-- What the tick has brought: the schedule entries due apply, then everything due leaves (R45, R50), and the applet calls that
waited for it return (R380). -/
def settle (s : State) : State :=
  { finishReturns keeperNext (releaseWhere (fireSchedule s) (fun _ => true)) with pending := s.pending }

/-- RELEASE_TICK: everything due leaves, then the tail records and messages of the tick. -/
def execReleaseTick (s : State) : Host.Outcome State Fault Refusal := answer s (flushTick (settle s))

/-- A release that some job waits for: everything due leaves with it, in its order (R45). -/
def releaseIf (s : State) (p : Job → Bool) : State := if dueJobs s p = [] then s else settle s

/-- LATE_RELEASE: a job held beyond B + A. -/
def execLateRelease (s : State) : Host.Outcome State Fault Refusal := answer s (releaseIf s (fun j => j.late))

/-- LADDER_STEP: a ladder job due. -/
def execLadderStep (s : State) : Host.Outcome State Fault Refusal := answer s (releaseIf s (fun j => j.rel == .ladder))

/-! Aborts at the last tick (R43, R44) -/

/-- ALLOTMENT_ABORT: jobs open at B + 4A. -/
def execAllotmentAbort (s : State) : Host.Outcome State Fault Refusal :=
  answer s (abortWhere s (fun j => !j.ladder && decide (jobLimit j ≤ now s)) stAborted 0x0160 (fun _ j => jobLimit j))

/-- LADDER_ABORT: a job open at its last step. -/
def ladderAbortOne (s : State) (n : Nat) (j : Job) : State :=
  let s1 := abortJob s n stAborted 0x0161 (jobLimit j)
  let s2 := { s1 with sdl := { s1.sdl with ladderAbort := satInc 32 s1.sdl.ladderAbort } }
  record (pmcDev (sdlInt s2 4) 174 1) 0x0104 j.cmd.fn sevWarning (recTenant s j.cmd.fn)
    (cmdRecordPayload j.cmd stAborted 0x0161)

def execLadderAbort (s : State) : Host.Outcome State Fault Refusal :=
  answer s ((s.gth.jobs.filter (fun e => jobOpen e.2 && e.2.ladder && decide (jobLimit e.2 ≤ now s))).foldl
    (fun s e => ladderAbortOne s e.1 e.2) s)

/-- The squashed jobs whose scrub has ended. -/
def releaseSquashed (s : State) : State :=
  (s.gth.jobs.filter (fun e => e.2.phase == .done && e.2.status == stSquashed)).foldl (fun s e => releaseJob s e.1) s

/-! A payload read that fails (R56) -/

/-- The job of a failed payload read ends with DMA_ERROR at its release tick; its engine is cleared. -/
def dmaFail (s : State) (n : Nat) : State :=
  match getJob s n with
  | none => s
  | some j =>
      if !jobOpen j then s
      else
        let s1 := match j.phase, j.part with
          | .running, some x =>
              if isPool j then
                let off (s : State) (b : Nat) := setBne s b { getBne s b with st := .clearing, job := none }
                match j.part2 with
                  | some y => off (off s x) y
                  | none => off s x
              else setEng s x { getEng s x with st := .clearing, job := none, want := .none, grant := none }
          | _, _ => s
        endJob (dmaNote s1 j.cmd) n stDma 0 [] 0 false

/-- DMA_READ_RETURN: a payload read of a job returns; a bad one ends it. -/
def execDmaReadReturn (job : Nat) (bad : Bool) (s : State) : Host.Outcome State Fault Refusal :=
  answer s (if bad then dmaFail s job else s)

/-- COMPLETION_TIMEOUT: a payload read of a job receives no completion. -/
def execCompletionTimeout (job : Nat) (s : State) : Host.Outcome State Fault Refusal := answer s (dmaFail s job)

end Sys2Proof.Machine
end

