-- ==== Sys2Proof/Machine/Admit.lean ====
section
/-! DEFINITION. From acceptance to the job: the release-I and critical commands by opcode, holds before acceptance
(03_gatehouse.md R84, R91, R92; 01 R18; 05 R136; 10 R285), batches (R81) and spread batches (12_park.md R344). -/

namespace Sys2Proof.Machine

/-- Refuse a command at once (R19). -/
def refuse (s : State) (c : Cmd) (e : Nat × Nat) : State := completeReject (enter (countExhausted s e.1) c) c e.1 e.2

/-- Buffers as the gatehouse reads them: IN_LEN bytes for each item, AUX_LEN bytes. -/
def normCmd (c : Cmd) : Cmd :=
  if !hasQueue c.fn then c
  else { c with input := padTo (items c * c.desc.inLen) c.input, aux := padTo (auxOf c) c.aux }

/-- Payload bytes a command reads. -/
def payloadLen (c : Cmd) : Nat := items c * c.desc.inLen + auxOf c

/-- Counters of a command past acceptance (R369, R458, R459). -/
def countAccept (s : State) (c : Cmd) : State :=
  let s1 := viewAdd (pmcDev s (c.desc.opcode / 4096 % 16) 1) c.fn 0 1
  meterAdd (viewAdd s1 c.fn 8 (payloadLen c)) 0 (64 + payloadLen c)

/-! Release-I commands -/

/-- ADMIN_IDENTIFY: the identity page. -/
def doIdentify (c : Cmd) (s : State) : State := completeOut s c ((List.range 4096).map Sys2Proof.Config.identityPage)

/-- The signed part of ADMIN_ATTEST's report: the measurement registers and the state. -/
def attestBody (s : State) : Bytes :=
  (List.range 32).flatMap (fun i => measBytes s i) ++ leBytes 1 s.lcs.state ++ leBytes 1 (dbgStatus s % 256)
    ++ leBytes 8 (recGrid s)

/-- ADMIN_ATTEST: the report with both signatures of the state's attestation keys (R62, R425). -/
def doAttest (c : Cmd) (s : State) : State :=
  if s.lcs.state = 5 then completeCmd s c stDenied 0x0286
  else
    let b := attestBody s
    let s1 := bumpCtr (bumpCtr s)
    completeOut s1 c (b
      ++ padTo 96 (attestSignEc s.lcs.deviceId s.lcs.state (s.freeCtr + 1) b)
      ++ padTo 4627 (attestSignMl s.lcs.deviceId s.lcs.state (s.freeCtr + 2) b))

/-- ADMIN_NOP. -/
def doNop (c : Cmd) (s : State) : State := completeCmd s c 0 0

/-- KEY_ATTR_GET and KEY_METER_GET: checks 3, 6 and 7, the charge, then the read (R88, R132, R138). -/
def doKeyRead (k : Obj → Cmd → State → State) (c : Cmd) (s : State) : State :=
  match keyLookup s c c.desc.keyA with
  | .error e => completeReject s c e.1 e.2
  | .ok (_, o) =>
      let n := meterUnits o.attr 0 0 0 1
      match (do
        keyWindow s o.attr
        keyMeter s o.attr n : Res Unit) with
      | .error e => completeReject (countExhausted s e.1) c e.1 e.2
      | .ok _ => k o c (meterCharge s o.attr n)

/-- The release-I commands past checks 1 and 2. -/
def serve (c : Cmd) (s : State) : State :=
  if c.dma = .payloadFails ∧ c.desc.inLen ≠ 0 then completeCmd (dmaNote s c) c stDma 0
  else match c.desc.opcode with
    | 0x0001 => doIdentify c s
    | 0x0002 => doAttest c s
    | 0x0004 => doAppletCall c s
    | 0x0005 => doQuarantine c s
    | 0x0006 => doServiceReturn c s
    | 0x0007 => doShutdown c s
    | 0x1003 => doKeyRead doKeyAttrGet c s
    | 0x1005 => doKeyRead doKeyMeterGet c s
    | 0x2002 => doRunQuery c s
    | 0x4006 => doMeasRead c s
    | 0x4007 => doMeasExtend c s
    | 0x6001 => doRngRead c s
    | 0x6002 => doRngRawRead c s
    | 0x7001 => doTimeStamp c s
    | 0x7002 => doTimeStatus c s
    | 0x8001 => doParkStatus c s
    | 0x9001 => doVfQuiesce c s
    | 0x9002 => doVfResume c s
    | 0x9003 => doPerfGrant c s
    | 0xA001 => doLifeStatus c s
    | 0xB001 => doEventRead c s
    | 0xC001 => doPerfRead c s
    | 0xC002 => doPerfWindowSet c s
    | _ => doNop c s

/-! Holds -/

/-- Commands of one queue. -/
def sameQueue (h : Held) (c : Cmd) : Bool := h.cmd.fn == c.fn && h.cmd.queue == c.queue

/-- The held commands at the head of their queues. -/
def headsGo : List Held → List Held → List Held
  | [], _ => []
  | h :: r, seen => if seen.any (fun x => sameQueue x h.cmd) then headsGo r seen else h :: headsGo r (h :: seen)
def heads (s : State) : List Held := headsGo s.gth.held []

/-- The starved queue, while its head still waits for staging (R91). -/
def starvedNow (s : State) : Option Nat :=
  s.gth.starved.filter (fun k => (heads s).any (fun h => h.why == .stage && qpIx h.cmd.fn h.cmd.queue == k))

/-- The reservation of a command fits, and no starved queue is to be served before it (R91). -/
def stageOk (s : State) (c : Cmd) (n : Nat) : Bool :=
  n == 0 || (stageFits s n && (match starvedNow s with
    | some k => k == qpIx c.fn c.queue
    | none => true))

/-- A reservation of release staging is waiting: a command's, or an item's (R91). -/
def stageFull (s : State) : Bool :=
  s.gth.held.any (fun h => h.why == .stage)
    || s.gth.batches.any (fun e => e.2.todo != [] && !stageOk s e.2.plan.cmd e.2.plan.staged)

/-- STAGE_FULL set by what led from `s` to `t` is noted (R72). -/
def stageNote (s t : State) : State := if stageFull t && !stageFull s then gthInt t 3 else t

/-- Hold a command: behind the held ones, or again at the head when it had been held before. -/
def holdCmd (s : State) (c : Cmd) (why : HoldWhy) (plan : Option Job) (old : Option Held) : State :=
  let since : Nat := match old with
    | some x => if x.why = why then x.since else s.tick
    | none => s.tick
  let h : Held := { cmd := c, why := why, since := since, tick := now s, plan := plan }
  let s1 := { s with gth := { s.gth with held := if old.isSome then h :: s.gth.held else s.gth.held ++ [h] } }
  if (old.map (fun x => x.why)) = some why then s1
  else match why with
    | .fence => pmcDev s1 166 1
    | .stage => stageNote s s1
    | .ots => { s1 with kst := { s1.kst with otsStall := satInc 32 s1.kst.otsStall } }
    | _ => s1

/-! The meter path (R136) -/

def secondNow (s : State) : Nat := s.tick / 2 ^ 20

/-- Advances made in the present second, in all and of one meter. -/
def otsAllNow (s : State) : Nat := if s.kst.otsSecond = secondNow s then s.kst.otsAll else 0
def otsMeterNow (s : State) (i : Nat) : Nat :=
  if s.kst.otsSecond = secondNow s then kget (fun _ => 0) s.kst.otsMeter i else 0

/-- A job that draws one-time-signature indices. -/
def isOts (j : Job) : Bool := signsOts j.cmd && (j.attrA.map (fun x => attrFlag x flMetered && x.meterKind == 3)).getD false
def meterIx (a : Option Attr) : Nat := (a.map (fun x => x.meter)).getD 0

/-- The advance of a command would stay within 5 M/s in all and 2 M/s for the meter. -/
def otsRoom (s : State) (j : Job) : Bool :=
  !isOts j ||
    (decide (otsAllNow s + items j.cmd ≤ 5000000) && decide (otsMeterNow s (meterIx j.attrA) + items j.cmd ≤ 2000000))

def otsSpend (s : State) (j : Job) : State :=
  if isOts j then
    let m := meterIx j.attrA
    let fresh := s.kst.otsSecond ≠ secondNow s
    { s with kst := { s.kst with
        otsSecond := secondNow s, otsAll := otsAllNow s + items j.cmd,
        otsMeter := kset (fun _ => 0) (if fresh then [] else s.kst.otsMeter) m (otsMeterNow s m + items j.cmd) } }
  else s

/-! Passing a job on (R18 step 4) -/

/-- Both meters cover their charges, the second after the first (R135). -/
def chargesFit (s : State) (j : Job) : Bool :=
  (match j.attrA with
    | some a => meterCovers s a (chargeOf j.cmd a)
    | none => true)
  && (match j.attrB with
    | some b => meterCovers (match j.attrA with
        | some a => meterCharge s a (chargeOf j.cmd a)
        | none => s) b (chargeOf j.cmd b)
    | none => true)

def chargeJob (s : State) (j : Job) : State :=
  let s1 := match j.attrA with
    | some a => meterCharge s a (chargeOf j.cmd a)
    | none => s
  match j.attrB with
    | some b => meterCharge s1 b (chargeOf j.cmd b)
    | none => s1

/-- Each of the `n` jobs of a command waits to load its keys (R20). -/
def addUses (s : State) (j : Job) (n : Nat) : State :=
  let add (s : State) (u : Option Nat) : State := match u with
    | some b => (List.range n).foldl (fun s _ => addWaiting s b) s
    | none => s
  add (add s j.useA) j.useB

/-- Jobs that a planned command will load its keys for on this unit: those of a spread batch are known when its shares are
given. -/
def planLoads (c : Cmd) : Nat := if flSpread c then 1 else items c

/-- A planned command keeps its keys from being freed, while it waits and until its jobs have loaded them (R20). -/
def holdUses (s : State) (j : Job) : State := addUses s j (planLoads j.cmd)

/-- The plan is given up. -/
def dropPlan (s : State) (j : Job) : State := (List.range (planLoads j.cmd)).foldl (fun s _ => dropUses s j) s

/-- The stream of an accepted segment, opened or continued, and which it is (R82). -/
def takeSegment (s : State) (c : Cmd) : State × Nat :=
  if !isStream c.desc.opcode then (s, 0)
  else match findStream s c.fn (streamNo c) with
    | none =>
        (openStream s { streamNew c with
          declared := if c.desc.auxAddr = 2 ^ 64 - 1 then none else some c.desc.auxAddr, total := c.desc.inLen,
          text := segText c, busy := 1, ended := segLast c }, s.gth.nextJob)
    | some x =>
        (putStream s { x with total := x.total + c.desc.inLen, text := x.text + segText c, busy := x.busy + 1,
                              ended := segLast c }, x.ident)

/-- The stream a planned segment was to open is still free, or the one it was to continue is still open (R82). -/
def segmentFits (s : State) (j : Job) : Bool :=
  !isStream j.cmd.desc.opcode || ((findStream s j.cmd.fn (streamNo j.cmd)).map (fun x => x.ident)).getD 0 == j.stream

/-- The engine ticks a job counts in the tenant view (R369). -/
def viewJob (s : State) (j : Job) (n : Nat) : State := viewAdd s j.cmd.fn (if isPool j then 11 else 10) (n * j.load)

/-! Batches (R81) -/

/-- The job of item `i`, its input at place `k`. -/
def itemJob (b : Batch) (n i k : Nat) : Job :=
  let len := b.plan.cmd.desc.inLen
  { b.plan with cmd := { b.plan.cmd with input := (b.plan.cmd.input.drop (k * len)).take len, aux := [] },
                item := some i, batch := some n, index := b.plan.index + i }

/-- No item is planned while its part of the device is loaded beyond its horizon (R92, R285). -/
def itemsPaused (s : State) (j : Job) : Bool := if isPool j then poolPaused s else horizonPaused s

/-- Plan the items of a batch whose reservations fit. -/
def planItems : Nat → State → Nat → State
  | 0, s, _ => s
  | f + 1, s, n =>
      match getBatch s n with
      | none => s
      | some b => match b.todo with
        | [] => s
        | (i, k) :: rest =>
            if itemsPaused s b.plan || !stageOk s b.plan.cmd b.plan.staged then s
            else match planJob s (itemJob b n i k) with
              | none => s
              | some (s1, _) => planItems f (setBatch s1 n { b with todo := rest }) n

def planBatch (s : State) (n : Nat) : State :=
  match getBatch s n with
  | some b => planItems b.todo.length s n
  | none => s

/-- A batch of items with their indexes; its number. -/
def newBatch (s : State) (j : Job) (ids : List (Nat × Nat)) (count left : Nat) (spread : Bool) : State × Nat :=
  let n := s.gth.nextJob
  let b : Batch := { plan := { j with batch := some n }, todo := ids, count := count, left := left, ok := 0, spread := spread }
  ({ s with gth := { s.gth with nextJob := n + 1, batches := kins s.gth.batches n b } }, n)

/-! Spread batches (R344) -/

/-- The units that take part, in address order, with their PAVILIONS figures: this unit and the participants. -/
def spreadUnits (s : State) : List (Nat × Nat) :=
  (List.range (parkN s)).filterMap (fun u =>
    let p := if isSelf s u then (pavsInService s).length else if (participants s).contains u then peerPavs (getPeer s u) else 0
    if p = 0 then none else some (u, p))

/-- Shares of `count` items: in proportion, rounded down, the remainder one by one to the lowest addresses. -/
def shareSizes (count : Nat) (units : List (Nat × Nat)) : List (Nat × Nat) :=
  let total := units.foldl (fun n e => n + e.2) 0
  let base := units.map (fun e => (e.1, if total = 0 then 0 else count * e.2 / total))
  let left := count - base.foldl (fun n e => n + e.2) 0
  (List.zip (List.range base.length) base).map (fun e => (e.2.1, e.2.2 + (if e.1 < left then 1 else 0)))

/-- Cut a list of items into contiguous shares. -/
def cutShares : List (Nat × Nat) → List (Nat × Nat) → List (Nat × List (Nat × Nat))
  | [], _ => []
  | (u, n) :: r, l => (u, l.take n) :: cutShares r (l.drop n)

/-- SPREAD_ITEMS for a share: the batch, the tenant, the batch's acceptance tick, the descriptor, and each item's index and
input. -/
def sendShare (s : State) (b : Batch) (n u : Nat) (l : List (Nat × Nat)) : State :=
  let len := b.plan.cmd.desc.inLen
  let body := leBytes 4 n ++ leBytes 2 (tenantOf s b.plan.cmd.fn) ++ leBytes 8 b.plan.accepted ++ descBytes b.plan.cmd.desc ++ leBytes 4 l.length
    ++ l.flatMap (fun e => leBytes 4 e.1 ++ (b.plan.cmd.input.drop (e.2 * len)).take len)
  pmcDev { sendTo s u 0x30 body with prk := { (sendTo s u 0x30 body).prk with
    spreadOut := satInc 32 s.prk.spreadOut } } 195 l.length

/-- Give shares of a list of items of batch `n` to units: this unit's own part is planned here, the others are sent. -/
def giveShares (s : State) (n : Nat) (l : List (Nat × Nat)) (units : List (Nat × Nat)) (first : Bool) : State :=
  (cutShares (shareSizes l.length units) l).foldl (fun s e =>
    match getBatch s n with
    | none => s
    | some b =>
        if e.2 = [] then s
        else
          let ids := e.2.map (fun x => x.1)
          let shares := match s.prk.shares.find? (fun x => x.batch == n && x.unit == e.1) with
            | some _ => s.prk.shares.map (fun x => if x.batch = n ∧ x.unit = e.1 then { x with items := x.items ++ ids } else x)
            | none => s.prk.shares ++ [{ batch := n, fn := b.plan.cmd.fn, unit := e.1, items := ids,
                                         assigned := if first then ids.length else 0, ok := 0, failed := 0, outcome := 0 }]
          let s1 := { s with prk := { s.prk with shares := shares } }
          if isSelf s e.1 then
            let c := b.plan.cmd
            let part := { b.plan with cmd := { c with desc := { c.desc with auxLen := e.2.length } } }
            planBatch (setBatch (addUses (chargeJob s1 part) b.plan e.2.length) n { b with todo := b.todo ++ e.2 }) n
          else sendShare s1 b n e.1 e.2) s

/-- The items of a whole batch, in order. -/
def allItems (c : Cmd) : List (Nat × Nat) := (List.range (items c)).map (fun i => (i, i))

/-- A spread batch: shares for every unit; this unit's waits and meters count for its own items only. -/
def spreadBegin (s : State) (j : Job) : State :=
  let r := newBatch s j [] (items j.cmd) (items j.cmd) true
  giveShares r.1 r.2 (allItems j.cmd) (spreadUnits r.1) true

/-! Acceptance -/

/-- Pass an accepted command on: charge, count, plan. -/
def passJob (s : State) (j : Job) : State :=
  let c := j.cmd
  let ix : Nat := match j.attrA with
    | some a => meterUsed s a.meter
    | none => 0
  let n := items c
  let s0 := if flSpread c then s else otsSpend (chargeJob s j) j
  let seg := takeSegment (countAccept s0 c) c
  let j1 := { j with index := ix, waitOts := isOts j, stream := seg.2 }
  let s1 := viewJob seg.1 j1 n
  if flSpread c then stageNote s (dropPlan (spreadBegin s1 j1) j1)
  else if flBatch c then
    let r := newBatch s1 j1 (allItems c) n n false
    stageNote s (planBatch r.1 r.2)
  else match planJob s1 j1 with
    | none => completeReject (dropPlan s j) c stDenied 0x02C6
    | some (s2, _) => s2

/-- Check 9 and the meter path on a planned command, then the pass; `fresh`: it has not been held after its plan. -/
def commitPlan (s : State) (j : Job) (rng : Bool) (old : Option Held) : State :=
  let c := j.cmd
  let fail (s : State) (st dt : Nat) := completeReject (dropPlan s j) c st dt
  if rng && !kilnReleasing s then
    if s.rng.st = .raw ∨ s.rng.st = .failed then fail s (kilnStatus s).1 (kilnStatus s).2
    else holdCmd s c .rng (some j) old
  else if !otsRoom s j then holdCmd s c .ots (some j) old
  else if !chargesFit s j then fail (countExhausted s stExhausted) stExhausted 0
  else if !segmentFits s j then fail s stParam 0x0027
  else passJob s j

/-- A G command past checks 1 and 2. -/
def acceptG (s : State) (c : Cmd) (old : Option Held) : State :=
  match planG s c with
  | .error e => refuse s c e
  | .ok (j, rng) =>
      if !stageOk s c j.staged then holdCmd s c .stage none old
      else
        let s1 := if s.gth.starved = some (qpIx c.fn c.queue) then { s with gth := { s.gth with starved := none } } else s
        commitPlan (holdUses (enter s1 c) j) j rng old

/-- KEY_SAVE with COLD past checks 1 and 2. -/
def acceptCold (s : State) (c : Cmd) (old : Option Held) : State :=
  match planCold s c with
  | .error e => refuse s c e
  | .ok (j, rng) => commitPlan (holdUses (enter s c) j) j rng old

/-- A command at the head of its queue: the holds before acceptance, the checks, its way on. -/
def consider (s : State) (c0 : Cmd) (old : Option Held) : State :=
  let c := { normCmd c0 with entered := now s }
  let q := getQp s (qpIx c.fn c.queue)
  let behind := if tracked c then decide (0 < q.inFlight)
    else (match kfind s.ldg.parts ((c.queue - 256) % 64) with
      | some a => decide (1 < a.gateOut)
      | none => false)
  if ideBlocked s then holdCmd s c0 .ide none old
  else if flFence c && behind then holdCmd s c0 .fence none old
  else if horizonPaused s then holdCmd s c0 .horizon none old
  else if poolCmd c && poolPaused s then holdCmd s c0 .poolHorizon none old
  else if isCritical c.desc.opcode && critFull s then holdCmd s c0 .fence none old
  else match (do
    check1 s c
    check2 s c : Res Unit) with
  | .error e =>
      let s1 := if e.1 = stDma then dmaNote s c else s
      refuse s1 c e
  | .ok _ =>
      if modeLimit s c then refuse (closeStream s c.fn (streamNo c)) c (stLength, 0x01A4)
      else if isCritical c.desc.opcode then
        if c.dma = .payloadFails ∨ c.dma = .authFails then refuse (dmaNote s c) c (stDma, 0)
        else critEnqueue perform (countAccept (enter s c) c) c
      else if coldSave c then acceptCold s c old
      else if opRel c.desc.opcode = some .immediate then serve c (countAccept (enter s c) c)
      else acceptG s c old

/-- A command that arrives: behind the held commands of its queue, if any (R84). Schedule entries and releases due at this
tick come before it (R45, R50). -/
def accept (c : Cmd) (s0 : State) : State :=
  let s := settle s0
  if s.gth.held.any (fun h => h.cmd.fn == c.fn && h.cmd.queue == c.queue) then holdCmd s c .order none none
  else consider s c none

/-! Held commands go on -/

/-- Take the first held command of a queue out of the list. -/
def takeFirst (p : Held → Bool) : List Held → List Held
  | [] => []
  | h :: r => if p h then r else h :: takeFirst p r

/-- A held command tries again; while commands of the queue are accepted, those behind follow. -/
def retryGo : Nat → State → Held → State
  | 0, s, _ => s
  | f + 1, s, h =>
      let s0 := { s with gth := { s.gth with held := takeFirst (fun x => sameQueue x h.cmd) s.gth.held } }
      let s1 := match h.plan with
        | some j => commitPlan s0 j (h.why == HoldWhy.rng) (some h)
        | none => consider s0 h.cmd (some h)
      match s1.gth.held.find? (fun x => sameQueue x h.cmd) with
      | some x => if x.why = HoldWhy.order then retryGo f s1 x else s1
      | none => s1

/-- Every head held for a reason tries again, in the order held. -/
def retryWhere (s0 : State) (p : Held → Bool) : State :=
  let s := settle s0
  ((heads s).filter p).foldl (fun s h =>
    match s.gth.held.find? (fun x => sameQueue x h.cmd) with
    | some x => if p x then retryGo (s.gth.held.length + 1) s x else s
    | none => s) s

/-! The descriptor of an opcode row -/

/-- Configuration space is ready (R60). -/
def cfgReady (s : State) : Bool := match s.gth.cfgReset with
  | none => true
  | some t => decide (t ≤ s.tick)

/-- The host reaches the registers of the part: link up, configuration space ready (R60, R444). -/
def hostReach (s : State) : Bool := live s && s.gth.linkUp && cfgReady s

/-- May the gatehouse fetch from a function at all (R60, R61, R63, R66, R72, R358, R430, R450, R451)? -/
def mayFetch (s : State) (fn : Nat) : Bool :=
  hostReach s && s.gth.fetchEn && !s.gth.d3hot
    && !ideBlocked s
    && s.lcs.step.isNone
    && (match s.boot.request with
      | some r => !(decide (1 ≤ r.cause ∧ r.cause ≤ 3))
      | none => true)
    && (s.boot.shutdown == [] || fn == 0)
    && (!isVf fn || ((getVf s fn).st == .serving || (getVf s fn).st == .unbound) && !(getVf s fn).flrBusy)

/-- An opcode row: a fetched descriptor with that opcode. While nothing is fetched from the function, the descriptor
waits in host memory. -/
def fetched (op : Nat) (c : Cmd) (s : State) : Host.Outcome State Fault Refusal :=
  answer s (if mayFetch s (c.fn % 1024) then
    accept { c with fn := c.fn % 1024, queue := c.queue % 16, desc := { c.desc with opcode := op } } s else s)

/-- The same with a parameter set fixed by the row. -/
def fetchedSet (op ps : Nat) (c : Cmd) (s : State) : Host.Outcome State Fault Refusal :=
  fetched op { c with desc := { c.desc with select := c.desc.select / 65536 * 65536 + ps } } s

end Sys2Proof.Machine
end

