-- ==== Sys2Proof/Machine/Gatehouse.lean ====
section
/-! DEFINITION. The gatehouse's own events: the arbiter and descriptor fetches (03_gatehouse.md R65 to R68, R93), queue pairs
and doorbells (R64 to R67), the ends of holds (R84, R91, R92; 01 R18; 05 R136; 10 R285), function-level and conventional
resets (R60; 13_tenancy.md R361 to R363), power states, DOE and IDE (R61 to R63). -/

namespace Sys2Proof.Machine

/-! Queue errors (R68) -/

/-- A queue error: the queue stops; the function's and the block's error registers keep the first. -/
def queueError (s : State) (fn q cause : Nat) : State :=
  let s1 := setQp s (qpIx fn q) { getQp s (qpIx fn q) with error := true }
  let g := s1.gth
  let e := kget (fun _ => (0, 0, 0)) g.vfErr fn
  let g1 := if fn = 0 then { g with qerr := g.qerr ||| 2 ^ q }
    else { g with vfErr := kset (fun _ => (0, 0, 0)) g.vfErr fn
                    (if e.1 = 0 then (2 ^ q, q, cause) else (e.1 ||| 2 ^ q, e.2.1, e.2.2)) }
  let g2 := if g.intStatus.testBit 0 then g1 else { g1 with qerrFn := fn, qerrQueue := q, qerrCause := cause }
  record (gthInt { s1 with gth := g2 } 0) 0x0102 fn sevWarning (recTenant s fn) (payCommand 0 fn 0 0 (cause + 16 * q) 0 0 0)

/-! The arbiter (R65, R93) -/

/-- May the next descriptor of a queue be fetched, as far as the gatehouse itself can tell? -/
def queueReady (s : State) (k : Nat) : Bool :=
  let q := getQp s k
  q.enable && !q.error && q.sqHead != q.sqTail && decide (q.fetched < q.depthM1) && mayFetch s (k / 16)
    && !s.gth.held.any (fun h => qpIx h.cmd.fn h.cmd.queue == k)

/-- The arbiter still passes over a queue because of the command at its head. -/
def queuePassed (s : State) (k : Nat) : Bool :=
  s.gth.passed.any (fun e => e.1 == k && (if e.2 then poolPaused s else critFull s))

def readyQueues (s : State) : List Nat := (s.gth.qp.map (fun e => e.1)).filter (fun k => queueReady s k && !queuePassed s k)

/-- The first element after `x` in a rising list, or the first of all. -/
def nextAfter (x : Nat) (l : List Nat) : Option Nat := (l.find? (fun y => decide (x < y))).or l.head?

/-- The queue the arbiter serves next: round robin over functions, weighted round robin within one. -/
def arbPick (s : State) : Option Nat :=
  let l := readyQueues s
  match nextAfter s.gth.arbFn (l.map (fun k => k / 16)) with
  | none => none
  | some fn =>
      let own := (l.filter (fun k => k / 16 == fn)).map (fun k => k % 16)
      let p := kget (fun _ => (16, 0)) s.gth.arbPos fn
      if 0 < p.2 ∧ own.contains p.1 then some (qpIx fn p.1)
      else (nextAfter p.1 own).map (qpIx fn)

/-- The arbiter has served a queue. -/
def arbServe (s : State) (k : Nat) : State :=
  let fn := k / 16
  let p := kget (fun _ => (16, 0)) s.gth.arbPos fn
  let credit := if 0 < p.2 ∧ p.1 = k % 16 then p.2 - 1 else max 1 (getQp s k).weight - 1
  { s with gth := { s.gth with
      arbFn := fn, arbPos := kset (fun _ => (16, 0)) s.gth.arbPos fn (k % 16, credit),
      passed := s.gth.passed.filter (fun e => e.1 != k) } }

/-- The arbiter passes over a queue whose turn it is, as long as the mailbox is full or (`pool`) the pool paused: it looks for
its next choice among the others. -/
def arbPass (s : State) (k : Nat) (pool : Bool) : State := { s with gth := { s.gth with passed := (k, pool) :: s.gth.passed.filter (fun e => e.1 != k) } }

/-- DESCRIPTOR_FETCH: the arbiter reads the descriptor at the head of the queue it has chosen. A queue headed by a critical
command while the mailbox is full, or by a pool command while the pool is paused, is passed over. -/
def execDescriptorFetch (c : Cmd) (readFails : Bool) (s : State) : Host.Outcome State Fault Refusal :=
  let k := qpIx (c.fn % 1024) (c.queue % 16)
  answer s (if !queueReady s k || horizonPaused s || arbPick s != some k then s
    else if critFull s && isCritical c.desc.opcode then arbPass s k false
    else if poolPaused s && poolCmd c then arbPass s k true
    else
      let q := getQp s k
      let s1 := arbServe s k
      if readFails then queueError s1 (k / 16) (k % 16) 3
      else
        let q' := { q with sqHead := (q.sqHead + 1) % (q.depthM1 + 1), fetched := q.fetched + 1, headMoved := true }
        accept { c with fn := k / 16, queue := k % 16 } (pmcDev (setQp s1 k q') 160 1))

/-! Doorbells and enables (R64 to R67) -/

/-- Is a queue pair there? -/
def queueIs (fn q : Nat) : Bool := decide (fn < 1024) && (pairsOf fn).contains q

/-- Steps from index `a` forward to `b` in a ring. -/
def ringDist (d a b : Nat) : Nat := (b + d - a) % d

/-- SQ_TAIL. -/
def sqTailWrite (fn q v : Nat) (s : State) : State :=
  let k := qpIx fn q
  let p := getQp s k
  let d := p.depthM1 + 1
  if !queueIs fn q || !hostReach s || !p.enable then s
  else if d ≤ v then queueError s fn q 2
  else if p.depthM1 < ringDist d p.sqHead p.sqTail + ringDist d p.sqTail v then queueError s fn q 2
  else setQp s k { p with sqTail := v }

def execSqTail (fn : Fin 1024) (q : Fin 16) (value : BitVec 32) (s : State) : Host.Outcome State Fault Refusal :=
  answer s (sqTailWrite fn.val q.val (value.toNat % 65536) s)

/-- CQ_HEAD. -/
def cqHeadWrite (fn q v : Nat) (s : State) : State :=
  let k := qpIx fn q
  let p := getQp s k
  let d := p.depthM1 + 1
  if !queueIs fn q || !hostReach s || !p.enable then s
  else if d ≤ v ∨ ringDist d p.cqHead p.cqTail < ringDist d p.cqHead v then queueError s fn q 2
  else setQp s k { p with cqHead := v, fetched := p.fetched - ringDist d p.cqHead v }

def execCqHead (fn : Fin 1024) (q : Fin 16) (value : BitVec 32) (s : State) : Host.Outcome State Fault Refusal :=
  answer s (cqHeadWrite fn.val q.val (value.toNat % 65536) s)

/-- The fields of QP_CFG a write sets; DEPTH_M1 only while disabled. -/
def cfgFields (p : QPair) (v : Nat) : QPair :=
  { p with depthM1 := if p.enable then p.depthM1 else v % 65536, vector := v / 2 ^ 17 % 64, intEn := v.testBit 23,
           weight := v / 2 ^ 24 % 16 }

/-- A configuration that starts a queue (R66). -/
def cfgValid (fn : Nat) (p : QPair) : Bool :=
  p.depthM1 != 0 && p.sqBase % 4096 == 0 && p.cqBase % 4096 == 0 && decide (p.vector < (if fn = 0 then 48 else 4))

/-- Drop the commands of a queue, or of a function, that were fetched and not yet accepted. -/
def dropHeld (s : State) (p : Held → Bool) : State :=
  { s with gth := { s.gth with held := s.gth.held.filter (fun h => !(h.plan.isNone && p h)) } }

/-- A write of QP_CFG. -/
def qpCfgWrite (fn q v : Nat) (s : State) : State :=
  let k := qpIx fn q
  let p := getQp s k
  let p1 := cfgFields p v
  if !queueIs fn q || !hostReach s then s
  else if v.testBit 16 then
    let s1 := if fn = 0 then s else { s with gth := { s.gth with vfEnable := true } }
    if !cfgValid fn p1 then queueError (setQp s1 k p1) fn q 1
    else if p.enable then setQp s1 k p1
    else
      let s2 := { s1 with gth := { s1.gth with passed := s1.gth.passed.filter (fun e => e.1 != k) } }
      setQp s2 k { p1 with enable := true, error := false, sqTail := 0, sqHead := 0, cqTail := 0, cqHead := 0, fetched := 0,
                           headMoved := false, tailTick := s.tick, msiTick := none, tailDue := false, msiDue := false }
  else
    let p2 := { p1 with enable := false }
    dropHeld (setQp s k p2) (fun h => h.cmd.fn == fn && h.cmd.queue == q)

/-- QP_ENABLE: a write of QP_CFG with ENABLE = 1. -/
def execQpEnable (fn : Fin 1024) (q : Fin 16) (value : BitVec 32) (s : State) : Host.Outcome State Fault Refusal :=
  answer s (qpCfgWrite fn.val q.val (value ||| 0x10000).toNat s)

/-- QP_DISABLE: a write of QP_CFG with ENABLE = 0. -/
def execQpDisable (fn : Fin 1024) (q : Fin 16) (value : BitVec 32) (s : State) : Host.Outcome State Fault Refusal :=
  answer s (qpCfgWrite fn.val q.val (value &&& 0xFFFEFFFF).toNat s)

/-- FETCH_EN: a write of GTH_CTL. -/
def execFetchEn (on : Bool) (s : State) : Host.Outcome State Fault Refusal :=
  answer s (if hostReach s then { s with gth := { s.gth with fetchEn := on } } else s)

/-- TAIL_RECORD_TIMER: the tail record of every queue whose SQ_HEAD has moved, 64 ticks after the last. -/
def execTailRecordTimer (s : State) : Host.Outcome State Fault Refusal :=
  answer s (if ideBlocked s then s
    else ((s.gth.qp.filter (fun e => e.2.headMoved && decide (e.2.tailTick + 64 ≤ s.tick))).map (fun e => e.1)).foldl
      tailWrite s)

/-! Holds that end -/

/-- FENCE_RELEASE: a held FENCE command, or one whose predecessor has gone, tries again; so does one that could not be
read, should the link be free to read it (R63). -/
def execFenceRelease (s : State) : Host.Outcome State Fault Refusal :=
  answer s (retryWhere s (fun h => h.why == .fence || h.why == .order || h.why == .ide))

/-- The items of every batch that can be planned now are planned. -/
def planBatches (s : State) : State := s.gth.batches.foldl (fun s e => planBatch s e.1) s

/-- STAGE_RESERVE: commands and batch items that wait for staging. -/
def execStageReserve (s : State) : Host.Outcome State Fault Refusal :=
  answer s (planBatches (retryWhere s (fun h => h.why == .stage)))

/-- STAGE_STARVE_TIMEOUT: a queue passed over for 1,024 ticks is served first. -/
def execStageStarveTimeout (s : State) : Host.Outcome State Fault Refusal :=
  answer s (match starvedNow s with
    | some _ => s
    | none => match (heads s).find? (fun h => h.why == .stage && decide (h.since + 1024 ≤ s.tick)) with
      | some h => { s with gth := { s.gth with starved := some (qpIx h.cmd.fn h.cmd.queue) } }
      | none => s)

/-- RNG_WAIT_TIMEOUT: 5 ms at check 9, of a command in the gatehouse or of the keeper world's. -/
def execRngWaitTimeout (s : State) : Host.Outcome State Fault Refusal :=
  let due (h : Held) : Bool := h.why == .rng && decide (h.since + 5243 ≤ s.tick)
  let s1 := (s.gth.held.filter due).foldl (fun s h => completeReject (match h.plan with
      | some j => dropPlan s j
      | none => s) h.cmd stNotReady 0)
    { s with gth := { s.gth with held := s.gth.held.filter (fun h => !due h) } }
  answer s (match s1.aut.kilnWait with
    | some t => if t + 5243 ≤ s1.tick ∧ wireStalls s1 then keeperNext (kilnWaitEnd s1 stNotReady 0) else s1
    | none => s1)

/-- HORIZON_RESUME (R92). -/
def execHorizonResume (s : State) : Host.Outcome State Fault Refusal :=
  answer s (if horizonPaused s then s else planBatches (retryWhere s (fun h => h.why == .horizon)))

/-- POOL_HORIZON_RESUME (R285). -/
def execPoolHorizonResume (s : State) : Host.Outcome State Fault Refusal :=
  answer s (if poolPaused s then s else planBatches (retryWhere s (fun h => h.why == .poolHorizon)))

/-- OTS_STALL_END (R136). -/
def execOtsStallEnd (s : State) : Host.Outcome State Fault Refusal := answer s (retryWhere s (fun h => h.why == .ots))

/-- OTS_ADVANCE_CONFIRM (R136): the peat domain has confirmed the advance of a job's command. -/
def execOtsAdvanceConfirm (job : Nat) (s : State) : Host.Outcome State Fault Refusal :=
  answer s (match getJob s job with
    | none => s
    | some j =>
        if !j.waitOts then s
        else match j.batch with
          | none => pmcDev (setJob s job { j with waitOts := false }) 181 1
          | some n =>
              let s1 := { s with gth := { s.gth with
                jobs := kmap (fun _ k => if k.batch = some n then { k with waitOts := false } else k) s.gth.jobs,
                batches := kmap (fun m b => if m = n then { b with plan := { b.plan with waitOts := false } } else b)
                             s.gth.batches } }
              pmcDev s1 181 (items j.cmd))

/-- A command that waits for the generation feed goes on. -/
def feedWake (s : State) : State := keeperNext (enrolWake perform (kilnWake perform s))

/-- RESEED_DUE. -/
def execReseedDue (inst : Fin 5) (s : State) : Host.Outcome State Fault Refusal := answer s (reseedDue feedWake inst.val s)

/-- What a failed window or known-answer test leads to when it stops the kiln: an enrolment that waits fails, the keeper world goes on. -/
def afterWindow (s t : State) : State := if kilnStopped t && !kilnStopped s then keeperNext (enrolWake perform t) else t

/-- SOURCE_WINDOW. -/
def execSourceWindow (src : Fin 8) (samples : Bytes) (alive beat : Nat) (s : State) : Host.Outcome State Fault Refusal :=
  answer s (afterWindow s (sourceWindow src.val samples alive beat s))

/-- REPETITION_FAIL. -/
def execRepetitionFail (src : Fin 8) (s : State) : Host.Outcome State Fault Refusal :=
  answer s (afterWindow s (repetitionFail src.val s))

/-- INSTANTIATE: the commands held at check 9 go on. -/
def execInstantiate (kat : Bool) (s : State) : Host.Outcome State Fault Refusal :=
  answer s (afterWindow s (instantiateAll (fun s => feedWake (retryWhere s (fun h => h.why == .rng))) kat s))

/-! Function-level resets (R361 to R363) -/

/-- Items of a dropped batch that no job carries load no key. -/
def dropTodo (s : State) (n : Nat) (b : Batch) : State :=
  dropBatch ((List.range b.todo.length).foldl (fun s _ => dropUses s b.plan) s) n

/-- Critical commands of a function that have not committed are dropped. -/
def dropCritical (s : State) (n : Nat) : State :=
  let gone := s.aut.mailbox.filter (fun c => c.fn == n)
  let s1 := gone.foldl squashNote { s with aut := { s.aut with mailbox := s.aut.mailbox.filter (fun c => c.fn != n) } }
  let s2 := match s1.aut.wait with
    | some w => if w.cmd.fn = n then squashNote (clearWait s1) w.cmd else s1
    | none => s1
  match s2.aut.busy with
  | some c =>
      if c.fn ≠ n then s2
      else
        let own (t : Txn) : Bool := match t.cmd with
          | some d => d.fn == n
          | none => false
        let s3 := (s2.prk.txns.filter (fun t => own t && t.commitFirst.isNone)).foldl (fun s t =>
          txnAbort (fun s => s) (squashNote s c) { t with cmd := none } 0 0 0) s2
        { s3 with
          prk := { s3.prk with txns := s3.prk.txns.map (fun t => if own t then { t with cmd := none } else t) },
          aut := { s3.aut with busy := none, kilnWait := none } }
  | none => s2

/-- Applet calls of a function are dropped. -/
def dropCalls (s : State) (n : Nat) : State :=
  s.ldg.parts.foldl (fun s e =>
    match kfind s.ldg.parts e.1 with
    | none => s
    | some a =>
        let s1 := (a.queue.filter (fun c => c.fn == n)).foldl squashNote
          (setPart s e.1 { a with queue := a.queue.filter (fun c => c.fn != n) })
        match a.running with
        | some r =>
            if r.cmd.fn ≠ n then s1
            else squashNote (afterCall (freeCore (setPart s1 e.1 { a with
              queue := a.queue.filter (fun c => c.fn != n), running := none, gateOut := 0 }) e.1) e.1) r.cmd
        | none => s1) s

/-- Reads of the kiln's port by a function are dropped. -/
def dropReads (s : State) (n : Nat) : State :=
  let s1 := (s.rng.ports.filter (fun r => r.cmd.fn == n)).foldl (fun s r => squashNote s r.cmd)
    { s with rng := { s.rng with ports := s.rng.ports.filter (fun r => r.cmd.fn != n) } }
  (s1.rng.rawReads.filter (fun r => r.cmd.fn == n)).foldl (fun s r => squashNote s r.cmd)
    { s1 with rng := { s1.rng with rawReads := s1.rng.rawReads.filter (fun r => r.cmd.fn != n) } }

/-- Steps 1 to 4, 6 and 7 of R361: everything of the VF is dropped or squashed. -/
def flrDrain (s : State) (n : Nat) : State :=
  let s1 := (s.gth.held.filter (fun h => h.cmd.fn == n && h.plan.isSome)).foldl (fun s h => match h.plan with
      | some j => squashNote (dropPlan s j) j.cmd
      | none => s)
    { s with gth := { s.gth with
        held := s.gth.held.filter (fun h => h.cmd.fn != n),
        ideHeld := s.gth.ideHeld.filter (fun o => match o with
          | .completion fn _ _ => fn != n
          | .data fn _ _ _ _ => fn != n
          | .itemStatus fn _ _ _ _ _ _ _ => fn != n
          | .summary fn _ _ _ => fn != n
          | _ => true) } }
  let s2 := { s1 with gth := { s1.gth with
    jobs := kfilter (fun _ j => !(j.cmd.fn == n && !jobOpen j)) s1.gth.jobs } }
  let s3 := (s2.gth.batches.filter (fun e => e.2.plan.cmd.fn == n)).foldl (fun s e => dropTodo s e.1 e.2) s2
  let s4 := abortWhere s3 (fun j => j.cmd.fn == n) stSquashed 0 (fun s _ => now s)
  let s5 := { s4 with prk := { s4.prk with shares := s4.prk.shares.filter (fun x => x.fn != n) } }
  keeperNext (dropReads (dropCalls (dropCritical (closeStreams (releaseSquashed s5) n) n) n) n)

/-- A function-level reset of a VF begins: F. -/
def flrBegin (s : State) (n : Nat) : State :=
  let v := getVf s n
  if v.flrBusy then s
  else
    let plain := v.st == .quiesced || v.st == .frozen
    let s1 := setVf s n { v with flrBusy := true, flrTick := s.tick, flrPlain := plain }
    if plain then disableQueues s1 n else flrDrain s1 n

/-- FLR_VF. -/
def execFlrVf (vf : Fin 1024) (s : State) : Host.Outcome State Fault Refusal :=
  answer s (if vf.val = 0 ∨ !hostReach s then s else flrBegin s vf.val)

/-- FLR_READ_ABANDON: reads of the VF still outstanding at F + 944 are abandoned, with whatever job they belong to. -/
def execFlrReadAbandon (vf : Fin 1024) (s : State) : Host.Outcome State Fault Refusal :=
  let v := getVf s vf.val
  answer s (if vf.val = 0 ∨ !v.flrBusy ∨ s.tick < v.flrTick + 944 then s
    else releaseSquashed (abortWhere s (fun j => j.cmd.fn == vf.val) stSquashed 0 (fun s _ => now s)))

/-- Step 8 of R361: the queues of the VF are disabled, ERROR and QERR cleared. -/
def flrEnd (s : State) (n : Nat) : State :=
  let s1 := (pairsOf n).foldl (fun s q => setQp s (qpIx n q) { getQp s (qpIx n q) with
    enable := false, error := false, inFlight := 0, fetched := 0, headMoved := false, tailDue := false, msiDue := false }) s
  let s2 := { s1 with gth := { s1.gth with vfErr := kdel s1.gth.vfErr n } }
  let s3 := setVf s2 n { getVf s2 n with flrBusy := false, flrTick := 0, flrPlain := false }
  quiesceEnd s3 n

/-- FLR_COMPLETE: at F + 1,048. -/
def execFlrComplete (vf : Fin 1024) (s : State) : Host.Outcome State Fault Refusal :=
  let v := getVf s vf.val
  answer s (if vf.val = 0 ∨ !v.flrBusy ∨ s.tick < v.flrTick + 1048 then s else flrEnd s vf.val)

/-- A queue of the VF holds an error, or its error register does (R68). -/
def vfFaulted (s : State) (n : Nat) : Bool :=
  (kfind s.gth.vfErr n).isSome || (pairsOf n).any (fun q => (getQp s (qpIx n q)).error)

/-- The VFs that hold anything: bound ones, and those with a queue enabled or in error. -/
def liveVfs (s : State) : List Nat :=
  (List.range 1024).filter (fun n => 1 ≤ n && (getVf s n != vfReset || !queuesOff s n || vfFaulted s n))

/-- A PF function-level reset: VF Enable is cleared and every VF is reset; the PF's queues are disabled. -/
def pfReset (s : State) : State :=
  let s1 := (liveVfs s).foldl flrBegin { s with gth := { s.gth with vfEnable := false } }
  dropHeld ((pairsOf 0).foldl (fun s q => setQp s (qpIx 0 q) { getQp s (qpIx 0 q) with enable := false, error := false }) s1)
    (fun h => h.cmd.fn == 0)

/-- FLR_PF. -/
def execFlrPf (s : State) : Host.Outcome State Fault Refusal := answer s (if hostReach s then pfReset s else s)

/-! The link (R60, R61, R63) -/

/-- The IDE stream leaves Secure. -/
def ideLost (s : State) : State :=
  if !s.gth.ideSecure then s
  else
    let s1 := { s with gth := { s.gth with ideSecure := false } }
    if s.gth.ideRequired then record (gthInt s1 2) 0x0106 0 sevWarning (some 0) (payCommand 0 0 0 0 0 0 0 (now s % 2 ^ 32))
    else s1

/-- CONVENTIONAL_RESET: PERST_N, a hot reset or link down. -/
def execConventionalReset (s : State) : Host.Outcome State Fault Refusal :=
  answer s (if !s.boot.pwrGood then s
    else
      let s1 := ideLost (pfReset s)
      { s1 with gth := { s1.gth with linkUp := false, linkWidth := 0, linkSpeed := 0, d3hot := false, cfgReset := none,
                                     spdm := 0, pci := pciReset, msix := [], pba := [] } })

/-- PERST_N_RISE: the link trains; configuration space is ready 20 ms later. -/
def execPerstNRise (width : Fin 16) (speed : Fin 8) (s : State) : Host.Outcome State Fault Refusal :=
  answer s (if !s.boot.pwrGood || s.gth.linkUp then s
    else { s with gth := { s.gth with linkUp := true, linkWidth := width.val, linkSpeed := speed.val,
                                      cfgReset := some (s.tick + 20972) } })

/-- D3HOT_ENTRY. -/
def execD3hotEntry (s : State) : Host.Outcome State Fault Refusal :=
  answer s (if hostReach s then { s with gth := { s.gth with d3hot := true } } else s)

/-- D0_RETURN. -/
def execD0Return (s : State) : Host.Outcome State Fault Refusal :=
  answer s (if hostReach s then { s with gth := { s.gth with d3hot := false } } else s)

/-- IDE_STREAM_SECURE: the stream takes its keys, over a secure SPDM session (R63). -/
def execIdeStreamSecure (s : State) : Host.Outcome State Fault Refusal :=
  answer s (if !hostReach s || s.gth.ideSecure || s.gth.spdm == 0 then s
    else retryWhere (ideRelease { s with gth := { s.gth with ideSecure := true } }) (fun h => h.why == .ide))

/-- IDE_STREAM_INSECURE. -/
def execIdeStreamInsecure (s : State) : Host.Outcome State Fault Refusal := answer s (ideLost s)

end Sys2Proof.Machine
end

