-- ==== Sys2Proof/Machine/IsaOps.lean ====
section
/-! DEFINITION. What every Isagil instruction shares: reading and writing registers and rows with taint, kind and
SEALED (R153 to R165, R191), the masked write of R190, the cycle cost of R189, loops and the PC (R188, R195, R196),
and the result of one instruction. -/

namespace Sys2Proof.Machine

/-- What one instruction does to its engine. -/
inductive EngRes where
  /-- the instruction retires; mask rows drawn from the fountain -/
  | ok (g : Eng) (drawn : Nat)
  /-- the job ends at this instruction, which has no effect (R174): status and detail -/
  | fault (status detail : Nat)
  /-- a halt (R219): status, detail, public-reject form -/
  | halt (g : Eng) (status detail : Nat) (reject : Bool)
  /-- the instruction waits for a port (R162, R169); the engine records what it waits for -/
  | wait (g : Eng)
deriving DecidableEq, Repr

/-- What an instruction sees outside its engine. -/
structure IsaEnv where
  /-- the counter the free values are applied to -/
  free : Nat
  /-- the Keccak core, the SHA-2 core of the pavilion that a request made now is granted, by its number within the pavilion;
  none where the request waits (R13, R169) -/
  keccakCore : Option Nat
  sha2Core : Option Nat
  /-- the overlays of the job's package (R172) -/
  overlays : List (List (BitVec 32))
  /-- the overlay's load time in cycles, by overlay (R172) -/
  loadCycles : List Nat
deriving DecidableEq, Repr

/-! Statuses and details of R174 and R192 -/

def stProgramFault : Nat := 0x0701
def stDeclassifyDenied : Nat := 0x0702
def stFaultDetected : Nat := 0x0801
def stNoMask : Nat := 0x0502

def fIllegal : EngRes := .fault stProgramFault 0x0140
def fRowRange : EngRes := .fault stProgramFault 0x0141
def fPort : EngRes := .fault stProgramFault 0x0142
def fSecretControl : EngRes := .fault stProgramFault 0x0143
def fMode : EngRes := .fault stProgramFault 0x0144
def fInputEnd : EngRes := .fault stProgramFault 0x0145
def fStage : EngRes := .fault stProgramFault 0x0146
def fOverlay : EngRes := .fault stProgramFault 0x0147
def fKeyPosition : EngRes := .fault stProgramFault 0x0148
def fSecretToPublic : EngRes := .fault stProgramFault 0x0149
def fKeyReturn : EngRes := .fault stProgramFault 0x014A
def fNest : EngRes := .fault stProgramFault 0x014B
def fLoopCount : EngRes := .fault stProgramFault 0x014C
def fKeyLength : EngRes := .fault stProgramFault 0x014D
def fStatus : EngRes := .fault stProgramFault 0x014E
def fShuffle : EngRes := .fault stProgramFault 0x014F
def fUnlisted : EngRes := .fault stDeclassifyDenied 0x0150
def fSealed : EngRes := .fault stDeclassifyDenied 0x0151
def fRng : EngRes := .fault stNoMask 0

/-! Reading -/

def vZero : VReg := { val := 0, tag := pubTag }
def sZero : SReg := { val := 0, tag := pubTag }
def pZero : PReg := { val := 0, tag := pubTag }
def rowZero : LRow := { val := 0, kind := .any, sealed := false }

def vget (g : Eng) (i : Nat) : VReg := kget (fun _ => vZero) g.v i
def sget (g : Eng) (i : Nat) : SReg := kget (fun _ => sZero) g.sc i
def pget (g : Eng) (i : Nat) : PReg := kget (fun _ => pZero) g.p i
def aget (g : Eng) (i : Nat) : Nat := kget (fun _ => 0) g.a i
def qget (g : Eng) (i : Nat) : QReg := kget (fun _ => qNone) g.q i
def rowGet (g : Eng) (i : Nat) : LRow := kget (fun _ => rowZero) g.rows i

/-- Rows of the program (R155, R157): an address at or above this faults with ROW_RANGE. -/
def rowLimit (g : Eng) : Nat := g.man.pubRows + g.man.secRows

/-- A logical row of the secret region (R155, R159). -/
def rowSecret (g : Eng) (i : Nat) : Bool := decide (g.man.pubRows ≤ i)

/-- The tag a row reads with (R159). -/
def rowTag (g : Eng) (i : Nat) : Tag :=
  if rowSecret g i then { secret := true, kind := (rowGet g i).kind, sealed := (rowGet g i).sealed } else pubTag

/-- An open shuffled loop (R196). Loops do not nest inside one, so only the innermost can be. -/
def inShuffle (g : Eng) : Bool :=
  match g.loops with
  | [] => false
  | f :: _ => f.shuffled

/-! Writing. Every v, s and p register written in a shuffled body becomes secret (R196), of the kind given. -/

def forceTag (g : Eng) (t : Tag) (k : Kind) : Tag :=
  if inShuffle g && !t.secret then { secret := true, kind := k, sealed := t.sealed } else t

def putV (g : Eng) (i : Nat) (r : Row) (t : Tag) (k : Kind) : Eng :=
  let t' := forceTag g t k
  { g with v := kset (fun _ => vZero) g.v i { val := r, tag := t' }, everSecret := g.everSecret || t'.secret }

def putS (g : Eng) (i : Nat) (x : Nat) (t : Tag) (k : Kind) : Eng :=
  let t' := forceTag g t k
  { g with sc := kset (fun _ => sZero) g.sc i { val := BitVec.ofNat 28 x, tag := t' },
           everSecret := g.everSecret || t'.secret }

def putP (g : Eng) (i : Nat) (x : BitVec 16) (t : Tag) : Eng :=
  let t' := forceTag g t .bool
  { g with p := kset (fun _ => pZero) g.p i { val := x, tag := t' }, everSecret := g.everSecret || t'.secret }

def putQ (g : Eng) (i : Nat) (q : QReg) : Eng := { g with q := kset (fun _ => qNone) g.q i q }

/-- Write an address register modulo 2,048, together with the value it would have in the natural order (R196). -/
def putA (g : Eng) (i : Nat) (x y : Nat) : Eng :=
  { g with a := kset (fun _ => 0) g.a i (x % 2048), aNat := kset (fun _ => 0) g.aNat i (y % 2048) }

def aNatGet (g : Eng) (i : Nat) : Nat := kget (fun _ => 0) g.aNat i

/-- Add a signed amount to an address register. -/
def bumpA (g : Eng) (i : Nat) (d : Int) : Eng :=
  putA g i (wrapTo 11 (aget g i + d)) (wrapTo 11 (aNatGet g i + d))

/-- Write a logical row (R160): a row of the secret region takes the register's kind, or BOOL for a public value. -/
def putRow (g : Eng) (i : Nat) (r : Row) (t : Tag) : Eng :=
  let k := if rowSecret g i then (if t.secret then t.kind else .bool) else .none
  { g with rows := kset (fun _ => rowZero) g.rows i
             { val := r, kind := k, sealed := rowSecret g i && t.sealed },
           everSecret := g.everSecret || rowSecret g i }

/-! Kinds (R191) -/

/-- A source is fit for an instruction that needs kind `k`. -/
def kindOk (k : Kind) (t : Tag) : Bool := !t.secret || t.kind == .any || t.kind == k

/-- The kind of an ARITH value under a q register, and of an ARITH scalar. -/
def arithOf (q : QReg) : Kind := .arith (match q.mode with
  | .none => 0 | .modq => 1 | .gf2m => 2 | .pair28 => 3 | .quad56 => 4) q.modulus
def arithS : Kind := .arith 0 (2 ^ 28)

/-- The one kind several secret sources share; none where they differ. -/
def joinKind : List Tag → Option Kind
  | [] => some .any
  | t :: r =>
      match joinKind r with
      | none => none
      | some k => if !t.secret || t.kind == .any then some k
                  else if k == .any || k == t.kind then some t.kind else none

/-- The tag of a computed result: secret if any source is (R159), of the kind the instruction produces. -/
def outTag (k : Kind) (ts : List Tag) : Tag :=
  if ts.any (·.secret) then { secret := true, kind := k, sealed := false } else pubTag

/-- The tag of a moved value: kind and SEALED carried (R164, R191). -/
def carryTag (k : Kind) (ts : List Tag) : Tag :=
  if ts.any (·.secret) then { secret := true, kind := k, sealed := ts.any (·.sealed) } else pubTag

/-! The masked write of R190 -/

/-- The governing predicate is public and all ones. -/
def psFull (p : PReg) : Bool := !p.tag.secret && p.val == 0xFFFF

/-- Write `new` into v register `d` under the governing predicate. The old destination counts as a source unless
the predicate is public and all ones; none where its kind does not fit. `k` is the kind that the instruction produces, `.any`
where it carries its source's: a public value has none and goes beside a secret of either kind (R191). A public value that only
the predicate or a shuffled body makes secret is then BOOL (DESIGN CHOICE, log 73). -/
def maskedPut (m : Mode) (g : Eng) (w : BitVec 32) (d : Nat) (new : Row) (t : Tag) (k : Kind) : Option Eng :=
  let p := pget g (wPs w)
  let own := if k = .any then .bool else k
  if psFull p then some (putV g d new t own)
  else
    let old := vget g d
    if old.tag.secret && t.secret && !(kindOk t.kind old.tag) && !(t.kind == .any) then none
    else if old.tag.secret && !t.secret && k != .any && !(kindOk k old.tag) then none
    else
      let sec := t.secret || p.tag.secret || old.tag.secret
      let kd := if t.secret then (if t.kind == .any then old.tag.kind else t.kind)
                else if old.tag.secret then old.tag.kind else own
      let tg : Tag := if sec then { secret := true, kind := kd, sealed := t.sealed || old.tag.sealed } else pubTag
      some (putV g d (maskRow m p.val old.val new) tg own)

/-! Cost (R189) -/

/-- The kind column: L, G, G2, P. -/
inductive CostKind where
  | linear | gadget | gadget2 | port
deriving DecidableEq, Repr

/-- The figure of the profile. -/
def byProfile (g : Eng) (o h w : Nat) : Nat := if g.profile = 0 then o else if g.profile = 1 then h else w

/-- Cycles of an instruction: kind column, figures, number of secret data sources, and whether a secret predicate
governs it. -/
def costOf (g : Eng) (c : CostKind) (o h w n : Nat) (ps : Bool) : Nat :=
  let base :=
    if n = 0 ∧ !ps then o
    else match c with
      | .linear => byProfile g o (2 * o) (3 * o)
      | .gadget => byProfile g o h w
      | .gadget2 => if 2 ≤ n then byProfile g o h w else byProfile g o (2 * o) (3 * o)
      | .port => byProfile g o h w
  base + (if ps then byProfile g 0 4 10 else 0)

/-- The instruction runs a gadget, which draws fresh masks from the fountain (R165). -/
def drawsMask (g : Eng) (c : CostKind) (n : Nat) : Bool :=
  g.profile != 0 && (match c with
    | .linear => false
    | .gadget => decide (0 < n)
    | .gadget2 => decide (2 ≤ n)
    | .port => decide (0 < n))

def secCount (ts : List Tag) : Nat := (ts.filter (·.secret)).length

/-! The PC, loops and calls (R188, R195, R196) -/

/-- The iteration index i of the innermost open loop, in the order actually run. -/
def iterIndex (g : Eng) : Nat :=
  match g.loops with
  | [] => 0
  | f :: _ => if f.order = [] then f.idx else f.order.getD f.idx 0

/-- The iteration index in the natural order. -/
def iterNat (g : Eng) : Nat :=
  match g.loops with
  | [] => 0
  | f :: _ => f.idx

/-- Close the innermost loop: after a shuffled loop, each a register written by `aset.li` takes the value of the
natural order (R196). -/
def closeLoop (g : Eng) : Eng :=
  match g.loops with
  | [] => g
  | f :: r =>
      let a' := if f.shuffled then f.aWritten.foldl (fun m i => kset (fun _ => 0) m i (aNatGet g i)) g.a else g.a
      { g with loops := r, a := a', aNat := a' }

/-- The PC stands at END of the innermost loop and END detection is not suspended by a call. -/
def atEnd (g : Eng) : Bool :=
  match g.loops with
  | [] => false
  | f :: _ => f.depth == g.calls.length && f.last == g.pc

/-- Continue after the instruction at the PC: the next one, or the first of the body while iterations remain. -/
def advanceGo : Nat → Eng → Eng
  | 0, g => { g with pc := g.pc + 1 }
  | n + 1, g =>
      match g.loops with
      | [] => { g with pc := g.pc + 1 }
      | f :: r =>
          if f.depth = g.calls.length ∧ f.last = g.pc then
            if f.idx + 1 < f.count then { g with pc := f.first, loops := { f with idx := f.idx + 1 } :: r }
            else advanceGo n (closeLoop g)
          else { g with pc := g.pc + 1 }

def advance (g : Eng) : Eng := advanceGo g.loops.length g

/-- The instruction retires: masks drawn, cycles counted, PC advanced. `g` is the engine after the effect. -/
def retireWith (w : BitVec 32) (g : Eng) (cycles : Nat) (mask : Bool) : EngRes :=
  if mask && g.fnt.stopped then fRng
  else
    let d := if mask then Sys2Proof.Config.maskRows w.toNat g.profile else 0
    .ok (advance { g with cycles := g.cycles + cycles }) d

/-- Retire by the kind column: figures and the tags of the data sources. -/
def retire (w : BitVec 32) (g : Eng) (c : CostKind) (o h wd : Nat) (ts : List Tag) : EngRes :=
  retireWith w g (costOf g c o h wd (secCount ts) false) (drawsMask g c (secCount ts))

/-- Retire an instruction that honours PS: a secret governing predicate adds its cycles. -/
def retirePs (w : BitVec 32) (g : Eng) (ps : PReg) (c : CostKind) (o h wd : Nat) (ts : List Tag) : EngRes :=
  retireWith w g (costOf g c o h wd (secCount ts) ps.tag.secret)
    (drawsMask g c (secCount ts) || (ps.tag.secret && g.profile != 0))

/-- A masked write that retires, or MODE_MISMATCH. -/
def maskedRetire (m : Mode) (g : Eng) (w : BitVec 32) (d : Nat) (new : Row) (t : Tag) (k : Kind)
    (c : CostKind) (o h wd : Nat) (ts : List Tag) : EngRes :=
  match maskedPut m g w d new t k with
  | none => fMode
  | some g' => retirePs w g' (pget g (wPs w)) c o h wd ts

/-! Operand forms (R186) -/

/-- A field that names an s register has bit 4 clear. -/
def sOk (n : Nat) : Bool := decide (n < 16)
/-- A field that names an a register uses its low 3 bits. -/
def aOk (n : Nat) : Bool := decide (n < 8)
/-- A field that names a p or q register uses its low 2 bits. -/
def pqOk (n : Nat) : Bool := decide (n < 4)

end Sys2Proof.Machine
end

