-- ==== Sys2Proof/Machine/IsaPort.lean ====
section
/-! DEFINITION. Memory (R209, R210), the Keccak, SHA-2, cipher, key, input and output ports (R211 to R215), mask
conversions (R216), declassify and compare (R163, R164, R217, R218). -/

namespace Sys2Proof.Machine

/-! Memory -/

/-- The row address of format M: aA + OFF. -/
def mAddr (g : Eng) (w : BitVec 32) : Nat := aget g (wA w) + wOff w

/-- The post-increment of format M. -/
def mBump (g : Eng) (w : BitVec 32) : Eng := if wPi w then bumpA g (wA w) (wSInc w) else g

def isaVld (_ : IsaEnv) (g : Eng) (w : BitVec 32) : EngRes :=
  let i := mAddr g w
  if !(wPi w) && wInc w != 0 then fIllegal
  else if rowLimit g ≤ i then fRowRange
  else
    let t := rowTag g i
    retire w (mBump (putV g (wD w) (rowGet g i).val t .bool) w) .linear 1 2 3 [t]

def isaVst (_ : IsaEnv) (g : Eng) (w : BitVec 32) : EngRes :=
  let i := mAddr g w
  let x := vget g (wD w)
  if !(wPi w) && wInc w != 0 then fIllegal
  else if rowLimit g ≤ i then fRowRange
  else if !(rowSecret g i) && (x.tag.secret || inShuffle g) then fSecretToPublic
  else
    let g1 := mBump (putRow g i x.val x.tag) w
    -- a public value stored into a secret row draws its mask shares (R165)
    if rowSecret g i then retireWith w g1 (byProfile g 1 2 3) (g.profile != 0 && !x.tag.secret)
    else retireWith w g1 1 false

def isaVmov (_ : IsaEnv) (g : Eng) (w : BitVec 32) : EngRes :=
  let x := vget g (wS1 w)
  if wS2 w != 0 || wQ w != 0 then fIllegal
  else maskedRetire .modq g w (wD w) x.val (carryTag x.tag.kind [x.tag]) .any .linear 1 2 3 [x.tag]

def isaVzero (_ : IsaEnv) (g : Eng) (w : BitVec 32) : EngRes :=
  if wS1 w != 0 || wS2 w != 0 || wQ w != 0 || wPs w != 0 then fIllegal
  else retireWith w (putV g (wD w) 0 pubTag .bool) 1 false

/-- Words that `sget` and `sput` can name under a MODE (R210). -/
def scalarWords (m : Mode) : Nat := if m = .pair28 then 8 else 16

def isaSget (_ : IsaEnv) (g : Eng) (w : BitVec 32) : EngRes :=
  let m := (qget g (wQ w)).mode
  let x := vget g (wS1 w)
  if !(sOk (wD w)) || wPs w != 0 then fIllegal
  else if m = .quad56 then fMode
  else if scalarWords m ≤ wS2 w then fIllegal
  else retire w (putS g (wD w) (word m x.val (wS2 w)) (carryTag x.tag.kind [x.tag]) .bool) .linear 1 2 3 [x.tag]

def isaSput (_ : IsaEnv) (g : Eng) (w : BitVec 32) : EngRes :=
  let m := (qget g (wQ w)).mode
  let x := sget g (wS1 w)
  let z := vget g (wD w)
  if !(sOk (wS1 w)) || wPs w != 0 then fIllegal
  else if m = .quad56 then fMode
  else if scalarWords m ≤ wS2 w then fIllegal
  else match joinKind [x.tag, z.tag] with
    | none => fMode
    | some k =>
        let r := wordRow m (fun j => if j = wS2 w then x.val.toNat else word m z.val j)
        retire w (putV g (wD w) r (carryTag k [x.tag, z.tag]) .bool) .linear 1 2 3 [x.tag, z.tag]

def isaVli (_ : IsaEnv) (g : Eng) (w : BitVec 32) : EngRes :=
  if wS1 w != 0 || bitsOf (wImm w) 15 14 != 0 then fIllegal
  else retireWith w (putV g (wD w) (laneRow (fun _ => wImm w)) pubTag .bool) 1 false

/-! Register groups as byte strings -/

/-- The bytes of `n` registers from `d` on. -/
def groupBytes (g : Eng) (d n : Nat) : Bytes := (List.range n).flatMap (fun i => rowBytes (vget g (d + i)).val)

/-- The tags of `n` registers from `d` on. -/
def groupTags (g : Eng) (d n : Nat) : List Tag := (List.range n).map (fun i => (vget g (d + i)).tag)

/-- Write `n` registers from a byte string, all with one tag. -/
def putGroup (g : Eng) (d : Nat) (b : Bytes) (t : Tag) : Nat → Eng
  | 0 => g
  | n + 1 => putV (putGroup g d b t n) (d + n) (bytesRow ((b.drop (28 * n)).take 28)) t .bool

/-- The port bit of the manifest (R169). -/
def portOn (g : Eng) (i : Nat) : Bool := bitOf g.man.ports i

/-! Keccak and SHA-2 ports (R211, R212) -/

/-- The request is served by a core, which the engine holds until its next instruction (R13). -/
def onCore (g : Eng) (k : Nat) : Eng := { g with want := .none, grant := some { core := k, fresh := false } }

def isaVkeccakF (env : IsaEnv) (g : Eng) (w : BitVec 32) : EngRes :=
  let d := wD w
  let ts := groupTags g d 8
  if wS1 w != 0 || wS2 w != 0 || wQ w != 0 || wPs w != 0 || d % 8 != 0 then fIllegal
  else if !(portOn g 4) then fPort
  else if !(ts.all (kindOk .bool)) then fMode
  else match env.keccakCore with
    | none => .wait { g with want := .keccak }
    | some k =>
        let b := groupBytes g d 8
        let g1 := putGroup (onCore g k) d (keccakBytes (b.take 200) ++ b.drop 200) (outTag .bool ts) 8
        retire w g1 .port 26 52 78 ts

/-- Do two register groups overlap? -/
def groupsMeet (a n b m : Nat) : Bool := decide (a < b + m ∧ b < a + n)

/-- Shared form of the SHA-2 instructions: state group of `ns` registers, block group of `nb`. -/
def shaForm (env : IsaEnv) (w : BitVec 32) (g : Eng) (ns nb stLen blkLen : Nat) (dOk : Bool) (f : Bytes → Bytes → Bytes)
    (o h wd : Nat) : EngRes :=
  let d := wD w
  let s1 := wS1 w
  if wS2 w != 0 || wQ w != 0 || wPs w != 0 || !dOk || decide (32 < d + ns) || decide (32 < s1 + nb)
      || groupsMeet d ns s1 nb then fIllegal
  else if !(portOn g 5) then fPort
  else
    let ts := groupTags g d ns ++ groupTags g s1 nb
    if ts.any (·.secret) && g.profile != 0 && !(portOn g 7) then fPort
    else if !(ts.all (kindOk .bool)) then fMode
    else match env.sha2Core with
      | none => .wait { g with want := .sha2 }
      | some k =>
          let st := groupBytes g d ns
          let blk := (groupBytes g s1 nb).take blkLen
          let g1 := putGroup (onCore g k) d (f (st.take stLen) blk ++ st.drop stLen) (outTag .bool ts) ns
          retire w g1 .port o h wd ts

def isaVshaCs (env : IsaEnv) (g : Eng) (w : BitVec 32) : EngRes :=
  shaForm env w g 2 3 32 64 (wD w % 2 == 0) sha256Block 66 72 78
def isaVshaCl (env : IsaEnv) (g : Eng) (w : BitVec 32) : EngRes :=
  shaForm env w g 3 5 64 128 true sha512Block 82 88 94

/-! Cipher port (R213) -/

def portAes (alg : Nat) : Bool := alg == 0x0101 || alg == 0x0102 || alg == 0x0103
def portTdea (alg : Nat) : Bool := alg == 0x0111 || alg == 0x0112

/-- Block encryption and decryption under an algorithm code of R127. -/
def cipherEnc (alg : Nat) (key b : Bytes) : Bytes := if portAes alg then aesEnc key b else tdeaEnc key b
def cipherDec (alg : Nat) (key b : Bytes) : Bytes := if portAes alg then aesDec key b else tdeaDec key b
/-- Block length in bytes. -/
def cipherBlk (alg : Nat) : Nat := if portAes alg then 16 else 8

/-- Cycles of one block by algorithm and profile. -/
def blockCycles (g : Eng) (alg : Nat) : Nat :=
  if alg = 0x0101 then byProfile g 250 500 750
  else if alg = 0x0102 then byProfile g 300 600 900
  else if alg = 0x0103 then byProfile g 350 700 1050
  else byProfile g 400 800 800

/-- A result of the cipher core: secret and BOOL (R159, R213). -/
def coreTag : Tag := { secret := true, kind := .bool, sealed := false }

def cipherForm (w : BitVec 32) (g : Eng) (f : Nat → Bytes → Bytes → Bytes) : EngRes :=
  let x := vget g (wS1 w)
  if wS2 w != 0 || wQ w != 0 || wPs w != 0 then fIllegal
  else if !(portOn g 6) then fPort
  else match g.core with
    | none => fKeyPosition
    | some c =>
        if !(kindOk .bool x.tag) then fMode
        else
          let r := bytesRow (f c.alg c.key ((rowBytes x.val).take (cipherBlk c.alg)))
          retireWith w (putV g (wD w) r coreTag .bool) (blockCycles g c.alg) (g.profile != 0)

def isaCblkE (_ : IsaEnv) (g : Eng) (w : BitVec 32) : EngRes := cipherForm w g cipherEnc
def isaCblkD (_ : IsaEnv) (g : Eng) (w : BitVec 32) : EngRes := cipherForm w g cipherDec

def isaCghInit (_ : IsaEnv) (g : Eng) (w : BitVec 32) : EngRes :=
  if wD w != 0 || wS1 w != 0 || wS2 w != 0 || wQ w != 0 || wPs w != 0 then fIllegal
  else if !(portOn g 6) then fPort
  else match g.core with
    | none => fKeyPosition
    | some c =>
        if portTdea c.alg then fMode
        else retireWith w { g with core := some { c with hash := some (aesEnc c.key (List.replicate 16 0)) } }
          (blockCycles g c.alg) (g.profile != 0)

def isaCghash (_ : IsaEnv) (g : Eng) (w : BitVec 32) : EngRes :=
  let x := vget g (wS1 w)
  let z := vget g (wD w)
  if wS2 w != 0 || wQ w != 0 || wPs w != 0 then fIllegal
  else if !(portOn g 6) then fPort
  else match g.core with
    | none => fKeyPosition
    | some c =>
        match c.hash with
        | none => fMode
        | some h =>
            if portTdea c.alg then fMode
            else if !(kindOk .bool x.tag && kindOk .bool z.tag) then fMode
            else
              let r := bytesRow (ghashStep h ((rowBytes z.val).take 16) ((rowBytes x.val).take 16))
              retireWith w (putV g (wD w) r coreTag .bool) (byProfile g 8 16 24) (g.profile != 0)

/-! Key port (R214) -/

def keyPort (g : Eng) (b : Bool) : KeyPort := if b then g.keyB else g.keyA
def setKeyPort (g : Eng) (b : Bool) (k : KeyPort) : Eng := if b then { g with keyB := k } else { g with keyA := k }
def keyEntry (g : Eng) (b : Bool) : KeyEntry := if b then g.man.key1 else g.man.key0

/-- Fields of format P that a `kld` does not use are zero. -/
def kldReserved (w : BitVec 32) : Bool := wD w != 0 || wA w != 0 || wPi w || wRs w || wNm1 w != 0

/-- The position is declared by the manifest and the descriptor's handle is not zero (R169). -/
def keyDeclared (g : Eng) (b : Bool) : Bool := (keyEntry g b).usage != 0 && (keyPort g b).present

/-- `kld.a`, `kld.b`: land the next 28 bytes in the next key row; the first starts the delivery and waits for it. -/
def kldRow (w : BitVec 32) (g : Eng) (b : Bool) : EngRes :=
  let k := keyPort g b
  let en := keyEntry g b
  if kldReserved w then fIllegal
  else if inShuffle g then fShuffle
  else if !(portOn g 2) then fPort
  else if !(keyDeclared g b) then fKeyPosition
  else if en.rows ≤ k.landed then fKeyPosition
  else if !k.valid then .wait (setKeyPort g b { k with requested := true })
  else
    let r := bytesRow ((k.material.drop (28 * k.landed)).take 28)
    let g1 := putRow g (en.firstRow + k.landed) r { secret := true, kind := .bool, sealed := true }
    retireWith w (setKeyPort g1 b { k with landed := k.landed + 1 }) (byProfile g 4 6 8) (g.profile != 0)

/-- `kld.ca`, `kld.cb`: load the whole material into the cipher core. -/
def kldCore (w : BitVec 32) (g : Eng) (b : Bool) : EngRes :=
  let k := keyPort g b
  if kldReserved w then fIllegal
  else if inShuffle g then fShuffle
  else if !(portOn g 2) || !(portOn g 6) then fPort
  else if !(keyDeclared g b) then fKeyPosition
  else if !(portAes k.alg || portTdea k.alg) || (portTdea k.alg && g.profile == 2) then fMode
  else if !k.valid then .wait (setKeyPort g b { k with requested := true })
  else retireWith w { g with core := some { alg := k.alg, key := k.material, hash := none }, everSecret := true }
    (byProfile g 64 96 128) (g.profile != 0)

def isaKldA (_ : IsaEnv) (g : Eng) (w : BitVec 32) : EngRes := kldRow w g false
def isaKldB (_ : IsaEnv) (g : Eng) (w : BitVec 32) : EngRes := kldRow w g true
def isaKldCa (_ : IsaEnv) (g : Eng) (w : BitVec 32) : EngRes := kldCore w g false
def isaKldCb (_ : IsaEnv) (g : Eng) (w : BitVec 32) : EngRes := kldCore w g true

/-- PI of format P adds 1 to aA. -/
def pBump (g : Eng) (w : BitVec 32) : Eng := if wPi w then bumpA g (wA w) 1 else g

def isaKput (_ : IsaEnv) (g : Eng) (w : BitVec 32) : EngRes :=
  let i := aget g (wA w)
  let n := wNm1 w + 1
  if wD w != 0 || !(wRs w) || decide (28 < n) then fIllegal
  else if inShuffle g then fShuffle
  else if !(portOn g 3) then fPort
  else if rowLimit g ≤ i then fRowRange
  else if !(rowSecret g i) then fKeyReturn
  else match g.returnLen with
    | none => fKeyLength
    | some l =>
        if l < g.returned.length + n then fKeyLength
        else
          let g1 := { g with returned := g.returned ++ (rowBytes (rowGet g i).val).take n, everSecret := true }
          retireWith w (pBump g1 w) (byProfile g 4 6 8) false

/-! Input and output (R215) -/

/-- The fields a P-format transfer does not use: V with a row, A and PI with a register. -/
def pReserved (w : BitVec 32) : Bool := if wRs w then wD w != 0 else (wA w != 0 || wPi w)

/-- `vin`, `vaux`: the next 28 bytes of a buffer into the target. -/
def takeInput (w : BitVec 32) (g : Eng) (buf : Bytes) (len ptr : Nat) (secret : Bool) (bump : Eng → Eng) : EngRes :=
  let i := aget g (wA w)
  if pReserved w || wNm1 w != 27 then fIllegal
  else if inShuffle g then fShuffle
  else if !(portOn g 0) then fPort
  else if wRs w && decide (rowLimit g ≤ i) then fRowRange
  else if wRs w && !secret && rowSecret g i then fPort
  else if wRs w && secret && !(rowSecret g i) then fSecretToPublic
  else if len ≤ ptr then fInputEnd
  else
    let r := bytesRow (padTo 28 (((buf.take len).drop ptr).take 28))
    let t : Tag := if secret then { secret := true, kind := .bool, sealed := false } else pubTag
    let g1 := if wRs w then putRow g i r t else putV g (wD w) r t .bool
    retireWith w (pBump (bump g1) w) (if secret then byProfile g 4 6 8 else 4) (secret && g.profile != 0)

def isaVin (_ : IsaEnv) (g : Eng) (w : BitVec 32) : EngRes :=
  takeInput w g g.input g.inLen g.inPtr g.man.inSecret (fun g => { g with inPtr := g.inPtr + 28 })
def isaVaux (_ : IsaEnv) (g : Eng) (w : BitVec 32) : EngRes :=
  takeInput w g g.aux g.auxLen g.auxPtr g.man.auxSecret (fun g => { g with auxPtr := g.auxPtr + 28 })

/-- The source of `vout` and `vdecl`: a register, or a row. -/
def pSource (g : Eng) (w : BitVec 32) : Row × Tag :=
  if wRs w then ((rowGet g (aget g (wA w))).val, rowTag g (aget g (wA w)))
  else ((vget g (wD w)).val, (vget g (wD w)).tag)

/-- The output of the job so far: what has drained and what stands in the staging (R170). -/
def engOutput (g : Eng) : Bytes := g.drained ++ g.staging

/-- Bytes into the staging half that fills; a full half of 16 KiB drains to the gatehouse's release staging (R170). -/
def stagePut (g : Eng) (b : Bytes) : Eng :=
  let h := g.staging ++ b
  if 16384 ≤ h.length then { g with drained := g.drained ++ h.take 16384, staging := h.drop 16384 }
  else { g with staging := h }

/-- Append bytes 0 to NM1 of the source to output staging, within the limit of s1 (R170). -/
def stageOut (w : BitVec 32) (g : Eng) (cycles : Nat) : EngRes :=
  let n := wNm1 w + 1
  if g.outLimit < (engOutput g).length + n then fStage
  else retireWith w (pBump (stagePut g ((rowBytes (pSource g w).1).take n)) w) cycles false

def isaVout (_ : IsaEnv) (g : Eng) (w : BitVec 32) : EngRes :=
  if pReserved w || decide (27 < wNm1 w) then fIllegal
  else if inShuffle g then fShuffle
  else if !(portOn g 1) then fPort
  else if wRs w && decide (rowLimit g ≤ aget g (wA w)) then fRowRange
  else if (pSource g w).2.secret then fSecretToPublic
  else stageOut w g 4

/-! Mask conversions (R216) -/

def convMode (m : Mode) : Bool := m == .modq || m == .pair28 || m == .quad56

/-- A word as the canonical value under q. -/
def canonWord (q : QReg) (x : Nat) : Nat := if q.mode = .quad56 then x else x % q.modulus

def isaVconvAb (_ : IsaEnv) (g : Eng) (w : BitVec 32) : EngRes :=
  let q := qget g (wQ w)
  let x := vget g (wS1 w)
  if wS2 w != 0 || wPs w != 0 then fIllegal
  else if !(convMode q.mode) || !(kindOk (arithOf q) x.tag) then fMode
  else retire w (putV g (wD w) (wordRow q.mode (fun j => canonWord q (word q.mode x.val j)))
    (carryTag .bool [x.tag]) .bool) .gadget 1 24 60 [x.tag]

def isaVconvBa (_ : IsaEnv) (g : Eng) (w : BitVec 32) : EngRes :=
  let q := qget g (wQ w)
  let x := vget g (wS1 w)
  if wS2 w != 0 || wPs w != 0 then fIllegal
  else if !(convMode q.mode) || !(kindOk .bool x.tag) then fMode
  else retire w (putV g (wD w) (wordRow q.mode (fun j => canonWord q (word q.mode x.val j)))
    (carryTag (arithOf q) [x.tag]) (arithOf q)) .gadget 1 20 50 [x.tag]

def scalarConv (w : BitVec 32) (g : Eng) (need out : Kind) (h wd : Nat) : EngRes :=
  let x := sget g (wS1 w)
  if !(sOk (wD w) && sOk (wS1 w)) || wS2 w != 0 || wQ w != 0 || wPs w != 0 then fIllegal
  else if !(kindOk need x.tag) then fMode
  else retire w (putS g (wD w) x.val.toNat (carryTag out [x.tag]) out) .gadget 1 h wd [x.tag]

def isaSconvAb (_ : IsaEnv) (g : Eng) (w : BitVec 32) : EngRes := scalarConv w g arithS .bool 16 40
def isaSconvBa (_ : IsaEnv) (g : Eng) (w : BitVec 32) : EngRes := scalarConv w g .bool arithS 14 36

def isaVremask (_ : IsaEnv) (g : Eng) (w : BitVec 32) : EngRes :=
  let x := vget g (wS1 w)
  if wS2 w != 0 || wQ w != 0 || wPs w != 0 then fIllegal
  else retireWith w (putV g (wD w) x.val (carryTag x.tag.kind [x.tag]) .bool) (costOf g .linear 1 2 3 (secCount [x.tag]) false)
    (x.tag.secret && g.profile != 0)

def isaVtaint (_ : IsaEnv) (g : Eng) (w : BitVec 32) : EngRes :=
  let q := qget g (wQ w)
  let x := vget g (wD w)
  if wS1 w != 0 || wS2 w != 0 || wPs w != 0 then fIllegal
  else
    let k := if convMode q.mode then arithOf q else .bool
    let t : Tag := if x.tag.secret then x.tag else { secret := true, kind := k, sealed := false }
    retireWith w { putV g (wD w) x.val t k with everSecret := true } (byProfile g 1 2 3) (g.profile != 0)

def isaStaint (_ : IsaEnv) (g : Eng) (w : BitVec 32) : EngRes :=
  let x := sget g (wD w)
  if !(sOk (wD w)) || wS1 w != 0 || wS2 w != 0 || wQ w != 0 || wPs w != 0 then fIllegal
  else
    let t : Tag := if x.tag.secret then x.tag else { secret := true, kind := .bool, sealed := false }
    retireWith w { putS g (wD w) x.val.toNat t .bool with everSecret := true } (byProfile g 1 2 3) (g.profile != 0)

/-- The next mask row of a fountain: Keccak-p[800, 12] in counter mode, keyed by the seed (R168). The block that holds seed
and counter is free (log 81), and the row is the first 224 bits of the permuted block. -/
def fountainRow (f : Fountain) : Row :=
  bytesRow ((keccakP800 (padTo 100 (Sys2Proof.Config.fountainBlock f.seed f.rowsDrawn))).take 28)

/-- `vrand`: a fresh row from the fountain in every profile; RNG_FAILED when the fountain has stopped. -/
def isaVrand (_env : IsaEnv) (g : Eng) (w : BitVec 32) : EngRes :=
  if wS1 w != 0 || wS2 w != 0 || wQ w != 0 || wPs w != 0 then fIllegal
  else if g.fnt.stopped then fRng
  else .ok (advance { putV g (wD w) (fountainRow g.fnt) coreTag .bool with
      everSecret := true, cycles := g.cycles + byProfile g 1 2 3 }) 1

/-! Declassify and compare (R163, R164, R217, R218) -/

/-- The (overlay, PC) pair is in the manifest's declassify table. -/
def declListed (g : Eng) : Bool := g.man.decl.contains (g.overlay, g.pc)

def isaVdecl (_ : IsaEnv) (g : Eng) (w : BitVec 32) : EngRes :=
  if pReserved w || decide (27 < wNm1 w) then fIllegal
  else if inShuffle g then fShuffle
  else if !(portOn g 1) then fPort
  else if wRs w && decide (rowLimit g ≤ aget g (wA w)) then fRowRange
  else if !(declListed g) then fUnlisted
  else if (pSource g w).2.sealed then fSealed
  else stageOut w g (if (pSource g w).2.secret then byProfile g 6 8 10 else 6)

def isaSdecl (_ : IsaEnv) (g : Eng) (w : BitVec 32) : EngRes :=
  let x := sget g (wS1 w)
  if !(sOk (wD w) && sOk (wS1 w)) || wS2 w != 0 || wQ w != 0 || wPs w != 0 then fIllegal
  else if inShuffle g then fShuffle
  else if !(declListed g) then fUnlisted
  else if x.tag.sealed then fSealed
  else retireWith w (putS g (wD w) x.val.toNat pubTag .bool) (if x.tag.secret then byProfile g 2 4 6 else 2) false

def isaFcmp (_ : IsaEnv) (g : Eng) (w : BitVec 32) : EngRes :=
  let n := wD w + 1
  let x := vget g (wS1 w)
  let y := vget g (wS2 w)
  let sec := x.tag.secret || y.tag.secret
  if wQ w != 0 || wPs w != 0 || decide (28 < n) then fIllegal
  else if inShuffle g then fShuffle
  else if sec && !(declListed g) then fUnlisted
  else if sec && (x.tag.sealed || y.tag.sealed) then fSealed
  else
    let eq := (rowBytes x.val).take n == (rowBytes y.val).take n
    let g1 := if eq then g else { g with cmpOk := cmpMissOk, cmpOkn := cmpMissOkn }
    retireWith w g1 (if sec then byProfile g 2 4 6 else 2) false

end Sys2Proof.Machine
end

