-- ==== Sys2Proof/Machine/Shares.lean ====
section
/-! DEFINITION. The physical operand memory and the shares of a secret (06_engine_model.md R155, R158, R165). An engine's
registers and rows hold the values that the shares encode; the mask shares are held beside them, and share 0 is what the mask
shares leave of the value. -/

namespace Sys2Proof.Machine

/-! The row map -/

/-- Rows of the physical operand memory that the engine keeps for itself (R155). -/
def reservedRows : Nat := 512

/-- The row map (R155, R158): the physical rows behind logical row `i`, share 0 first. The order in which logical rows
follow the reserved ones is the model's choice (log 137). -/
def rowMap (m : Manifest) (profile i : Nat) : List Nat :=
  if i < m.pubRows then [reservedRows + i]
  else (List.range (profile + 1)).map (fun k => reservedRows + m.pubRows + (i - m.pubRows) * (profile + 1) + k)

/-- The tags written when the row map is built: SECRET for every row behind a secret logical row, GROUP for its mask
shares; a row not listed has tag 0. -/
def mapTags (m : Manifest) (profile : Nat) : KMap Nat :=
  (List.range m.secRows).flatMap (fun i =>
    let l := rowMap m profile (m.pubRows + i)
    (List.zip (List.range l.length) l).map (fun x => (x.2, if x.1 = 0 then 1 else 3)))

/-! Shares (R165) -/

/-- Where an engine holds a value. -/
inductive Home where
  | v (i : Nat) | s (i : Nat) | p (i : Nat) | row (i : Nat)
deriving DecidableEq, Repr

/-- Its place in the table of mask shares. -/
def homeIx : Home → Nat
  | .v i => i
  | .s i => 32 + i
  | .p i => 48 + i
  | .row i => 64 + i

def homeTag (g : Eng) : Home → Tag
  | .v i => (vget g i).tag
  | .s i => (sget g i).tag
  | .p i => (pget g i).tag
  | .row i => rowTag g i

def homeVal (g : Eng) : Home → Row
  | .v i => (vget g i).val
  | .s i => (sget g i).val.setWidth 224
  | .p i => (pget g i).val.setWidth 224
  | .row i => (rowGet g i).val

/-- The places an engine has written. -/
def homes (g : Eng) : List Home :=
  g.v.map (fun e => .v e.1) ++ g.sc.map (fun e => .s e.1) ++ g.p.map (fun e => .p e.1) ++ g.rows.map (fun e => .row e.1)

/-- A value less a mask, by the sharing kind: word by word of the kind's mode, or bit by bit. -/
def unmask (k : Kind) (x m : Row) : Row := match k with
  | .arith 0 q => BitVec.ofNat 224 (subM q x.toNat m.toNat)
  | .arith c q => match modeOf c with
    | some .gf2m => x ^^^ m
    | some .modq => wordRow .modq (fun j => subM q (word .modq x j) (word .modq m j))
    | some md => wordRow md (fun j => subM (2 ^ wordBits md) (word md x j) (word md m j))
    | none => x ^^^ m
  | _ => x ^^^ m

/-- The shares of a secret, share 0 first: 2 in HEDGE, 3 in WALLED. -/
def sharesOf (g : Eng) (h : Home) : List Row :=
  let m := kget (fun _ => []) g.masks (homeIx h)
  m.foldl (unmask (homeTag g h).kind) (homeVal g h) :: m

/-- The physical rows behind a logical row and what they hold. -/
def physRows (g : Eng) (i : Nat) : List (Nat × Row) :=
  List.zip (rowMap g.man g.profile i) (if rowSecret g i then sharesOf g (.row i) else [(rowGet g i).val])

/-- The mask shares after an instruction: those of a secret that it wrote are new, the others stand. Which masks a share-wise
operation leaves, and which a gadget draws, is a free value of the step. -/
def newMasks (ctr : Nat) (g0 g : Eng) : KMap (List Row) :=
  if g.profile = 0 then g.masks
  else (homes g).foldl (fun m h =>
    if !(homeTag g h).secret then kset (fun _ => []) m (homeIx h) []
    else if homeTag g h = homeTag g0 h ∧ homeVal g h = homeVal g0 h ∧ (kfind m (homeIx h)).isSome then m
    else kset (fun _ => []) m (homeIx h)
      ((List.range g.profile).map (fun k => Sys2Proof.Config.maskShare ctr (homeIx h) k))) g.masks

end Sys2Proof.Machine
end

