-- ==== Sys2Proof/Machine/EngineLife.lean ====
section
/-! DEFINITION. Engines, cipher pieces, big-number engines and fountains through the life of a job: starts, loading, key
deliveries, clearing and scrubbing (06_engine_model.md R154, R168 to R176, R182, R183; 09 R257 to R259; 10 R284, R290 to
R298; 05 R146, R147), admission by issue slots (01_organisation.md R28). -/

namespace Sys2Proof.Machine

/-! Starting (R28, R171, R284) -/

/-- A start attempt of a pavilion takes an issue slot; it is open in the first `dutyNow` of every 64. The spec names the
pavilion scheduler and the cipher-core segment scheduler side by side; that the two share the slots of a pavilion, and that
only the first piece of a cipher job or segment takes one, is the model's choice (log 137). -/
def pavSlot (s : State) (p : Nat) : State × Bool :=
  let v := getPav s p
  (setPav s p { v with issued := (v.issued + 1) % 64 }, decide (v.issued < dutyNow s))

def bneSlot (s : State) : State × Bool :=
  ({ s with bne := { s.bne with issued := (s.bne.issued + 1) % 64 } }, decide (s.bne.issued < dutyNow s))

/-- An engine that can take a job: in service, idle, and not being drained. -/
def freeEngine (s : State) (p : Nat) : Option Nat :=
  ((List.range 17).map (fun k => 17 * p + k)).find? (fun e =>
    (getEng s e).inService && (getEng s e).st == .idle && (findWork s 1 e).isNone)

/-- A segment waits for the earlier segments of its stream (R257). -/
def segmentWaits (s : State) (n : Nat) (j : Job) : Bool :=
  isStream j.cmd.desc.opcode && s.gth.jobs.any (fun e => decide (e.1 < n) && e.2.cmd.fn == j.cmd.fn && jobOpen e.2
    && isStream e.2.cmd.desc.opcode && streamNo e.2.cmd == streamNo j.cmd)

/-- A job may not start yet: its one-time index is not confirmed, its stream is not free for it, or its payload cannot be read
while the link must be encrypted and is not (R63, R136, R257). -/
def startWaits (s : State) (n : Nat) (j : Job) : Bool :=
  j.waitOts || segmentWaits s n j || (ideBlocked s && payloadLen j.cmd != 0)

/-- The job that a pavilion starts next: the first of its queued jobs in acceptance order (R42), once it may start. -/
def nextJob (s : State) (p : Nat) : Option (Nat × Job) :=
  (s.gth.jobs.find? (fun e => !isPool e.2 && e.2.pav == p && e.2.phase == .queued)).filter (fun e => !startWaits s e.1 e.2)

/-- What ends a job when it would start: key use suspended (R404), its payload not read (R56). -/
def startRefused (s : State) (n : Nat) (j : Job) : Option State :=
  if (suspendDetail s).isSome && jobKeyed j then some (abortJob s n stAborted 0x0163 (abortDue s j))
  else if j.cmd.dma = .payloadFails then some (dmaFail s n)
  else none

/-- JOB_START: the first queued program or library job goes to a free engine. -/
def jobStart (p : Nat) (s0 : State) : State :=
  match nextJob s0 p, freeEngine s0 p with
  | some (n, j), some e =>
      if isCipher j then s0
      else
        let r := pavSlot s0 p
        let s := r.1
        if !r.2 then s
        else match startRefused s n j with
          | some t => t
          | none =>
              let g := getEng s e
              let s1 := setEng s e { g with
                st := .loading, job := some n, profile := j.profile, progId := j.prog, cycles := 0, probed := [] }
              pmcPav (setJob s1 n { j with phase := .running, part := some e, started := now s }) p 4 1
  | _, _ => s0

def execJobStart (pav : Fin 16) (s : State) : Host.Outcome State Fault Refusal := answer s (jobStart pav.val s)

/-! Loading (R154, R155, R172, R182) -/

/-- Drop the least recently used overlays until the rest fits the cache of 512 KiB. -/
def cacheTrim : List (Nat × Nat × Nat) → Nat → List (Nat × Nat × Nat)
  | [], _ => []
  | x :: r, room => if x.2.2 ≤ room then x :: cacheTrim r (room - x.2.2) else []

def kibOf (bytes : Nat) : Nat := ceilDiv bytes 1024

/-- Is an overlay of a program in a pavilion's cache? -/
def cached (s : State) (p prog ov : Nat) : Bool := (getPav s p).cache.any (fun x => x.1 == prog && x.2.1 == ov)

/-- An overlay is loaded through the cache of pavilion `p`; overlay 16 stands for the constant image. -/
def cacheLoad (s : State) (p prog ov kib : Nat) : State :=
  let v := getPav s p
  let hit := cached s p prog ov
  let l := cacheTrim ((prog, ov, kib) :: v.cache.filter (fun x => !(x.1 == prog && x.2.1 == ov))) 512
  let s1 := setPav s p { v with
    cache := l, cacheUsed := l.foldl (fun n x => n + x.2.2) 0, cacheHit := if hit then satInc 32 v.cacheHit else v.cacheHit,
    cacheMiss := if hit then v.cacheMiss else satInc 32 v.cacheMiss }
  let s2 := pmcPav s1 p 16 1
  if hit then s2 else pmcPav s2 p 17 kib

/-- The constant image in public rows 0 upward. -/
def constRows (b : Bytes) : KMap LRow :=
  (List.range (b.length / 28)).foldl (fun m i =>
    kset (fun _ => rowZero) m i { val := bytesRow ((b.drop (28 * i)).take 28), kind := .none, sealed := false }) []

/-- Material length of a key named by a job, for s6 and s7. -/
def portMatLen (s : State) (u : Option Nat) : Nat := match u with
  | some b => ((kfind s.kst.objs b).map (fun o => o.material.length)).getD 0
  | none => 0

/-- The key objects that a job of its own code creates with what `kput` returns: the length the key store expects (R214). -/
def returnLenOf (j : Job) : Option Nat :=
  let op := j.cmd.desc.opcode
  if j.crit then none
  else if op = 0x5003 ∨ op = 0x5004 then (if selOption j.cmd then none else some (pqSecret (selAlg j.cmd)))
  else if op = 0x1004 then some (if j.cmd.desc.select % 65536 = 0x0D01 then (j.attrA.map (fun a => a.len)).getD 0 else 32)
  else none

/-- The material of a PUBLIC object in KEY_A of a PK command, which leads the auxiliary stream of its program (R227). -/
def leadingPub (s : State) (j : Job) : Bytes :=
  if j.cmd.desc.opcode / 4096 = 5 ∧ (j.attrA.map (fun a => a.cls)) = some clsPublic then
    ((j.useA.bind (kfind s.kst.objs)).map (fun o => o.material)).getD []
  else []

/-- Registers and buffers at job start (R154). -/
def engLoad (s : State) (g : Eng) (j : Job) (pr : Program) : Eng :=
  let c := j.cmd
  let lead := leadingPub s j
  let auxLen := (if j.item.isSome then 0 else c.desc.auxLen) + lead.length
  let limit := min (outRoom c) pr.man.maxOut
  let ots := pr.man.usesOts
  let regs : List (Nat × Nat) :=
    [(0, c.desc.inLen), (1, limit), (2, auxLen), (3, j.item.getD 0), (4, if ots then j.index % 2 ^ 28 else 0),
     (5, if ots then j.index / 2 ^ 28 % 2 ^ 28 else 0), (6, portMatLen s j.useA), (7, portMatLen s j.useB)]
  let key (u : Option Nat) (a : Option Attr) : KeyPort :=
    { noKeyPort with present := u.isSome, alg := (a.map (fun x => x.alg)).getD 0 }
  { engIdle g.inService g.spare g.position with
    st := .running, profile := g.profile, progId := g.progId, faultDetail := g.faultDetail, faultCount := g.faultCount,
    eccCorrected := g.eccCorrected, fnt := g.fnt, quarAfter := g.quarAfter, job := g.job, man := pr.man,
    imem := pr.overlays.headD [], overlay := 0, package := pr.overlays, rowTags := mapTags pr.man g.profile, pc := 0,
    sc := regs.foldl (fun m e => kset (fun _ => sZero) m e.1 { val := BitVec.ofNat 28 e.2, tag := pubTag }) [],
    p := (List.range 4).foldl (fun m i => kset (fun _ => pZero) m i { val := 0xFFFF, tag := pubTag }) [],
    rows := constRows pr.const, keyA := key j.useA j.attrA, keyB := key j.useB j.attrB, returnLen := returnLenOf j, input := c.input, aux := lead ++ c.aux,
    inLen := c.desc.inLen, auxLen := auxLen, outLimit := limit, cmpOk := cmpMatchOk, cmpOkn := cmpMatchOkn }

/-- A library program as an engine holds it: what its manifest states; its code is not in the spec. -/
def libProgram (id : Nat) : Program :=
  { man := manifestParse (libManifest id), manBytes := libManifest id, overlays := [], const := [], size := 0, vendor := true,
    removed := false }

/-- The overlays of a library program go through the cache: the check overlay of at most 2 KiB first (R182, R231), the others
when the job goes past it. -/
def libOverlay (s : State) (p id k : Nat) : State :=
  let kib := Sys2Proof.Config.libOverlayKib id k
  cacheLoad s p id k (if k = 0 then 1 + kib % 2 else 1 + kib % 16)
def libRest (s : State) (p id : Nat) : State :=
  (List.range ((libProgram id).man.overlays - 1)).foldl (fun s k => libOverlay s p id (k + 1)) s

/-- The material of a PUBLIC key as it lands in the public rows of a library program (R227). -/
def leadRows (id : Nat) (rows : KMap LRow) (b : Bytes) : KMap LRow :=
  (List.range (ceilDiv b.length 28)).foldl (fun m i =>
    kset (fun _ => rowZero) m (Sys2Proof.Config.libKeyRow id % 1024 + i)
      { val := bytesRow (padTo 28 (b.drop (28 * i))), kind := .none, sealed := false }) rows

/-- LOADING_END: overlay 0 and the constants are in place and the job runs. -/
def loadingEnd (e : Nat) (s : State) : State :=
  let g := getEng s e
  if g.st ≠ .loading then s
  else match g.job with
    | none => s
    | some n => match getJob s n with
      | none => s
      | some j => match j.kind with
        | .program => match kfind s.lib.programs j.prog with
          | none => s
          | some pr =>
              let p := e / 17
              let s1 := cacheLoad s p j.prog 0 (kibOf (4 * (pr.overlays.headD []).length))
              let s2 := if pr.const = [] then s1 else cacheLoad s1 p j.prog 16 (kibOf pr.const.length)
              programReap (setEng s2 e (engLoad s2 (getEng s2 e) j pr)) j.prog
        | .library =>
            let s1 := libOverlay s (e / 17) j.prog 0
            setEng s1 e (engLoad s1 (getEng s1 e) j (libProgram j.prog))
        | _ => setEng s e { g with st := .running, cmpOk := cmpMatchOk, cmpOkn := cmpMatchOkn }

def execLoadingEnd (e : Fin 272) (s : State) : Host.Outcome State Fault Refusal := answer s (loadingEnd e.val s)

/-! Key deliveries (R146, R147, R121) -/

/-- One delivery from the object at base unit `b`: the state, and the material unless the object is or becomes DAMAGED. -/
def deliverOne (s : State) (pool : Bool) (p b : Nat) (found : StoreFinding) : State × Option Bytes :=
  let s0 := dropWaiting s b
  match loadObject s0 b with
  | none => (s0, none)
  | some m =>
      let s1 := countDelivery s0 pool p m.length
      match found with
      | .clean => (s1, some m)
      | .innerCorrected => (correctedObj s1 (handleAt s1 (some b)) false, some m)
      | .outerCorrected => (correctedObj s1 (handleAt s1 (some b)) true, some m)
      | .uncorrectable => (damageObj s1 b true, none)
      | .tagMismatch => (damageObj s1 b false, none)

/-- The keys of a job that loads them all at once; none where one is DAMAGED: the job has then ended (R121). -/
def deliverAll (s : State) (n : Nat) (j : Job) (p : Nat) (found : StoreFinding) : Option Job × State :=
  let one (x : State × Option Bytes) (u : Option Nat) (f : StoreFinding) : State × Option Bytes := match x.2, u with
    | some _, some b => deliverOne x.1 (isPool j) p b f
    | r, _ => (x.1, r)
  let a := one (s, some []) j.useA found
  match a.2 with
  | none => (none, faultJob (setJob a.1 n { j with useA := none }) n stFault 0x011E 0)
  | some ma =>
      let b := one (a.1, some []) j.useB (if j.useA.isSome then .clean else found)
      match b.2 with
      | none => (none, faultJob (setJob b.1 n { j with useA := none, useB := none }) n stFault 0x011E 0)
      | some mb =>
          let j1 := { j with useA := none, useB := none, matA := if j.useA.isSome then ma else j.matA,
                             matB := if j.useB.isSome then mb else j.matB }
          (some j1, setJob b.1 n j1)

/-- KEY_DELIVERY_DONE at a program's key port: the first requested position that is not valid. -/
def portDelivery (s : State) (e n : Nat) (j : Job) (found : StoreFinding) : State :=
  let g := getEng s e
  let second := !(g.keyA.requested && !g.keyA.valid)
  let k := keyPort g second
  match (if second then j.useB else j.useA) with
  | none => s
  | some b =>
      if !k.requested ∨ k.valid then s
      else
        let j1 := if second then { j with useB := none } else { j with useA := none }
        let r := deliverOne s false (e / 17) b found
        match r.2 with
        | none => faultJob (setJob r.1 n j1) n stFault 0x011E 0
        | some m => setEng (setJob r.1 n j1) e (setKeyPort g second { k with material := m, valid := true })

/-- KEY_DELIVERY_DONE: a delivery to an engine ends; `found` is what the key path found. -/
def keyDeliveryDone (e : Nat) (found : StoreFinding) (s : State) : State :=
  let g := getEng s e
  if g.st ≠ .running then s
  else match g.job with
    | none => s
    | some n => match getJob s n with
      | none => s
      | some j => match j.kind with
        | .program => portDelivery s e n j found
        | .library =>
            if j.useA.isNone ∧ j.useB.isNone then s
            else
              let lead := leadingPub s j
              let r := deliverAll s n j (e / 17) found
              match r.1 with
              | none => r.2
              | some _ => setEng r.2 e { getEng r.2 e with rows := leadRows j.prog (getEng r.2 e).rows lead }
        | _ => s

def execKeyDeliveryDone (e : Fin 272) (found : StoreFinding) (s : State) : Host.Outcome State Fault Refusal :=
  answer s (keyDeliveryDone e.val found s)

/-! Keccak and SHA-2 cores (R13, R169) -/

/-- The engines of the pavilion of `e` other than `e`. -/
def pavOthers (s : State) (e : Nat) : List Eng :=
  ((List.range 17).filter (fun k => k != e % 17)).map (fun k => getEng s (17 * (e / 17) + k))

/-- The cores of a kind that are in service in pavilion `p`, by their numbers within it. -/
def coresIn (s : State) (p : Nat) : CoreWant → List Nat
  | .none => []
  | .keccak => (List.range 4).filter (fun k => !s.rep.kecs.contains (4 * p + k))
  | .sha2 => ((List.range 2).filter (fun k => !s.rep.shas.contains (2 * p + k))).map (fun k => 4 + k)

/-- The core that a request of engine `e` is granted now: the one already granted to it; none while an earlier request
waits; else the first in service that no other engine holds. -/
def coreFor (s : State) (e : Nat) (w : CoreWant) : Option Nat :=
  let g := getEng s e
  let others := pavOthers s e
  match g.grant.filter (fun c => c.fresh) with
  | some c => some c.core
  | none =>
      if others.any (fun x => x.want == w && (g.want != w || decide (x.wantSeq < g.wantSeq))) then none
      else (coresIn s (e / 17) w).find? (fun k => !others.any (fun x => x.grant.any (fun c => c.core == k)))

/-- A request that begins to wait takes its place in the pavilion's order (R169, R184). -/
def coreQueue (s : State) (e : Nat) : State :=
  let g := getEng s e
  let v := getPav s (e / 17)
  setPav (setEng s e { g with wantSeq := v.wantNext }) (e / 17)
    { v with coreWait := satInc 32 v.coreWait, wantNext := v.wantNext + 1 }

/-- CORE_GRANT: the request that has waited longest is granted a free core of its pavilion, whose state is cleared first. -/
def coreGrant (e : Nat) (s : State) : State :=
  let g := getEng s e
  match coreFor s e g.want with
  | none => s
  | some k =>
      if g.st ≠ .running ∨ g.want = .none then s
      else
        let v := getPav s (e / 17)
        setPav (setEng s e { g with want := .none, grant := some { core := k, fresh := true } }) (e / 17)
          { v with coreState := kdel v.coreState k }

def execCoreGrant (e : Fin 272) (s : State) : Host.Outcome State Fault Refusal := answer s (coreGrant e.val s)

/-! Slots (R457) -/

/-- Core cycles of a local tick: 1.5 GHz over 2^20 ticks a second. -/
def coreCycles (tick : Nat) : Nat := (tick + 1) * 46875 / 32768 - tick * 46875 / 32768

/-- Waiting for a core, or in CLEARING or SCRUBBING. -/
def backStarved (g : Eng) : Bool := g.want != .none || g.st == .clearing || g.st == .scrubbing

/-- One tick of the slot counters: each of the 16 positions of a pavilion in service falls into one class; the cycles of an
executing engine go to its job, which counts them when it ends. -/
def slotTick (s : State) : State :=
  if s.boot.phase ≠ .service then s
  else
    let c := coreCycles s.tick
    let held := s.eng.filter (fun e => e.2.inService)
    let runs := held.filter (fun e => e.2.st == .running && !backStarved e.2)
    let s1 := (pavsInService s).foldl (fun s p =>
      let l := held.filter (fun e => e.1 / 17 == p)
      let back := (l.filter (fun e => backStarved e.2)).length
      let run := (runs.filter (fun e => e.1 / 17 == p)).length
      let wait := (l.filter (fun e => e.2.want != .none)).length
      pmcPav (pmcPav (pmcPav s p 2 ((16 - back - run) * c)) p 3 (back * c)) p 12 (wait * c)) s
    let s2 := runs.foldl (fun s e => match e.2.job with
      | some n => match getJob s n with
        | some j => setJob s n { j with spent := j.spent + c }
        | none => s
      | none => s) s1
    (s.bne.eng.filter (fun b => b.2.st == .busy)).foldl (fun s b => pmcPav (pmcDev s (32 + b.1) c) (b.1 / 2) 22 c) s2

/-! Clearing and scrubbing of engines (R171, R173, R176, R183) -/

/-- CLEARING_END. -/
def execClearingEnd (e : Fin 272) (s : State) : Host.Outcome State Fault Refusal :=
  let g := getEng s e.val
  answer s (if g.st ≠ .clearing then s else settleForced (setEng s e.val { engWipe g with st := .idle }))

/-- The tenant of the job that waits for a scrub of a part. -/
def scrubTenant (s : State) (pool : Bool) (x : Nat) : Option Nat :=
  match s.gth.jobs.find? (fun e => e.2.phase == .scrubWait && isPool e.2 == pool
      && (e.2.part == some x || e.2.part2 == some x)) with
  | some e => recTenant s e.2.cmd.fn
  | none => none

/-- SCRUB_END: `clean` is the read-back's result. -/
def execScrubEnd (e : Fin 272) (clean : Bool) (s : State) : Host.Outcome State Fault Refusal :=
  let g := getEng s e.val
  answer s (if g.st ≠ .scrubbing then s
    else
      let t := scrubTenant s false e.val
      let s1 := scrubDoneJobs (setEng s e.val { engWipe g with st := .idle, forceScrub := false }) false e.val
      let s2 := if clean then s1
        else record (pavInt s1 (e.val / 17) 3) 0x0503 e.val sevFault t (engPayload 1 e.val 0 0 g.progId 0)
      let s3 := if !clean || g.quarAfter then autoQuarantine s2 1 e.val else s2
      releaseSquashed (settleForced s3))

/-- FORCE_SCRUB of an IDLE engine by the keeper world. -/
def forceEngine (e : Nat) (s : State) : State :=
  let g := getEng s e
  if g.st = .idle then setEng s e { g with st := .scrubbing, forceScrub := true } else s

/-- FORCE_SCRUB of an IDLE big-number engine. -/
def forceBne (b : Nat) (s : State) : State :=
  let g := getBne s b
  if g.st = .idle then setBne s b { g with st := .scrubbing, forceScrub := true } else s

def execForceScrub (pool : Bool) (index : Fin 272) (s : State) : Host.Outcome State Fault Refusal :=
  answer s (if pool then (if index.val < 32 then forceBne index.val s else s) else forceEngine index.val s)

/-! Fountains (R168) -/

/-- The limit of a seed is reached. -/
def seedSpent (s : State) (f : Fountain) : Bool := decide (2 ^ 20 ≤ f.rowsDrawn ∨ f.seedTick + 2 ^ 14 ≤ now s)

/-- FOUNTAIN_RESEED: the engine asks for a seed, 256 mask rows before the limit. -/
def execFountainReseed (e : Fin 272) (s : State) : Host.Outcome State Fault Refusal :=
  let g := getEng s e.val
  let f := g.fnt
  answer s (if g.st ≠ .absent ∧ (!f.seeded ∨ f.stopped ∨ 2 ^ 20 ≤ f.rowsDrawn + 256 ∨ f.seedTick + 2 ^ 14 ≤ now s + 1) then
      setEng s e.val { g with fnt := { f with requested := true } }
    else s)

/-- FOUNTAIN_SEED_ARRIVE: the requested seed comes on the seed feed. -/
def execFountainSeedArrive (e : Fin 272) (s : State) : Host.Outcome State Fault Refusal :=
  let g := getEng s e.val
  answer s (if !g.fnt.requested || !kilnReleasing s || instStalled s 3 then s
    else
      let d := kilnDraw s 3 32
      pmcPav (setEng d.2 e.val { g with fnt := { seeded := true, seed := d.1, rowsDrawn := 0, seedTick := now s,
                                                 requested := false, stopped := false } }) (e.val / 17) 14 1)

/-- FOUNTAIN_STOP: the limit is reached and the kiln has stopped. -/
def execFountainStop (e : Fin 272) (s : State) : Host.Outcome State Fault Refusal :=
  let g := getEng s e.val
  let t := (g.job.bind (getJob s)).bind (fun j => recTenant s j.cmd.fn)
  answer s (if g.fnt.stopped || !g.fnt.seeded || !seedSpent s g.fnt || kilnReleasing s then s
    else
      let s1 := pavInt (setEng s e.val { g with fnt := { g.fnt with stopped := true, seeded := false } }) (e.val / 17) 2
      record s1 0x0505 e.val sevFault t (engPayload 1 e.val 0 0 g.progId 0))

/-- Mask rows drawn from the fountain (R168). -/
def drawRows (s : State) (e n : Nat) : State :=
  if n = 0 then s
  else
    let g := getEng s e
    pmcPav (setEng s e { g with fnt := { g.fnt with rowsDrawn := g.fnt.rowsDrawn + n } }) (e / 17) 13 n

/-- The core that an engine holds. -/
def coreOf (g : Eng) : Nat := (g.grant.map (fun c => c.core)).getD 0

/-! Cipher pieces (R257 to R259) -/

/-- The first cipher job of a pavilion that waits between two of its pieces. -/
def betweenPieces (s : State) (p : Nat) : Option (Nat × Job) :=
  s.gth.jobs.find? (fun e => isCipher e.2 && e.2.pav == p && e.2.phase == .running && e.2.part.isNone)

/-- The cipher job that next takes a position: one between two pieces, else the first that may start. -/
def nextPiece (s : State) (p : Nat) : Option (Nat × Job) :=
  match betweenPieces s p with
  | some e => some e
  | none => (nextJob s p).filter (fun e => isCipher e.2)

/-- The nonce or IV of a command that builds one, drawn at its first piece (R254). -/
def drawNonce (s : State) (j : Job) : State × Job :=
  if !(buildsNonce j.cmd) then (s, j)
  else
    let d := kilnDraw s 2 (nonceLen (selMode j.cmd))
    ({ d.2 with dgs := { d.2.dgs with nonces := satInc 32 d.2.dgs.nonces } }, { j with matB := d.1 })

/-- A piece that is masked from its engine's fountain (R249). -/
def pieceMasked (j : Job) : Bool := j.profile != 0 && (j.attrA.isSome || j.crit || j.cmd.desc.opcode == 0x1001)

/-- A masked piece whose fountain has no seed, and none can come: the kiln has stopped (R168, R314). -/
def pieceStarved (s : State) (e : Nat) (j : Job) : Bool :=
  pieceMasked j && ((getEng s e).fnt.stopped || (!(getEng s e).fnt.seeded && kilnStopped s))

/-- A masked piece waits for the seed of its fountain. -/
def pieceDry (s : State) (e : Nat) (j : Job) : Bool := pieceMasked j && !(getEng s e).fnt.seeded

/-- The kind of core that works for a piece: a digest piece needs one of its pavilion (R249), by its hash or MAC. -/
def pieceCore (j : Job) : CoreWant :=
  let alg := (j.attrA.map (fun a => a.alg)).getD 0
  let code := (macCode j.cmd alg).1
  if j.cmd.desc.opcode / 4096 ≠ 4 then .none
  else if (if j.cmd.desc.opcode = 0x4004 ∨ j.cmd.desc.opcode = 0x4005 then isKmacSet code || digestKeccak (macHash code)
      else digestKeccak (j.cmd.desc.select % 65536)) then .keccak
  else .sha2

/-- A request of engine `e` for a core: granted at once, or waiting in the order of requests (R13, R169). -/
def coreAsk (s : State) (e : Nat) (w : CoreWant) : State :=
  if w = .none then s
  else match coreFor s e w with
    | some k => setEng s e { getEng s e with want := .none, grant := some { core := k, fresh := false } }
    | none => coreQueue (setEng s e { getEng s e with want := w, grant := none }) e

/-! The context store (R258) -/

/-- The place of a job's context in the store: that of its stream, or its own. -/
def ctxSlot (n : Nat) (j : Job) : Nat := if isStream j.cmd.desc.opcode then j.stream else n

/-- The stream a job goes on with; a one-shot command starts from an empty one. -/
def ctxStream (s : State) (j : Job) : Stream := (liveStream s j).getD (streamNew j.cmd)

/-- Pieces done of the stream or job. -/
def ctxPieces (s : State) (j : Job) : Nat :=
  ceilDiv (ctxStream s j).processed (pieceSize j.cmd ((j.attrA.map (fun a => a.alg)).getD 0)) + j.pieces

/-- The chaining context: 256 bytes for Keccak, else 128. What stands in them the spec leaves open. -/
def ctxBytes (s : State) (j : Job) : Bytes :=
  let x := ctxStream s j
  let size := pieceSize j.cmd ((j.attrA.map (fun a => a.alg)).getD 0)
  padTo (if pieceCore j = .keccak then 256 else 128)
    (Sys2Proof.Config.ctxPack (j.cmd.desc.select % 65536) (if x.aad = [] then j.cmd.aux else x.aad)
      (if x.nonce = [] then j.matB else x.nonce) (x.context ++ j.cmd.input.take (j.pieces * size)))

/-- The associated data of a wrapped context: tenant, function, stream number and piece count. The spec names the fields, not
their widths (log 85). -/
def ctxAd (s : State) (j : Job) : Bytes :=
  leBytes 2 (tenantOf s j.cmd.fn) ++ leBytes 2 j.cmd.fn ++ leBytes 2 (streamNo j.cmd) ++ leBytes 4 (ctxPieces s j)

/-- The tenant of the job that next takes the core: one between two pieces, else the first that may start. -/
def ctxNext (s : State) (p : Nat) : Option Nat :=
  (((betweenPieces s p).orElse (fun _ => nextJob s p)).map (fun e => tenantOf s e.2.cmd.fn))

/-- A context that leaves the core now is saved in the clear: the same tenant goes on, or none does, and the key carries
CLEAR_CONTEXT, as an unkeyed digest counts as doing. -/
def clearSave (s : State) (p : Nat) (j : Job) : Bool :=
  (match ctxNext s p with
    | none => true
    | some t => t == tenantOf s j.cmd.fn)
  && (match j.attrA with
    | none => true
    | some a => attrFlag a flClear)

/-- The context leaves the core: in the clear, or wrapped under the context key with a nonce of the generation feed. -/
def saveContext (s : State) (p n : Nat) (j : Job) : State :=
  let ctx := ctxBytes s j
  let put (t : State) (x : SavedCtx) : State :=
    { t with dgs := { t.dgs with store := kins t.dgs.store (ctxSlot n j) x } }
  let s1 := pmcPav (meterAdd s 9 ctx.length) p 19 1
  if clearSave s p j then
    pmcDev (put { s1 with dgs := { s1.dgs with ctxClear := satInc 32 s1.dgs.ctxClear } }
      { wrapped := false, nonce := [], body := ctx, tag := [] }) 178 1
  else
    let d := genDraw s1 12
    let f := aesEnc s.dgs.ctxKey
    let box := gcmCtr f d.1 ctx
    pmcDev (put { d.2 with dgs := { d.2.dgs with ctxWrap := satInc 32 d.2.dgs.ctxWrap } }
      { wrapped := true, nonce := d.1, body := box, tag := gcmTag f d.1 (ctxAd s j) box }) 179 1

/-- A wrap that must wait for its nonce: the generation feed does not answer (R16, R309, R314). -/
def wrapHeld (s : State) (p : Nat) (j : Job) : Bool := !clearSave s p j && !genReady s

/-- The context comes back to a core; false: the tag of a wrapped one fails. -/
def restoreContext (s : State) (n : Nat) (j : Job) : State × Bool :=
  let k := ctxSlot n j
  let t := { s with dgs := { s.dgs with store := kdel s.dgs.store k, ctxRestore := satInc 32 s.dgs.ctxRestore } }
  match kfind s.dgs.store k with
  | none => (t, true)
  | some x => (meterAdd t 8 x.body.length, !x.wrapped || gcmTag (aesEnc s.dgs.ctxKey) x.nonce (ctxAd s j) x.body == x.tag)

/-- A piece goes onto engine `e`; the context saved at a piece boundary, or at the end of the last segment, is restored
(R258). -/
def putPiece (s : State) (e p n : Nat) (j : Job) : State :=
  let goesOn := isStream j.cmd.desc.opcode && !j.cmd.desc.flags.testBit 6
  let r := if j.pieces = 0 ∧ !goesOn then (s, true) else restoreContext s n j
  let s1 := setEng r.1 e { getEng r.1 e with st := .running, job := some n, profile := j.profile, cycles := 0, probed := [] }
  let s2 := setJob s1 n { j with part := some e }
  if r.2 then pmcPav (coreAsk s2 e (pieceCore j)) p 8 1 else faultJob s2 n stFault 0x015A 0

/-- A piece that needs masks which cannot come ends its job on engine `e`, which is scrubbed (R168). -/
def starvePiece (s : State) (e n : Nat) (j : Job) : State :=
  faultJob (setJob (setEng s e { getEng s e with st := .running, job := some n, profile := j.profile }) n
    { j with phase := .running, part := some e }) n stRngFailed s.rng.cause 0

/-- CIPHER_PIECE_START: `found` is what the key path found, at a first piece. A piece that waits for a seed or for the nonce
feed does not start. -/
def cipherPieceStart (p : Nat) (found : StoreFinding) (s0 : State) : State :=
  match nextPiece s0 p, freeEngine s0 p with
  | some (n, j), some e =>
      if j.phase = .running then
        (if pieceStarved s0 e j then starvePiece s0 e n j
         else if pieceDry s0 e j then s0
         else putPiece s0 e p n j)
      else if buildsNonce j.cmd && feedHeld s0 2 then s0
      else if pieceDry s0 e j && !pieceStarved s0 e j then s0
      else
        let r := pavSlot s0 p
        let s := r.1
        if !r.2 then s
        else match startRefused s n j with
          | some t => t
          | none =>
              if pieceStarved s e j then starvePiece s e n { j with started := now s }
              else if buildsNonce j.cmd && kilnStopped s then endJob s n (kilnStatus s).1 (kilnStatus s).2 [] 0 false
              else
                let d := deliverAll s n j p found
                match d.1 with
                | none => d.2
                | some j1 =>
                    let r2 := drawNonce d.2 j1
                    pmcPav (putPiece r2.1 e p n { r2.2 with phase := .running, started := now r2.1 }) p 4 1
  | _, _ => s0

def execCipherPieceStart (pav : Fin 16) (found : StoreFinding) (s : State) : Host.Outcome State Fault Refusal :=
  answer s (cipherPieceStart pav.val found s)

/-- Block counters of a piece that ran on engine `e`, the busy cycles of the core that worked for it, and the masks it drew:
how many, the spec does not state (R249, R458). -/
def pieceCount (s : State) (e : Nat) (j : Job) : State :=
  let p := e / 17
  let alg := (j.attrA.map (fun a => a.alg)).getD 0
  let size := pieceSize j.cmd alg
  let n := ceilDiv (min size (j.cmd.input.length - j.pieces * size)) (max 1 (pieceBlock j.cmd alg))
  let core := coreOf (getEng s e)
  let wide := (if j.attrA.isSome then macHash (macCode j.cmd alg).1 else j.cmd.desc.select % 65536) != 0x01
  let s1 := if pieceMasked j then drawRows s e (Sys2Proof.Config.pieceMasks n j.profile) else s
  match pieceCore j with
  | .none => if j.cmd.desc.opcode / 4096 = 3 then pmcPav s1 p 9 n else s1
  | .keccak => pmcDev (pmcPav s1 p 10 n) (64 + 4 * p + core) (n * coreCost true false j.attrA.isSome j.profile)
  | .sha2 => pmcDev (pmcPav s1 p 11 n) (128 + 2 * p + (core - 4)) (n * coreCost false wide j.attrA.isSome j.profile)

/-- The output bytes of piece `k`, the last one taking the rest. -/
def pieceSlice (j : Job) (out : Bytes) : Bytes :=
  let size := pieceSize j.cmd ((j.attrA.map (fun a => a.alg)).getD 0)
  let rest := out.drop (j.pieces * size)
  if j.piecesAll ≤ j.pieces + 1 then rest else rest.take size

/-- Write the bytes of a piece as produced. -/
def emitPiece (s : State) (j : Job) (out : Bytes) : State :=
  let b := pieceSlice j out
  if !directOut j || b = [] || decide (outRoom j.cmd < out.length) then s
  else
    let at_ := (j.item.getD 0) * j.cmd.desc.outLen
      + j.pieces * pieceSize j.cmd ((j.attrA.map (fun a => a.alg)).getD 0)
    let o := Output.data j.cmd.fn j.cmd.queue j.cmd.desc.tag at_ b
    if ideBlocked s then { s with gth := { s.gth with ideHeld := s.gth.ideHeld ++ [o] } }
    else meterAdd (viewAdd (emit s o) j.cmd.fn 9 b.length) 1 b.length

/-- What a job ends with; the jobs of a critical command make nothing themselves. -/
def jobResult (s : State) (j : Job) : State × JobEnd :=
  if j.crit then (s, okEnd [])
  else match j.kind with
    | .cipher => cipherResult s j
    | .pool _ => poolResult s j
    | _ => libResult s j

/-- The core of engine `e` is free of its piece. -/
def endPiece (s : State) (e : Nat) : State := setEng s e { getEng s e with st := .clearing, job := none, grant := none }

/-- KEY_SAVE draws the nonce of its blob from the generation feed (R307). -/
def savesKey (j : Job) : Bool := j.cmd.desc.opcode == 0x1002

/-- A wrap that the stopped kiln refuses ends its job (R314). -/
def wrapRefused (s : State) (e n : Nat) : State :=
  endJob (endPiece s e) n (kilnStatus s).1 (kilnStatus s).2 [] 0 false

/-- The last piece of a job. The context of a stream that goes on is saved for its next segment (R258); where that must wait
for the kiln, the piece does not end yet: none. -/
def lastPiece (s : State) (e n : Nat) (j : Job) : Option State :=
  let r := jobResult s j
  let s1 := emitPiece r.1 j r.2.out
  let goesOn := isStream j.cmd.desc.opcode && j.cmd.desc.opcode != 0x4003 && !j.cmd.desc.flags.testBit 7 && r.2.st == 0
  let whole := { j with pieces := 0 }
  if savesKey j && !genReady s then (if kilnStopped s then some (wrapRefused s e n) else none)
  else if goesOn && wrapHeld s1 (e / 17) whole then (if kilnStopped s1 then some (wrapRefused s e n) else none)
  else
    let s2 := if goesOn then saveContext s1 (e / 17) n whole else s1
    some (endJob (endPiece s2 e) n r.2.st r.2.dt r.2.out r.2.pair r.2.early)

/-- A piece that is not the last: the next one follows on the same core, or the context is saved. -/
def midPiece (s : State) (e n : Nat) (j : Job) (stay : Bool) : Option State :=
  let p := e / 17
  let s1 := emitPiece s j (if j.direct then (jobResult s j).2.out else [])
  if stay then some (pmcPav (setJob s1 n { j with pieces := j.pieces + 1 }) p 8 1)
  else
    let j2 := { j with pieces := j.pieces + 1, part := none }
    let s2 := setJob s1 n j2
    if wrapHeld s2 p j2 then (if kilnStopped s2 then some (wrapRefused s e n) else none)
    else some (endPiece (saveContext s2 p n j2) e)

/-- CIPHER_PIECE_END: `stay`: the next piece follows at once on the same core. -/
def cipherPieceEnd (e : Nat) (stay : Bool) (how : PieceEnd) (s : State) : State :=
  let g := getEng s e
  match g.job with
  | none => s
  | some n => match getJob s n with
    | none => s
    | some j =>
        if !isCipher j || g.st != .running || g.want != .none then s
        else match how with
          | .pairFault =>
              let s1 := if verifyOp j.cmd.desc.opcode then { s with dgs := { s.dgs with cmpFault := satInc 32 s.dgs.cmpFault } }
                else s
              faultJob s1 n stFault 0x0159 0
          | .wrapFail => faultJob s n stFault 0x015A 0
          | .good =>
              let s1 := pieceCount s e j
              ((if j.piecesAll ≤ j.pieces + 1 then lastPiece s1 e n j else midPiece s1 e n j stay)).getD s

def execCipherPieceEnd (e : Fin 272) (stay : Bool) (how : PieceEnd) (s : State) : Host.Outcome State Fault Refusal :=
  answer s (cipherPieceEnd e.val stay how s)

/-! The pool (R284, R290 to R292, R297, R298) -/

def isDual (j : Job) : Bool := match j.kind with
  | .pool d => d
  | _ => false

/-- The pool job that starts next: the first queued one, once it may start (R284). -/
def nextPool (s : State) : Option (Nat × Job) :=
  (s.gth.jobs.find? (fun e => isPool e.2 && e.2.phase == .queued)).filter (fun e => !startWaits s e.1 e.2)

/-- Big-number engines that can take a job. -/
def freeBnes (s : State) : List Nat :=
  (List.range 32).filter (fun b => inPool s b && (getBne s b).st == .idle && (findWork s 3 b).isNone)

/-- A pool job that draws blinding values. -/
def poolBlinds (j : Job) : Bool :=
  j.crit || j.cmd.desc.opcode == 0x5006 || (j.attrA.map (fun a => a.cls == clsPrivate)).getD false

/-- BNE_JOB_START: the first queued pool job takes one free engine, a dual job two. One that draws blinding values does not
start while the wire stalls. -/
def bneJobStart (found : StoreFinding) (s0 : State) : State :=
  match nextPool s0 with
  | none => s0
  | some (n, j) =>
      match freeBnes s0, isDual j with
      | [], _ => s0
      | [_], true => s0
      | b :: more, dual =>
          let r := bneSlot s0
          let s := r.1
          if poolBlinds j && feedHeld s0 4 then s0
          else if !r.2 then s
          else match startRefused s n j with
            | some t => t
            | none =>
                if poolBlinds j && kilnStopped s then endJob s n (kilnStatus s).1 (kilnStatus s).2 [] 0 false
                else
                  let s0 := if poolBlinds j then (kilnDraw s 4 32).2 else s
                  let d := deliverAll s0 n j (b / 2) found
                  match d.1 with
                  | none => d.2
                  | some j1 =>
                      let busy (s : State) (x : Nat) : State := pmcPav (setBne s x { getBne s x with
                        st := .busy, profile := j.profile, dual := dual, alg := j.prog, job := some n, probed := [] }) (x / 2) 21 1
                      let c : Option Nat := if dual then more.head? else none
                      let s1 := busy d.2 b
                      let s2 := match c with
                        | some x => busy s1 x
                        | none => s1
                      setJob s2 n { j1 with phase := .running, part := some b, part2 := c, started := now s2 }

def execBneJobStart (found : StoreFinding) (s : State) : Host.Outcome State Fault Refusal := answer s (bneJobStart found s)

/-- Every engine of a pool job to a state. -/
def bneParts (s : State) (j : Job) (st : BneState) : State :=
  let off (s : State) (x : Option Nat) : State := match x with
    | some b => setBne s b { getBne s b with st := st, job := none }
    | none => s
  off (off s j.part) j.part2

/-- BNE_JOB_END. -/
def bneJobEnd (b : Nat) (how : BneEnd) (s : State) : State :=
  match (getBne s b).job with
  | none => s
  | some n => match getJob s n with
    | none => s
    | some j =>
        if (getBne s b).st ≠ .busy then s
        else match how with
          | .invariant => faultJob s n stFault 0x01C7 0
          | .dualMismatch => if isDual j then faultJob s n stFault 0x01C6 0 else s
          | .good =>
              let r := jobResult s j
              let s1 := bneParts r.1 j (if r.2.dt = 0x01C4 then .scrubbing else .clearing)
              endJob s1 n r.2.st r.2.dt r.2.out r.2.pair r.2.early

def execBneJobEnd (b : Fin 32) (how : BneEnd) (s : State) : Host.Outcome State Fault Refusal := answer s (bneJobEnd b.val how s)

/-- BNE_CLEARING_END. -/
def execBneClearingEnd (b : Fin 32) (s : State) : Host.Outcome State Fault Refusal :=
  let g := getBne s b.val
  answer s (if g.st ≠ .clearing then s else settleForced (setBne s b.val { g with st := .idle, dual := false, probed := [] }))

/-- BNE_SCRUB_END. -/
def execBneScrubEnd (b : Fin 32) (clean : Bool) (s : State) : Host.Outcome State Fault Refusal :=
  let g := getBne s b.val
  answer s (if g.st ≠ .scrubbing then s
    else
      let t := scrubTenant s true b.val
      let s1 := scrubDoneJobs (setBne s b.val { g with st := .idle, dual := false, forceScrub := false, probed := [] }) true b.val
      let s2 := if clean then s1
        else record s1 0x0603 b.val sevFault t (engPayload 3 b.val 0 0 g.alg 0)
      let s3 := if !clean || g.quarAfter then autoQuarantine s2 3 b.val else s2
      releaseSquashed (settleForced s3))

end Sys2Proof.Machine
end

