-- ==== Sys2Proof/Machine/RegRead.lean ====
section
/-! DEFINITION. What every register reads: the PF BAR0 map and the VF window (20_register_map.md R501 to R504) over the
register tables of the chapters. An offset that no table names reads zero (R59). -/

namespace Sys2Proof.Machine

/-- The word of four bytes of a string, from an offset. -/
def wordAt (b : Bytes) (k : Nat) : Nat := leAt b (4 * k) 4

/-- The two halves of a wide value. -/
def lo32 (v : Nat) : Nat := v % 2 ^ 32
def hi32 (v : Nat) : Nat := v / 2 ^ 32 % 2 ^ 32

/-- A signed value in 32 bits. -/
def signed32 (x : Int) : Nat := (x % 4294967296).toNat

/-- A Boolean field at a bit. -/
def flag (k : Nat) (b : Bool) : Nat := 2 ^ k * b2n b

/-! GLB (R11, R455, R479, R502) -/

def phaseCode : Phase → Nat
  | .rom => 0 | .firmware => 1 | .selftest => 2 | .service => 3 | .shut => 4 | .halted => 5

def bootWord (s : State) : Nat :=
  phaseCode s.boot.phase + flag 4 s.boot.cold + flag 5 s.boot.coldLoad + flag 6 (s.boot.slot == 1)
    + flag 7 s.boot.fallback + 2 ^ 8 * (s.boot.fail % 256)

/-- GLB_REV: FIRMWARE is written once the keeper firmware runs. -/
def revWord (s : State) : Nat :=
  let fw := if s.ldg.keeperUp then
    (Sys2Proof.Config.fwVersion (if s.boot.slot = 0 then s.boot.fwDigestA else s.boot.fwDigestB)).toNat else 0
  1 + 2 ^ 8 * Sys2Proof.Config.romVersion.toNat + 2 ^ 16 * fw

def readGlb (s : State) (off : Nat) : Nat := match off with
  | 0x00 => 0x02561F5A
  | 0x04 => revWord s
  | 0x08 => 0x0003FFFF
  | 0x20 => bootWord s
  | 0x24 => s.boot.resetCause % 16
  | 0x28 => s.boot.resetCount
  | 0x2C => s.boot.serviceMs % 65536
  | 0x30 => s.boot.coldLoaded
  | 0x34 => s.boot.coldFailed % 65536
  | 0x38 => s.boot.coldRecs.length
  | 0x40 => (pavsInService s).length + 2 ^ 5 * poolSize s + flag 11 (s.rep.work != [])
  | 0x44 => s.rep.intStatus
  | 0x48 => s.rep.intEnable
  | 0x4C => s.rep.lastKind + 2 ^ 4 * s.rep.lastIndex + 2 ^ 13 * s.rep.lastEvent
  | _ => 0

/-! SDL (R53) -/

def sdlStatusWord (d : Sdl) : Nat :=
  sdlCode d.state + flag 3 d.everLocked + flag 4 d.refPresent + flag 5 d.reacq + flag 6 d.stepBack + flag 7 d.slewing
    + flag 8 d.coreFault + 2 ^ 16 * min d.qualCount 255

/-- TICK of the earliest ARMED entry; all ones if there is none. -/
def schedNext (d : Sdl) : Nat :=
  (d.sched.filter (fun e => e.armed)).foldl (fun n e => min n e.tick) (2 ^ 64 - 1)

/-- The entry that SDL_SCHED_SEL names, as bytes; zero when it is empty. -/
def schedView (d : Sdl) : Bytes := match d.sched[d.schedSel]? with
  | some e => entryBytes e
  | none => []

/-- What the SDL block reads, SDL_TIME_HI and SDL_SUBTICK apart. An edge more than 32,768 ticks off its boundary has a phase
error beyond 32 bits: the spec gives the register no value for it, and that it wraps modulo 2^32 is the model's choice
(log 137). -/
def readSdl (s : State) (off : Nat) : Nat :=
  let d := s.sdl
  if 0x40 ≤ off ∧ off < 0x50 then wordAt d.lastTod ((off - 0x40) / 4)
  else if 0x60 ≤ off ∧ off < 0x80 then wordAt (schedView d) ((off - 0x60) / 4)
  else match off with
  | 0x00 => sdlStatusWord d
  | 0x04 => b2n d.todTxEn + flag 1 d.refEn + flag 2 d.ppsPol
  | 0x08 => lo32 d.grid
  | 0x14 => d.utcOffset % 65536
  | 0x18 => d.limitS
  | 0x1C => if d.state = .holdover then min (holdSeconds d) (2 ^ 20 - 1) else 0
  | 0x20 => signed32 d.phaseErr
  | 0x24 => signed32 d.freqAdj
  | 0x28 => lo32 d.edge
  | 0x2C => hi32 d.edge
  | 0x30 => d.ppsCnt
  | 0x34 => d.ppsReject
  | 0x38 => d.todOk
  | 0x3C => d.todDiscard
  | 0x50 => d.sched.length
  | 0x54 => lo32 (schedNext d)
  | 0x58 => hi32 (schedNext d)
  | 0x5C => d.schedSel
  | 0x80 => d.overrun
  | 0x84 => d.ladderAbort
  | 0x88 => d.intStatus
  | 0x8C => d.intEnable
  | _ => 0

/-! GTH and the queue pairs (R66, R70, R72) -/

/-- Register `r` of a queue pair's five. -/
def readQp (q : QPair) (r : Nat) : Nat := match r with
  | 0x00 => lo32 q.sqBase
  | 0x04 => hi32 q.sqBase
  | 0x08 => lo32 q.cqBase
  | 0x0C => hi32 q.cqBase
  | 0x10 => qpCfg q
  | _ => 0

def gthStatusWord (s : State) : Nat :=
  b2n (s.gth.qp.any (fun e => e.2.enable && !e.2.error && mayFetch s (e.1 / 16))) + flag 1 s.gth.ideRequired
    + flag 2 s.gth.ideSecure + flag 3 (stageFull s) + flag 4 (critFull s)
    + flag 5 (horizonPaused s) + 2 ^ 6 * (s.gth.linkWidth % 16) + 2 ^ 10 * (s.gth.linkSpeed % 8)

def readGth (s : State) (off : Nat) : Nat :=
  if off < 0x200 then readQp (getQp s (off / 0x20)) (off % 0x20)
  else match off with
  | 0x200 => gthStatusWord s
  | 0x204 => b2n s.gth.fetchEn
  | 0x208 => s.gth.qerr
  | 0x20C => s.gth.qerrFn + 2 ^ 10 * s.gth.qerrQueue + 2 ^ 14 * s.gth.qerrCause
  | 0x210 => ceilDiv (stageUsed s) 1024
  | 0x214 => min (critPending s) 256
  | 0x218 => s.gth.intStatus
  | 0x21C => s.gth.intEnable
  | _ => 0

/-- VF_STATUS: SUSPENDED shows a suspension of key use (R404, R434). -/
def vfStatusWord (s : State) (n : Nat) : Nat :=
  let v := getVf s n
  b2n (v.st == .quiesced) + flag 1 (v.st == .frozen) + flag 2 v.flrBusy + flag 3 (suspendDetail s).isSome

/-- The window of VF `n` (R70, R504). The doorbells are write-only and read zero. -/
def readVf (s : State) (n off : Nat) : Nat :=
  let e := kget (fun _ => (0, 0, 0)) s.gth.vfErr n
  if off < 0x80 then readQp (getQp s (qpIx n (off / 0x20))) (off % 0x20)
  else match off with
  | 0x80 => n + 2 ^ 10 * (getVf s n).tenant + flag 22 ((getVf s n).st != .unbound)
  | 0x84 => vfStatusWord s n
  | 0x88 => e.1
  | 0x8C => e.2.1 + 2 ^ 2 * e.2.2
  | _ => 0

/-! AUT (R115) -/

def readAut (s : State) (off : Nat) : Nat := match off with
  | 0x00 => s.aut.custodians.length + flag 7 (s.ldg.keeperUp && commissioning s) + flag 8 s.aut.card0.present + flag 9 s.aut.card1.present
      + flag 10 s.aut.consoleUp + flag 11 s.aut.wait.isSome
  | 0x04 => match s.aut.wait with
    | some w => w.cmd.desc.opcode + 2 ^ 16 * ((if w.presence then w.present.length else w.counted.length) % 256)
        + 2 ^ 24 * (w.required % 256)
    | none => 0
  | 0x08 => match s.aut.wait with
    | some w => lo32 w.finish
    | none => 0
  | 0x0C => match s.aut.wait with
    | some w => hi32 w.finish
    | none => 0
  | 0x10 => s.aut.conDiscard
  | 0x14 => s.aut.tokenReject
  | 0x18 => s.aut.authReject
  | _ => 0

/-! KST (R150). ROOT, KST_UNITS_FREE and KST_LARGEST_RUN read their reset value 0 until the store is in service. -/

def kstStatusWord (s : State) : Nat :=
  b2n s.kst.ready + flag 1 s.kst.reverify + flag 2 (s.kst.scrubEn && s.kst.ready)
    + (if s.kst.ready then match rootIx s with
      | some r => 2 ^ 3 * r + flag 5 (kfind s.peat.roots r).isSome
      | none => 0
    else 0)

def readKst (s : State) (off : Nat) : Nat :=
  let k := s.kst
  if 0x80 ≤ off ∧ off < 0xC0 then kget (fun _ => 0) k.pathDeliver ((off - 0x80) / 4)
  else match off with
  | 0x00 => kstStatusWord s
  | 0x04 => b2n k.scrubEn + 2 * k.scrubPeriod
  | 0x08 => k.intStatus
  | 0x0C => k.intEnable
  | 0x10 => k.lowMark
  | 0x14 => if k.ready then unitsFree s else 0
  | 0x18 => if k.ready then largestRun s else 0
  | 0x1C => k.objs.foldl (fun n e => if e.2.st = .reserved then n + e.2.attr.units else n) 0
  | 0x20 => objsIn s (fun st => st == .active || st == .damaged)
  | 0x24 => objsIn s (fun st => st == .damaged)
  | 0x28 => k.damagedLast
  | 0x2C => k.scrubPos
  | 0x30 => k.scrubPass
  | 0x34 => k.innerCorr
  | 0x38 => k.outerCorr
  | 0x3C => k.uncorr
  | 0x40 => k.tagFail
  | 0x44 => k.reverifyObj
  | 0x48 => k.reverifyFail
  | 0x4C => metersBound s
  | 0x50 => lo32 k.meterAdv
  | 0x58 => k.exhausted
  | 0x5C => k.otsStall
  | 0x60 => k.created
  | 0x64 => k.deleted
  | 0x68 => k.loaded
  | 0x6C => k.blobReject
  | 0x70 => k.bneDeliver
  | 0x74 => objsIn s (fun st => st == .draining)
  | 0x78 => k.zeroRedraw
  | 0x7C => k.returnRefused
  | _ => 0

/-! RNG (R322) -/

def rngStatusWord (s : State) : Nat :=
  kilnCode s.rng.st + ((List.range 8).foldl (fun n i => n + flag (3 + i) (srcPassing s i)) 0)
    + flag 11 (kilnReleasing s) + 2 ^ 16 * s.rng.blocks.length

def readRng (s : State) (off : Nat) : Nat :=
  let r := s.rng
  if 0x20 ≤ off ∧ off < 0x60 then
    let x := getSrc s ((off - 0x20) / 8)
    if off % 8 = 0 then srcCode x.st + 2 ^ 2 * x.lastFail + 2 ^ 16 * x.fails
    else x.beat % 65536 + 2 ^ 16 * min x.aliveLow 255
  else if 0x60 ≤ off ∧ off < 0x74 then
    let x := getInst s ((off - 0x60) / 4)
    b2n x.seeded + flag 1 x.stalled + 2 ^ 2 * min x.requests (2 ^ 20)
  else match off with
  | 0x00 => rngStatusWord s
  | 0x04 => r.intStatus
  | 0x08 => r.intEnable
  | 0x0C => 0x29 + 2 ^ 8 * 0x31A
  | 0x10 => 0x08 + 2 ^ 8 * 0x200
  | 0x14 => b2n r.emberZero + 2 ^ 16 * (r.emberWrites % 65536)
  | 0x18 => r.rawSource + flag 3 r.rawCond
  | 0x1C => r.warmTime % 65536
  | 0x74 => lo32 r.rawBits
  | 0x7C => r.blockCount
  | 0x80 => r.reseeds
  | 0x84 => lo32 r.portBytes
  | 0x8C => r.rctFail
  | 0x90 => r.aptFail
  | 0x94 => r.aliveFail
  | 0x98 => r.lockFail
  | 0x9C => r.stalls
  | _ => 0

/-! TMP and PEAT (R420, R421) -/

/-- A source has produced an event in its current window. -/
def srcActive (s : State) (i : Nat) : Bool := match (getCnt s i).last with
  | some t => decide (s.tick < t + (getSrcCfg s i).w)
  | none => false

/-- Events still counted toward N. -/
def srcPending (s : State) (i : Nat) : Nat :=
  ((getCnt s i).recent.filter (fun t => decide (s.tick < t + (getSrcCfg s i).w))).length

def tmpStatusWord (s : State) : Nat :=
  (List.range 16).foldl (fun n i => n + flag i (srcActive s i)) 0 + flag 16 (s.tmp.level == 3)
    + flag 17 (s.tmp.throttling != []) + flag 18 s.peat.quenchOutLow + flag 19 s.tmp.defaults + 2 ^ 20 * (s.tmp.meshEn % 16)

/-- A signed byte as its eight bits. -/
def byteOf (x : Int) : Nat := (x % 256).toNat

def readTmp (s : State) (off : Nat) : Nat :=
  let t := s.tmp
  if 0x40 ≤ off ∧ off < 0x80 then
    let c := getSrcCfg s ((off - 0x40) / 4)
    c.resp + flag 4 c.cellQuench + 2 ^ 8 * c.n + 2 ^ 16 * c.w
  else if 0x80 ≤ off ∧ off < 0xC0 then
    let i := (off - 0x80) / 4
    b2n (srcActive s i) + flag 1 (getCnt s i).fired + 2 ^ 8 * min (srcPending s i) 255 + 2 ^ 16 * (getCnt s i).events
  else if 0xC0 ≤ off ∧ off < 0xD0 then
    let l := (off - 0xC0) / 4
    b2n (t.meshEn.testBit l) + flag 1 (t.meshOk.testBit l) + 2 ^ 16 * kget (fun _ => 0) t.meshMiss l
  else if 0xD0 ≤ off ∧ off < 0xE4 then kget (fun _ => 0) t.fired ((off - 0xD0) / 4 + 1)
  else if 0x18 ≤ off ∧ off < 0x20 then (kget (fun _ => 0) t.temp ((off - 0x18) / 4) % 2048).toNat
  else if 0x20 ≤ off ∧ off < 0x30 then kget (fun _ => 0) t.volt ((off - 0x20) / 4) % 8192
  else if 0x30 ≤ off ∧ off < 0x40 then
    (getWin s ((off - 0x30) / 4)).1 % 256 + 2 ^ 8 * ((getWin s ((off - 0x30) / 4)).2 % 256)
  else match off with
  | 0x00 => tmpStatusWord s
  | 0x04 => t.intStatus
  | 0x08 => t.intEnable
  | 0x0C => t.level + 2 ^ 8 * t.source
  | 0x10 => t.throttleDuty % 128
  | 0x14 => byteOf t.tempLow + 2 ^ 8 * byteOf t.tempHigh + 2 ^ 16 * byteOf t.cellTempLow + 2 ^ 24 * byteOf t.cellTempHigh
  | 0xE4 => t.lastSource + 2 ^ 4 * t.lastResp
  | 0xE8 => lo32 t.lastTime
  | 0xF0 => t.cfgSeq
  | 0xF4 => t.clockOk
  | 0xF8 => t.clearNs % 65536 + 2 ^ 16 * (t.scrubUs % 65536)
  | 0xFC => t.events
  | _ => 0

def readPeat (s : State) (off : Nat) : Nat :=
  let p := s.peat
  let l := p.latch.getD { cause := 0, source := 0, response := 0, onCell := false, hours := 0, cycles := 0 }
  if 0x2C ≤ off ∧ off < 0x6C then match p.cellLog[(off - 0x2C) / 4]? with
    | some e => e.hours % 2 ^ 28 + 2 ^ 28 * e.source
    | none => 0
  else match off with
  | 0x00 => b2n p.main + flag 1 (decide (2200 ≤ p.hold)) + flag 2 p.cellLow + flag 3 p.latch.isSome + flag 4 (quenched s)
      + flag 5 (serving s)
  | 0x04 => latchWord l
  | 0x08 => l.hours
  | 0x0C => l.cycles % 2 ^ 24
  | 0x10 => p.hours
  | 0x14 => p.cycles % 2 ^ 24
  | 0x18 => p.roots.foldl (fun n e => n + 2 ^ e.1) 0 % 256
  | 0x1C => p.vbat % 8192
  | 0x20 => p.hold % 8192
  | 0x24 => p.recom % 128
  | 0x28 => p.cellLog.length + 2 ^ 8 * (p.cellOverflow % 256)
  | 0x6C => p.eccCorr
  | 0x70 => p.eccUncorr
  | 0x74 => if serving s then s.tmp.meshEn else 0
  | 0x78 => p.meterWr
  | 0x7C => p.chanWr
  | _ => 0

/-! LCS and DBG (R440) -/

def readLcs (s : State) (off : Nat) : Nat :=
  if 0x10 ≤ off ∧ off < 0x20 then wordAt s.lcs.deviceId ((off - 0x10) / 4)
  else if 0x50 ≤ off ∧ off < 0x70 then
    let j := (off - 0x50) / 4
    (s.dbg.regions[2 * j]?).getD 0 + 2 ^ 16 * (s.dbg.regions[2 * j + 1]?).getD 0
  else match off with
  | 0x00 => s.lcs.state + 2 ^ 3 * s.lcs.target + flag 6 (markBurned s.lcs s.lcs.target 0 && !markBurned s.lcs s.lcs.target 2)
      + 2 ^ 7 * lcsMarks s.lcs
  | 0x04 => s.lcs.intStatus
  | 0x08 => s.lcs.intEnable
  | 0x0C => s.lcs.history % 64
  | 0x20 => lo32 s.lcs.lastTime
  | 0x40 => dbgStatus s
  | 0x44 => lo32 s.dbg.rights
  | 0x48 => hi32 s.dbg.rights % 2 ^ 24
  | 0x70 => lo32 s.dbg.endTick
  | 0x78 => s.dbg.opens
  | _ => 0

/-! PRK (R350) -/

/-- Both ports hold current associations: the unit holds a park key and a neighbour on each link. -/
def macsecOn (s : State) : Bool :=
  s.prk.key != [] && s.prk.portA.linkUp && s.prk.portB.linkUp && s.prk.portA.neighbour.isSome && s.prk.portB.neighbour.isSome

def leaseBits (s : State) : Nat := unitBits ((List.range 64).filter (fun u => (getPeer s u).lease))

def portStatusWord (p : PeerPort) : Nat :=
  b2n p.linkUp + flag 1 p.fecLock + flag 2 p.neighbour.isSome + 2 ^ 3 * ((p.neighbour.map (fun n => n.2)).getD 0 % 64)
    + 2 ^ 9 * (p.rot % 4) + flag 11 p.nextInstalled

def parkUnitWord (s : State) (u : Nat) : Nat :=
  let p := getPeer s u
  let m := inRoster s u && !isEvicted s u
  b2n m + flag 1 p.lease + flag 2 (p.lease && p.arcB) + flag 3 (isLost s u) + flag 4 (isEvicted s u)
    + flag 5 (isEvicted s u && s.prk.rejoin.testBit u) + flag 6 (peerDebug p) + flag 7 ((leAt p.status 3 1).testBit 0)
    + (if p.lease then 2 ^ 8 * ((if p.arcB then hopsB s u else hopsA s u) % 64) else 0) + 2 ^ 16 * (peerPavs p % 32)

def readPrk (s : State) (off : Nat) : Nat :=
  let p := s.prk
  if 0x100 ≤ off ∧ off < 0x200 then parkUnitWord s ((off - 0x100) / 4)
  else match off with
  | 0x00 => parkCode p.st + flag 3 p.headStrap + 2 ^ 4 * (p.address % 64) + 2 ^ 10 * (parkUnits s).length
      + flag 17 (macsecOn s) + flag 18 p.serving.isSome
  | 0x04 => p.epoch
  | 0x08 => p.intStatus
  | 0x0C => p.intEnable
  | 0x10 => lo32 (unitBits (List.range (parkN s)))
  | 0x18 => lo32 (leaseBits s)
  | 0x20 => lo32 p.lost
  | 0x28 => lo32 p.evicted
  | 0x30 => (p.txns.length + p.parts.length) % 65536
  | 0x34 => min (ceilDiv (holdSize p.portA) 1024) 1024
  | 0x38 => min (ceilDiv (holdSize p.portB) 1024) 1024
  | 0x3C => p.switchovers
  | 0x40 => p.resent
  | 0x44 => p.discard
  | 0x48 => p.txnOk
  | 0x4C => p.txnPartial
  | 0x50 => p.txnAbort
  | 0x54 => p.spreadOut
  | 0x58 => p.spreadIn
  | 0x5C => p.spreadRetried
  | 0x60 => p.lostDecl
  | 0x64 => p.macsecDrop
  | 0x68 => p.walks
  | 0x6C => p.leaseExpired
  | 0x70 => portStatusWord p.portA
  | 0x74 => portStatusWord p.portB
  | 0x78 => p.portA.fecCorr
  | 0x7C => p.portB.fecCorr
  | _ => 0

/-! LDG, MPU and PWR (R30, R398) -/

def ldgStatusWord (s : State) : Nat :=
  b2n s.ldg.keeperUp + flag 1 s.ldg.visitorUp + flag 2 s.ldg.assignLock
    + 2 ^ 3 * (s.ldg.parts.length + b2n s.ldg.visitorUp) + 2 ^ 10 * residentCount s + 2 ^ 14 * (12 - residentWays s)

def mpuInfoWord (f : MpuFault) : Nat :=
  f.master % 1024 + flag 10 f.write + flag 11 f.noMatch + flag 12 f.locked + 2 ^ 16 * (f.epoch % 256) + 2 ^ 24 * f.count

def readLdg (s : State) (off : Nat) : Nat :=
  if 0x100 ≤ off ∧ off < 0x1C0 then
    let f := getFault s ((off - 0x100) / 8)
    if off % 8 = 0 then lo32 f.addr else mpuInfoWord f
  else match off with
  | 0x00 => ldgStatusWord s
  | 0x04 => b2n s.ldg.assignLock
  | 0x08 => s.ldg.intStatus
  | 0x0C => s.ldg.intEnable
  | 0x10 => s.ldg.kreq.length % 128 + 2 ^ 8 * (s.ldg.knote.length % 128) + 2 ^ 16 * (s.ldg.discards % 65536)
  | 0x14 => unitBits (heldWays s) % 2 ^ 12
  | 0x18 => s.mpu.epoch
  | 0x1C => b2n s.mpu.committing + flag 1 s.mpu.drainTimeout + flag 2 s.mpu.lockedWrite
  | 0x20 => s.mpu.denied
  | 0x24 => s.mpu.commits
  | 0xF00 => s.pwr.capNext
  | 0xF04 => dutyNow s + flag 7 (decide (dutyNow s < 64)) + 2 ^ 8 * s.pwr.estW + flag 15 s.pwr.capErr
  | 0xF08 => s.pwr.hold
  | 0xF0C => s.pwr.pendingGate.foldl (fun n e => n + 2 ^ e.1) 0
  | 0xF10 => s.pwr.gated
  | 0xF14 => s.pwr.holdTimeout
  | _ => 0

/-! EVT (R469, R503) -/

def readEvt (s : State) (off : Nat) : Nat :=
  let e := s.evt
  match off with
  | 0x00 => e.ring.length + 2 ^ 13 * unflushed s + flag 26 (decide (64 ≤ unflushed s)) + flag 27 e.erasing
  | 0x04 => e.intStatus
  | 0x08 => e.intEnable
  | 0x0C => e.nextSeq
  | 0x10 => e.oldestSeq
  | 0x14 => e.historyCap
  | 0x18 => (e.history.filter (fun r => r.type != 0)).length
  | 0x1C => e.written
  | 0x20 => e.merged
  | 0x24 => e.dropped
  | 0x28 => e.flushes
  | 0x2C => e.pageFail
  | 0x30 => e.recordFail
  | 0x34 => e.clears
  | 0x38 => e.faults
  | 0x3C => e.alarms
  | 0x40 => e.lastType + 2 ^ 16 * e.lastSeverity
  | 0x44 => e.lastSeq
  | 0x48 => e.untraceable
  | 0x4C => e.pagesErased
  | _ => 0

/-! DGS and MEAS (R275) -/

def readDgs (s : State) (off : Nat) : Nat :=
  if 0x100 ≤ off ∧ off < 0x700 then wordAt (getMeas s ((off - 0x100) / 0x30)).value ((off - 0x100) % 0x30 / 4)
  else if 0x700 ≤ off ∧ off < 0x780 then (getMeas s ((off - 0x700) / 4)).count
  else match off with
  | 0x00 => s.gth.streams.length + flag 15 s.dgs.ctxKeyValid
  | 0x04 => s.dgs.ctxClear
  | 0x08 => s.dgs.ctxWrap
  | 0x0C => s.dgs.ctxRestore
  | 0x10 => s.dgs.nonces
  | 0x14 => s.dgs.tagFail
  | 0x18 => s.dgs.streamClosed
  | 0x1C => s.dgs.cmpFault
  | _ => 0

/-! PMC (R458, R461) -/

/-- Five bits for each of the meters from `lo` on. -/
def windowWord (s : State) (lo n : Nat) : Nat := (List.range n).foldl (fun v i => v + 2 ^ (5 * i) * winOf s (lo + i)) 0

/-- The counter that an offset of the block names. -/
def pmcIndex (off : Nat) : Option Nat :=
  if off < 0x600 then some (24 * (off / 0x60) + off % 0x60 / 4)
  else if off < 0x980 then some (384 + (off - 0x600) / 4)
  else none

def readPmc (s : State) (off : Nat) : Nat := match pmcIndex off with
  | some i => lo32 (pmcGet s i)
  | none => match off with
    | 0xF04 => s.pmc.intStatus
    | 0xF08 => s.pmc.intEnable
    | 0xF0C => windowWord s 0 6
    | 0xF10 => windowWord s 6 4
    | _ => 0

/-! PAV (R183, R184, R478) -/

def engCode : EngState → Nat
  | .idle => 0 | .loading => 1 | .running => 2 | .clearing => 3 | .scrubbing => 4 | .quarantined => 5 | .testing => 6
  | .absent => 0

def engStatusWord (g : Eng) : Nat :=
  engCode g.st + flag 4 g.inService + flag 5 g.spare + 2 ^ 6 * (g.profile % 4) + flag 8 (g.fnt.seeded && !g.fnt.stopped)
    + 2 ^ 16 * (g.position % 16)

/-- Register `r` of an engine slot's four; an absent engine's read zero (R2). -/
def readEng (g : Eng) (r : Nat) : Nat :=
  if g.st = .absent then 0
  else match r with
  | 0x0 => b2n (g.st != .quarantined && g.st != .testing) + flag 1 g.forceScrub
  | 0x4 => engStatusWord g
  | 0x8 => g.progId
  | 0xC => g.faultDetail % 65536 + 2 ^ 16 * min g.faultCount 65535
  | _ => 0

/-- The slot that serves a position, if one does. -/
def posSlot (s : State) (p i : Nat) : Option Nat :=
  (List.range 17).find? (fun k => (getEng s (17 * p + k)).inService && (getEng s (17 * p + k)).position == i)

def posByte (s : State) (p i : Nat) : Nat := match posSlot s p i with
  | some k => k
  | none => 0x80

def engsIn (s : State) (p : Nat) (f : Eng → Bool) : List Nat :=
  (List.range 17).filter (fun k => f (getEng s (17 * p + k)))

/-- Quarantined cores of a pavilion: four Keccak bits and two SHA-2 bits. -/
def coreQuar (s : State) (p : Nat) : Nat :=
  (List.range 4).foldl (fun n c => n + flag c (s.rep.kecs.contains (4 * p + c))) 0
    + (List.range 2).foldl (fun n c => n + flag (4 + c) (s.rep.shas.contains (2 * p + c))) 0

def readPav (s : State) (p off : Nat) : Nat :=
  let v := getPav s p
  if off < 0x110 then readEng (getEng s (17 * p + off / 0x10)) (off % 0x10)
  else if 0x828 ≤ off ∧ off < 0x838 then
    (List.range 4).foldl (fun n i => n + 2 ^ (8 * i) * posByte s p (off - 0x828 + i)) 0
  else match off with
  | 0x800 => b2n (pavInService s p) + 2 * (engsIn s p (fun g => g.inService && g.st == .idle)).length
      + 2 ^ 6 * engInService s p + flag 11 (s.rep.pavs.contains p)
  | 0x804 => min (pavLoad s p) (2 ^ 32 - 1)
  | 0x808 => (s.gth.jobs.filter (fun e => !isPool e.2 && e.2.pav == p && e.2.phase == .queued)).length
  | 0x80C => v.cacheUsed
  | 0x810 => v.cacheHit
  | 0x814 => v.cacheMiss
  | 0x818 => v.coreWait
  | 0x81C => v.scrubs
  | 0x820 => v.intStatus
  | 0x824 => v.intEnable
  | 0x838 => match v.spare with
    | some k => k + flag 5 true
    | none => 0
  | 0x83C => (engsIn s p (fun g => g.st == .quarantined)).foldl (fun n k => n + 2 ^ k) 0
  | 0x840 => coreQuar s p
  | 0x844 => v.testState + 2 ^ 2 * v.testKind + 2 ^ 5 * v.testLocal + 2 ^ 16 * v.failCode
  | 0x848 => v.substCount
  | 0x84C => v.tests
  | 0x850 => v.testFails
  | 0x854 => v.quarCount
  | 0x858 => v.testTime
  | 0x85C => v.lastCause
  | _ => 0

/-! BNE (R301) -/

def bneCode : BneState → Nat
  | .idle => 0 | .busy => 1 | .clearing => 2 | .scrubbing => 3 | .quarantined => 4 | .testing => 5 | .absent => 0

def readBne (s : State) (b off : Nat) : Nat :=
  let g := getBne s b
  if g.st = .absent then 0
  else if off = 0 then
    bneCode g.st + flag 3 (inPool s b) + flag 4 g.forceScrub + 2 ^ 5 * (g.profile % 4)
      + flag 7 (g.dual && g.st == .busy) + 2 ^ 16 * (g.alg % 4096)
  else if off = 4 then g.faultDetail % 65536 + 2 ^ 16 * min g.faultCount 65535
  else 0

/-! The map (R501) -/

/-- What a BAR0 offset reads, a latched high part apart. -/
def readBar0 (s : State) (a : Nat) : Nat :=
  if a < 0x1000 then readGlb s a
  else if a < 0x2000 then readSdl s (a - 0x1000)
  else if a < 0x3000 then readGth s (a - 0x2000)
  else if a < 0x4000 then 0
  else if a < 0x5000 then readAut s (a - 0x4000)
  else if a < 0x6000 then readKst s (a - 0x5000)
  else if a < 0x7000 then readRng s (a - 0x6000)
  else if a < 0x7800 then readTmp s (a - 0x7000)
  else if a < 0x8000 then readPeat s (a - 0x7800)
  else if a < 0x9000 then readLcs s (a - 0x8000)
  else if a < 0xA000 then readPrk s (a - 0x9000)
  else if a < 0xB000 then readLdg s (a - 0xA000)
  else if a < 0xC000 then readEvt s (a - 0xB000)
  else if a < 0x10000 then readDgs s (a - 0xC000)
  else if a < 0x20000 then readPmc s (a - 0x10000)
  else if a < 0x30000 then readPav s ((a - 0x20000) / 0x1000) ((a - 0x20000) % 0x1000)
  else if a < 0x40000 then readBne s ((a - 0x30000) / 0x800) ((a - 0x30000) % 0x800)
  else 0

/-! The latches (R507) -/

/-- The latch that a _HI register, PMC_LATCH_HI or SDL_SUBTICK reads. -/
def hiPair (a : Nat) : Option Nat := match a with
  | 0x100C => some 0
  | 0x1010 => some 12
  | 0x5054 => some 1
  | 0x6078 => some 2
  | 0x6088 => some 3
  | 0x9014 => some 4
  | 0x901C => some 5
  | 0x9024 => some 6
  | 0x902C => some 7
  | 0x70EC => some 8
  | 0x8024 => some 9
  | 0x8074 => some 10
  | 0x10F00 => some 11
  | _ => none

/-- What a read of a _LO register, or of a counter register, latches: its pair and the high part. -/
def loLatch (s : State) (a : Nat) : Option (Nat × Nat) := match a with
  | 0x1008 => some (0, hi32 s.sdl.grid)
  | 0x5050 => some (1, hi32 s.kst.meterAdv)
  | 0x6074 => some (2, hi32 s.rng.rawBits)
  | 0x6084 => some (3, hi32 s.rng.portBytes)
  | 0x9010 => some (4, hi32 (unitBits (List.range (parkN s))))
  | 0x9018 => some (5, hi32 (leaseBits s))
  | 0x9020 => some (6, hi32 s.prk.lost)
  | 0x9028 => some (7, hi32 s.prk.evicted)
  | 0x70E8 => some (8, hi32 s.tmp.lastTime)
  | 0x8020 => some (9, hi32 s.lcs.lastTime)
  | 0x8070 => some (10, hi32 s.dbg.endTick)
  | _ =>
      if 0x10000 ≤ a ∧ a < 0x20000 then match pmcIndex (a - 0x10000) with
        | some i => some (11, pmcGet s i / 2 ^ 32)
        | none => none
      else none

def masterIx : Master → Nat
  | .pf => 0 | .keeper => 1 | .debug => 2

/-- The latch of a pair and a master. -/
def latchIx (pair : Nat) (m : Master) : Nat := 3 * pair + masterIx m

/-- A master's latch takes a value. -/
def latchSet (s : State) (pair : Nat) (m : Master) (v : Nat) : State :=
  { s with latch := kset (fun _ => 0) s.latch (latchIx pair m) v }

/-- A master's read of a BAR0 register: the value, and the state with what the read latches. -/
def regRead (s : State) (m : Master) (a : Nat) : Nat × State :=
  match hiPair a with
  | some p => (kget (fun _ => 0) s.latch (latchIx p m), s)
  | none =>
      let v := readBar0 s a % 2 ^ 32
      match loLatch s a with
      | none => (v, s)
      | some (p, h) =>
          let s1 := latchSet s p m h
          -- SDL_TIME_LO latches SDL_SUBTICK at the same instant (R53)
          if p = 0 then (v, bumpCtr (latchSet s1 12 m (Sys2Proof.Config.subtick s.freeCtr % 65536))) else (v, s1)

end Sys2Proof.Machine
end

