-- ==== Sys2Proof/Machine/Clock.lean ====
section
/-! DEFINITION. What passes while no command waits: one local tick (R15, R37, R444, R458). -/

namespace Sys2Proof.Machine

/-- Counters of device time: STAGE_FULL_TICKS, HORIZON_TICKS, OTS_STALL_TICKS (R458). -/
def tickCounters (s : State) : State :=
  let s0 := slotTick s
  let s1 := if stageFull s0 then pmcDev s0 164 1 else s0
  let s2 := if horizonPaused s then pmcDev s1 165 1 else s1
  if s.gth.held.any (fun h => h.why == .ots) then pmcDev s2 182 1 else s2

/-- A tick begins: what followed the completions of the last one leaves, then the model's own clock, the grid while the part is
powered, the counters of time, and the phase of a start. -/
def tickBegin (s0 : State) : State :=
  let s := flushTick s0
  let s1 := { s with tick := s.tick + 1, sdl := if s.boot.pwrGood then gridTick s.sdl else s.sdl }
  bootTick (if s.boot.pwrGood then avsTick (powerTick (tickCounters s1)) else s1)

/-- One tick: it begins, a life-cycle transition under way goes on (R430), the keeper world takes its next command, should the
last one have ended in an event (R26), and what the new tick brings is done. -/
def idleTick (s0 : State) : State :=
  { settle (keeperNext (transitionTick (tickBegin s0))) with pending := s0.pending }

end Sys2Proof.Machine
end

