-- ==== Sys2Proof/Machine/HostSpace.lean ====
section
/-! DEFINITION. What the host reaches besides registers: configuration space, the MSI-X tables (03_gatehouse.md R54 to R58, R61)
and the SPDM responder of the DOE mailbox (R62). The spec names the capabilities and their values; where they lie in
configuration space is taken from the PCI Express specification and, where that leaves it open, chosen (log 138). -/

namespace Sys2Proof.Machine

/-! Configuration space -/

def setPci (s : State) (f : PciCfg → PciCfg) : State := { s with gth := { s.gth with pci := f s.gth.pci } }

/-- Entries of a function's MSI-X table (R58). -/
def msixSize (fn : Nat) : Nat := if fn = 0 then 64 else 4

def pciVendor : Nat := 0x1F5A
/-- Device identity of the PF and of a VF (R54). -/
def pciDevice (fn : Nat) : Nat := if fn = 0 then 0x0256 else 0x0257

/-- The header of an extended capability. -/
def extCap (ident version next : Nat) : Nat := ident + 2 ^ 16 * version + 2 ^ 20 * next

/-- Size of a base address register's region: BAR0 and BAR2 of the PF; those of the VFs grow with the system page (R58). -/
def barSize (s : State) (off : Nat) : Nat := match off with
  | 0x10 => 2 ^ 18
  | 0x18 => 2 ^ 13
  | 0x184 => if s.gth.pci.pageSize = 1 then 2 ^ 14 else 2 ^ 16
  | 0x18C => if s.gth.pci.pageSize = 1 then 2 ^ 13 else 2 ^ 16
  | _ => 0

/-- A 64-bit memory base register, not prefetchable. -/
def barRead (s : State) (off : Nat) : Nat :=
  let v := kget (fun _ => 0) s.gth.pci.bars off
  if barSize s off = 0 then v else v / barSize s off * barSize s off + 4

/-- Fields of the MSI-X capability: table size, Function Mask and MSI-X Enable; table and PBA in BAR2. -/
def msixCapRead (s : State) (fn off : Nat) : Nat := match off with
  | 0x80 => 0x11 + (if fn = 0 then 2 ^ 8 * 0xC0 else 0) + 2 ^ 16 * (msixSize fn - 1) + 2 ^ 30 * (msixCtl s fn % 4)
  | 0x84 => 2
  | 0x88 => 0x1002
  | _ => 0

/-- The PCI Express capability: payload and read request sizes, FLR, link, completion timeout ranges A to D, 10-bit tags. -/
def expressRead (s : State) (fn off : Nat) : Nat := match off with
  | 0x40 => 0x10 + 2 ^ 8 * 0x80 + 2 ^ 16 * 2
  | 0x44 => 2 + 2 ^ 15 + 2 ^ 28
  | 0x48 => if fn = 0 then 2 ^ 5 * s.gth.pci.payload + 2 ^ 12 * s.gth.pci.readRequest else 0
  | 0x4C => 5 + 2 ^ 4 * 8
  | 0x50 => if fn = 0 then 2 ^ 16 * (s.gth.linkSpeed % 16) + 2 ^ 20 * (s.gth.linkWidth % 64) else 0
  | 0x64 => 0xF + 2 ^ 16 + 2 ^ 17
  | _ => 0

/-- AER: the logs and masks of a function; ECRC generation and checking. -/
def aerRead (s : State) (fn off : Nat) : Nat :=
  let p := s.gth.pci
  match off with
  | 0x100 => extCap 0x0001 2 0x140
  | 0x104 => kget (fun _ => 0) p.aerUncor fn
  | 0x110 => kget (fun _ => 0) p.aerCor fn
  | 0x114 => kget (fun _ => 0x2000) p.aerCorMask fn
  | 0x118 => 2 ^ 5 + 2 ^ 7
  | _ => 0

/-- SR-IOV (R57): 1,023 VFs, First VF Offset and VF Stride 1, system pages of 4 KiB and 64 KiB. -/
def sriovRead (s : State) (off : Nat) : Nat := match off with
  | 0x160 => extCap 0x0010 1 0x1A0
  | 0x168 => b2n s.gth.vfEnable
  | 0x16C => 1023 + 2 ^ 16 * 1023
  | 0x170 => s.gth.pci.numVfs
  | 0x174 => 1 + 2 ^ 16 * 1
  | 0x178 => 2 ^ 16 * pciDevice 1
  | 0x17C => 0x11
  | 0x180 => s.gth.pci.pageSize
  | _ => if 0x184 ≤ off ∧ off ≤ 0x190 then barRead s off else 0

/-- A double word of the configuration space of a function. -/
def pciRead (s : State) (fn off : Nat) : Nat :=
  if off < 0x40 then match off with
    | 0x00 => pciVendor + 2 ^ 16 * pciDevice fn
    | 0x04 => (if fn = 0 then s.gth.pci.command else 0) + 2 ^ 20
    | 0x08 => 2 ^ 8 * 0x108000
    | 0x34 => 0x40
    | _ => if fn = 0 ∧ 0x10 ≤ off ∧ off < 0x20 then barRead s off else 0
  else if off < 0x80 then expressRead s fn off
  else if off < 0xC0 then msixCapRead s fn off
  else if off < 0x100 then
    -- power management of the PF: D0 and D3hot, No_Soft_Reset = 1 (R61)
    (if fn ≠ 0 then 0 else if off = 0xC0 then 0x01 + 2 ^ 16 * 3 else if off = 0xC4 then (if s.gth.d3hot then 3 else 0) + 2 ^ 3
      else 0)
  else if off < 0x140 then aerRead s fn off
  else if off = 0x140 then extCap 0x000E 1 (if fn = 0 then 0x160 else 0)
  else if fn ≠ 0 then 0
  else if off < 0x1A0 then sriovRead s off
  else match off with
  | 0x1A0 => extCap 0x002E 1 0x1C0
  | 0x1C0 => extCap 0x0030 1 0
  | 0x1C4 => 1
  | 0x1CC => if s.gth.ideSecure then 2 else 0
  | _ => 0

/-- VF Enable: cleared, it resets every VF (R60). -/
def vfEnableWrite (s : State) (on : Bool) : State :=
  let s1 := { s with gth := { s.gth with vfEnable := on } }
  if s.gth.vfEnable && !on then (liveVfs s1).foldl flrBegin s1 else s1

/-- Vectors of a function that are pending and can now be sent are sent. -/
def msixSendPending (s : State) (fn : Nat) : State :=
  (List.range (msixSize fn)).foldl (fun s v =>
    if msixPending s fn v && msixOpen s fn v then sendMsix (setPending s fn v false) fn v
    else s) s

def msixCtlWrite (s : State) (fn v : Nat) : State :=
  msixSendPending (setPci s (fun p => { p with msixCtl := kset (fun _ => 0) p.msixCtl fn (v / 2 ^ 30 % 4) })) fn

/-- Initiate Function Level Reset, bit 15 of Device Control. -/
def flrWrite (s : State) (fn v : Nat) : State :=
  if !v.testBit 15 then s else if fn = 0 then pfReset s else flrBegin s fn

/-- A write of a double word of configuration space; a value a field does not admit leaves it. -/
def pciWrite (s : State) (fn off v : Nat) : State :=
  if off = 0x80 then msixCtlWrite s fn v
  else if off = 0x110 then setPci s (fun p => { p with aerCor := kmod (fun _ => 0) p.aerCor fn (fun x => x - (x &&& v)) })
  else if off = 0x104 then setPci s (fun p => { p with aerUncor := kmod (fun _ => 0) p.aerUncor fn (fun x => x - (x &&& v)) })
  else if off = 0x114 then setPci s (fun p => { p with aerCorMask := kset (fun _ => 0x2000) p.aerCorMask fn v })
  else if fn ≠ 0 then (if off = 0x48 then flrWrite s fn v else s)
  else if (0x10 ≤ off ∧ off < 0x20) ∨ (0x184 ≤ off ∧ off ≤ 0x190) then
    setPci s (fun p => { p with bars := kset (fun _ => 0) p.bars off v })
  else match off with
  | 0x04 => setPci s (fun p => { p with command := v &&& 0x0546 })
  | 0x48 => flrWrite (setPci s (fun p => { p with
      payload := if v / 2 ^ 5 % 8 ≤ 2 then v / 2 ^ 5 % 8 else p.payload,
      readRequest := if v / 2 ^ 12 % 8 ≤ 5 then v / 2 ^ 12 % 8 else p.readRequest })) 0 v
  | 0xC4 => if v % 4 = 0 ∨ v % 4 = 3 then { s with gth := { s.gth with d3hot := v % 4 == 3 } } else s
  | 0x168 => vfEnableWrite s (v.testBit 0)
  | 0x170 => setPci s (fun p => { p with numVfs := min (v % 65536) 1023 })
  | 0x180 => if v = 1 ∨ v = 0x10 then setPci s (fun p => { p with pageSize := v }) else s
  | _ => s

/-! The MSI-X table and the PBA: BAR2 (R58) -/

/-- Pending bits of the vectors from `v` on, 32 of them. -/
def pbaRead (s : State) (fn v : Nat) : Nat :=
  (List.range 32).foldl (fun n i => if v + i < msixSize fn ∧ msixPending s fn (v + i) then n + 2 ^ i else n) 0

def msixRead (s : State) (fn off : Nat) : Nat :=
  if 0x1000 ≤ off ∧ off < 0x1008 then pbaRead s fn (8 * (off - 0x1000))
  else if msixSize fn ≤ off / 16 then 0
  else
    let e := getMsix s fn (off / 16)
    match off % 16 with
    | 0 => e.addr % 2 ^ 32
    | 4 => e.addr / 2 ^ 32
    | 8 => e.data
    | _ => b2n e.masked

def msixWrite (s : State) (fn off v : Nat) : State :=
  if msixSize fn ≤ off / 16 then s
  else
    let i := off / 16
    let e := getMsix s fn i
    match off % 16 with
    | 0 => setMsix s fn i { e with addr := e.addr / 2 ^ 32 * 2 ^ 32 + v }
    | 4 => setMsix s fn i { e with addr := e.addr % 2 ^ 32 + 2 ^ 32 * v }
    | 8 => setMsix s fn i { e with data := v }
    | _ => msixSendPending (setMsix s fn i { e with masked := v.testBit 0 }) fn

/-! The DOE mailbox of the PF (R62) -/

/-- A signature by the ECDSA P-384 attestation key of the state, over what is answered. -/
def spdmSign (s : State) (b : Bytes) : Bytes :=
  b ++ padTo 96 (attestSignEc s.lcs.deviceId s.lcs.state s.freeCtr b)

/-- The chain in slot 0, and its SHA-384 digest. -/
def spdmChain (s : State) : Bytes := Sys2Proof.Config.attestChain s.lcs.deviceId s.lcs.state
def spdmDigest (s : State) : Bytes := sha384 (spdmChain s)

/-- Measurement blocks: index i + 1 reports MEAS[i], 0xFF all of them; none for another index. -/
def spdmBlocks (s : State) (index : Nat) : Option Bytes :=
  let one (i : Nat) := leBytes 1 (i + 1) ++ (getMeas s i).value
  if 1 ≤ index ∧ index ≤ 32 then some (one (index - 1))
  else if index = 0xFF then some ((List.range 32).flatMap one)
  else if index = 0 then some (leBytes 1 32)
  else none

/-- The capabilities of R62 as the flags of SPDM 1.2: CERT, CHAL, MEAS with signature, ENCRYPT, MAC, KEY_EX, HBEAT, KEY_UPD. -/
def spdmCaps : Nat := 2 ^ 1 + 2 ^ 2 + 2 ^ 4 + 2 ^ 6 + 2 ^ 7 + 2 ^ 9 + 2 ^ 13 + 2 ^ 14

/-- Answer with a code and a body; an error answer holds the code alone. -/
def spdmAnswer (s : State) (code : Nat) (body : Bytes) : State := emit s (.port .doe (leBytes 1 code ++ body))
def spdmError (s : State) : State := spdmAnswer s 0x7F []

/-- Requests that a session carries, as Secured SPDM objects. -/
def sessionOnly (r : DoeRequest) : Bool := match r with
  | .endSession | .heartbeat | .keyUpdate => true
  | _ => false

/-- What the responder answers. The layout of an answer's fields is the model's own (log 36). -/
def spdmServe (s : State) (r : DoeRequest) : State := match r with
  | .discovery => spdmAnswer s 0x00 [0, 1, 2]
  | .version => spdmAnswer s 0x04 [0x10, 0x11, 0x12]
  | .capabilities => spdmAnswer s 0x61 (leBytes 4 spdmCaps)
  | .algorithms => spdmAnswer s 0x63 (leBytes 4 0x80 ++ leBytes 4 2 ++ leBytes 2 0x10 ++ leBytes 2 2)
  | .digests => spdmAnswer s 0x01 (leBytes 1 1 ++ spdmDigest s)
  | .certificate slot => if slot = 0 then spdmAnswer s 0x02 (spdmChain s) else spdmError s
  | .challenge slot nonce =>
      if slot = 0 then bumpCtr (spdmAnswer s 0x03 (spdmSign s (spdmDigest s ++ nonce))) else spdmError s
  | .measurements index nonce => match spdmBlocks s index with
      | some b => bumpCtr (spdmAnswer s 0x60 (spdmSign s (b ++ nonce)))
      | none => spdmError s
  | .keyExchange share =>
      if 4 ≤ s.gth.spdm then spdmError s
      else
        let s1 := { s with gth := { s.gth with spdm := s.gth.spdm + 1 } }
        bumpCtr (spdmAnswer s1 0x64 (spdmSign s1 (Sys2Proof.Config.spdmShare s1.freeCtr ++ share)))
  | .endSession => spdmAnswer { s with gth := { s.gth with spdm := s.gth.spdm - 1 } } 0x6C []
  | .heartbeat => spdmAnswer s 0x68 []
  | .keyUpdate => spdmAnswer s 0x69 []
  | .other _ => spdmError s

/-- DOE_OBJECT: an object of at most 64 KiB is answered. -/
def execDoeObject (size : Nat) (secured : Bool) (r : DoeRequest) (s : State) : Host.Outcome State Fault Refusal :=
  answer s (if !hostReach s || decide (65536 < size) then s
    else if secured && s.gth.spdm == 0 || !secured && sessionOnly r then spdmError s else spdmServe s r)

end Sys2Proof.Machine
end

