-- ==== Sys2Proof/Machine/IsaScalar.lean ====
section
/-! DEFINITION. Scalar, control, address, configuration, predicate and job-control instructions: R193 to R199 and
R219. Each function is the effect of one instruction on its engine, after fetch. -/

namespace Sys2Proof.Machine

/-! Scalars (R193) -/

/-- Shared form of the two-source scalar instructions: operand form, kinds, result. -/
def scalarBin (w : BitVec 32) (g : Eng) (need : Option Kind) (out : Kind) (f : Nat → Nat → Nat)
    (c : CostKind) (o h wd : Nat) : EngRes :=
  if !(sOk (wD w) && sOk (wS1 w) && sOk (wS2 w)) || wQ w != 0 || wPs w != 0 then fIllegal
  else
    let x := sget g (wS1 w)
    let y := sget g (wS2 w)
    let fit := match need with
      | none => true
      | some k => kindOk k x.tag && kindOk k y.tag
    if !fit then fMode
    else
      let ts := [x.tag, y.tag]
      retire w (putS g (wD w) (f x.val.toNat y.val.toNat) (outTag out ts) out) c o h wd ts

/-- Shifts: the count must be public (R161). -/
def scalarShift (w : BitVec 32) (g : Eng) (f : Nat → Nat → Nat) : EngRes :=
  if !(sOk (wD w) && sOk (wS1 w) && sOk (wS2 w)) || wQ w != 0 || wPs w != 0 then fIllegal
  else if (sget g (wS2 w)).tag.secret then fSecretControl
  else
    let x := sget g (wS1 w)
    if !(kindOk .bool x.tag) then fMode
    else
      let n := (sget g (wS2 w)).val.toNat
      retire w (putS g (wD w) (if 28 ≤ n then 0 else f x.val.toNat n) (outTag .bool [x.tag]) .bool)
        .linear 1 2 3 [x.tag]

def isaSadd (_ : IsaEnv) (g : Eng) (w : BitVec 32) : EngRes :=
  scalarBin w g (some arithS) arithS (fun x y => (x + y) % 2 ^ 28) .linear 1 2 3
def isaSsub (_ : IsaEnv) (g : Eng) (w : BitVec 32) : EngRes :=
  scalarBin w g (some arithS) arithS (fun x y => (x + 2 ^ 28 - y) % 2 ^ 28) .linear 1 2 3
def isaSand (_ : IsaEnv) (g : Eng) (w : BitVec 32) : EngRes :=
  scalarBin w g (some .bool) .bool (fun x y => x &&& y) .gadget2 1 4 9
def isaSor (_ : IsaEnv) (g : Eng) (w : BitVec 32) : EngRes :=
  scalarBin w g (some .bool) .bool (fun x y => x ||| y) .gadget2 1 4 9
def isaSxor (_ : IsaEnv) (g : Eng) (w : BitVec 32) : EngRes :=
  scalarBin w g (some .bool) .bool (fun x y => x ^^^ y) .linear 1 2 3
def isaSshl (_ : IsaEnv) (g : Eng) (w : BitVec 32) : EngRes :=
  scalarShift w g (fun x n => (x <<< n) % 2 ^ 28)
def isaSshr (_ : IsaEnv) (g : Eng) (w : BitVec 32) : EngRes :=
  scalarShift w g (fun x n => x >>> n)
def isaSmul (_ : IsaEnv) (g : Eng) (w : BitVec 32) : EngRes :=
  scalarBin w g (some arithS) arithS (fun x y => (x * y) % 2 ^ 28) .gadget2 2 8 18
def isaSeq (_ : IsaEnv) (g : Eng) (w : BitVec 32) : EngRes :=
  scalarBin w g none .bool (fun x y => b2n (x == y)) .gadget 2 8 18
def isaSlt (_ : IsaEnv) (g : Eng) (w : BitVec 32) : EngRes :=
  scalarBin w g none .bool (fun x y => b2n (decide (signedOf 28 x < signedOf 28 y))) .gadget 2 8 18
def isaSltu (_ : IsaEnv) (g : Eng) (w : BitVec 32) : EngRes :=
  scalarBin w g none .bool (fun x y => b2n (decide (x < y))) .gadget 2 8 18

/-- `smov`: S2 is unused and reserved; taint, kind and SEALED carried. -/
def isaSmov (_ : IsaEnv) (g : Eng) (w : BitVec 32) : EngRes :=
  if !(sOk (wD w) && sOk (wS1 w)) || wS2 w != 0 || wQ w != 0 || wPs w != 0 then fIllegal
  else
    let x := sget g (wS1 w)
    retire w (putS g (wD w) x.val.toNat (carryTag x.tag.kind [x.tag]) .bool) .linear 1 2 3 [x.tag]

def isaSaddi (_ : IsaEnv) (g : Eng) (w : BitVec 32) : EngRes :=
  if !(sOk (wD w) && sOk (wS1 w)) then fIllegal
  else
    let x := sget g (wS1 w)
    if !(kindOk arithS x.tag) then fMode
    else retire w (putS g (wD w) (wrapTo 28 (x.val.toNat + wSImm w)) (outTag arithS [x.tag]) arithS)
      .linear 1 2 3 [x.tag]

def isaSli (_ : IsaEnv) (g : Eng) (w : BitVec 32) : EngRes :=
  if !(sOk (wD w)) then fIllegal
  else retire w (putS g (wD w) (wrapTo 28 (wSImm w)) pubTag .bool) .linear 1 1 1 []

/-- `slui`: sD[27:16] := IMM[11:0]; sD[15:0] and the taint of sD kept. -/
def isaSlui (_ : IsaEnv) (g : Eng) (w : BitVec 32) : EngRes :=
  if !(sOk (wD w)) || bitsOf (wImm w) 15 12 != 0 then fIllegal
  else
    let x := sget g (wD w)
    retire w (putS g (wD w) (x.val.toNat % 2 ^ 16 + (wImm w % 2 ^ 12) * 2 ^ 16) { x.tag with sealed := false } .bool)
      .linear 1 1 1 []

/-! Branches and jumps (R194) -/

/-- Continue at `t`: the structure rules of R195 for a taken branch or jump. -/
def branchTo (g : Eng) (t : Nat) : EngRes :=
  match g.loops with
  | [] => .ok { g with pc := t, cycles := g.cycles + 1 } 0
  | f :: _ =>
      if f.depth = g.calls.length ∧ t = f.last + 1 then
        .ok { closeLoop g with pc := t, cycles := g.cycles + 1 } 0
      else if f.depth = g.calls.length ∧ (t < f.first ∨ f.last < t) then fNest
      else .ok { g with pc := t, cycles := g.cycles + 1 } 0

/-- Shared form of every branch and jump: encoding, place, target, then the condition (secret?, taken?). -/
def branchForm (w : BitVec 32) (g : Eng) (operandOk : Bool) (secret taken : Bool) : EngRes :=
  if !operandOk || bitsOf w.toNat 17 12 != 0 then fIllegal
  else if inShuffle g then fShuffle
  else if atEnd g then fIllegal
  else if secret then fSecretControl
  else if g.imem.length ≤ wTarget w then fOverlay
  else if taken then branchTo g (wTarget w)
  else retireWith w g 1 false

def branchS (w : BitVec 32) (g : Eng) (f : Nat → Bool) : EngRes :=
  let x := sget g (wD w)
  branchForm w g (sOk (wD w)) x.tag.secret (f x.val.toNat)

def branchP (w : BitVec 32) (g : Eng) (f : BitVec 16 → Bool) : EngRes :=
  let x := pget g (wD w)
  branchForm w g (pqOk (wD w)) x.tag.secret (f x.val)

def isaBrZ (_ : IsaEnv) (g : Eng) (w : BitVec 32) : EngRes := branchS w g (fun x => x == 0)
def isaBrNz (_ : IsaEnv) (g : Eng) (w : BitVec 32) : EngRes := branchS w g (fun x => x != 0)
def isaBrLtz (_ : IsaEnv) (g : Eng) (w : BitVec 32) : EngRes := branchS w g (fun x => x.testBit 27)
def isaBrGez (_ : IsaEnv) (g : Eng) (w : BitVec 32) : EngRes := branchS w g (fun x => !x.testBit 27)
def isaBrPany (_ : IsaEnv) (g : Eng) (w : BitVec 32) : EngRes := branchP w g (fun x => x != 0)
def isaBrPnone (_ : IsaEnv) (g : Eng) (w : BitVec 32) : EngRes := branchP w g (fun x => x == 0)
def isaJmp (_ : IsaEnv) (g : Eng) (w : BitVec 32) : EngRes := branchForm w g (wD w == 0) false true

/-! Loops (R195, R196) -/

/-- Insert a (key, index) pair in rising order. -/
def insertKey (x : Nat × Nat) : List (Nat × Nat) → List (Nat × Nat)
  | [] => [x]
  | y :: r => if x.1 < y.1 ∨ (x.1 = y.1 ∧ x.2 ≤ y.2) then x :: y :: r else y :: insertKey x r

/-- The order a fountain draws: the indices sorted by free keys, always a permutation. -/
def drawnOrder (free n : Nat) : List Nat :=
  (((List.range n).map (fun i => (Sys2Proof.Config.shuffleKey free i, i))).foldr insertKey []).map (·.2)

/-- Open a loop of `n` iterations, or continue at END + 1 for a scalar count of 0. -/
def openLoop (env : IsaEnv) (w : BitVec 32) (g : Eng) (n : Nat) (shuffled : Bool) : EngRes :=
  let last := wTarget w
  if last ≤ g.pc ∨ g.imem.length ≤ last then fOverlay
  else if 4 ≤ g.loops.length then fNest
  else if (match g.loops with
      | [] => false
      | f :: _ => f.depth == g.calls.length && decide (f.last < last)) then fNest
  else if n = 0 then .ok (advance { g with pc := last, cycles := g.cycles + 1 }) 0
  else
    let masked := shuffled && g.profile != 0
    if masked && g.fnt.stopped then fRng
    else
      let order := if masked then drawnOrder env.free n else []
      let f : Frame := { first := g.pc + 1, last := last, idx := 0, count := n, shuffled := shuffled,
                         order := order, aWritten := [], depth := g.calls.length }
      .ok { g with loops := f :: g.loops, aNat := g.a, pc := g.pc + 1, cycles := g.cycles + 1 }
        (if masked then Sys2Proof.Config.maskRows w.toNat g.profile else 0)

/-- A loop whose COUNT is an immediate (SRC 0). -/
def loopImm (env : IsaEnv) (w : BitVec 32) (g : Eng) (shuffled : Bool) : EngRes :=
  if wCount w = 0 ∨ (shuffled ∧ 256 < wCount w) then fIllegal
  else if inShuffle g then fShuffle
  else if atEnd g then fIllegal
  else openLoop env w g (wCount w) shuffled

/-- A loop whose count is a scalar (SRC 1). -/
def loopScalar (env : IsaEnv) (w : BitVec 32) (g : Eng) (shuffled : Bool) : EngRes :=
  if bitsOf w.toNat 23 16 ≠ 0 then fIllegal
  else if inShuffle g then fShuffle
  else if atEnd g then fIllegal
  else
    let x := sget g (wScnt w)
    if x.tag.secret then fSecretControl
    else if (if shuffled then 256 else 65535) < x.val.toNat then fLoopCount
    else openLoop env w g x.val.toNat shuffled

def isaLoopI (env : IsaEnv) (g : Eng) (w : BitVec 32) : EngRes := loopImm env w g false
def isaLoopS (env : IsaEnv) (g : Eng) (w : BitVec 32) : EngRes := loopScalar env w g false
def isaLoopIShf (env : IsaEnv) (g : Eng) (w : BitVec 32) : EngRes := loopImm env w g true
def isaLoopSShf (env : IsaEnv) (g : Eng) (w : BitVec 32) : EngRes := loopScalar env w g true

/-! Calls and overlays (R197) -/

def jReserved (w : BitVec 32) : Bool := bitsOf w.toNat 19 12 != 0

def isaCall (_ : IsaEnv) (g : Eng) (w : BitVec 32) : EngRes :=
  if jReserved w || wOvl w != 0 then fIllegal
  else if inShuffle g then fShuffle
  else if atEnd g then fIllegal
  else if 8 ≤ g.calls.length then fNest
  else if g.imem.length ≤ wTarget w then fOverlay
  else .ok { g with calls := (g.pc + 1) :: g.calls, pc := wTarget w, cycles := g.cycles + 1 } 0

def isaRet (_ : IsaEnv) (g : Eng) (w : BitVec 32) : EngRes :=
  if jReserved w || wOvl w != 0 || wTarget w != 0 then fIllegal
  else if inShuffle g then fShuffle
  else if atEnd g then fIllegal
  else match g.calls with
    | [] => fNest
    | r :: rest => .ok { g with calls := rest, pc := r, cycles := g.cycles + 1 } 0

/-- `jov`: the load time of R172 is added to its 2 cycles. -/
def isaJov (env : IsaEnv) (g : Eng) (w : BitVec 32) : EngRes :=
  if jReserved w then fIllegal
  else if inShuffle g then fShuffle
  else if atEnd g then fIllegal
  else if g.loops ≠ [] ∨ g.calls ≠ [] then fNest
  else match env.overlays[wOvl w]? with
    | none => fOverlay
    | some code =>
        if code.length ≤ wTarget w then fOverlay
        else .ok { g with imem := code, overlay := wOvl w, pc := wTarget w,
                          cycles := g.cycles + 2 + env.loadCycles.getD (wOvl w) 0 } 0

/-! Address registers (R198) -/

def isaAs (w : BitVec 32) : Nat := bitsOf w.toNat 18 16

def isaAset (_ : IsaEnv) (g : Eng) (w : BitVec 32) : EngRes :=
  if !(aOk (wD w)) || bitsOf (wImm w) 15 11 != 0 || isaAs w != 0 then fIllegal
  else retireWith w (putA g (wD w) (wImm w) (wImm w)) 1 false

def isaAadd (_ : IsaEnv) (g : Eng) (w : BitVec 32) : EngRes :=
  if !(aOk (wD w)) then fIllegal
  else retireWith w (putA g (wD w) (wrapTo 11 (aget g (isaAs w) + wSImm w))
    (wrapTo 11 (aNatGet g (isaAs w) + wSImm w))) 1 false

def isaAsetLi (_ : IsaEnv) (g : Eng) (w : BitVec 32) : EngRes :=
  if !(aOk (wD w)) then fIllegal
  else
    let g1 := putA g (wD w) (aget g (isaAs w) + iterIndex g * wImm w) (aNatGet g (isaAs w) + iterNat g * wImm w)
    let g2 := match g1.loops with
      | [] => g1
      | f :: r => if f.shuffled then { g1 with loops := { f with aWritten := wD w :: f.aWritten.filter (· ≠ wD w) } :: r }
                  else g1
    retireWith w g2 1 false

def isaAmovS (_ : IsaEnv) (g : Eng) (w : BitVec 32) : EngRes :=
  if !(aOk (wD w)) || bitsOf (wImm w) 15 4 != 0 || isaAs w != 0 then fIllegal
  else
    let x := sget g (wImm w)
    if x.tag.secret then fSecretControl
    else retireWith w (putA g (wD w) x.val.toNat x.val.toNat) 1 false

/-! Configuration and predicates (R199) -/

def setQ (w : BitVec 32) (g : Eng) (secret : Bool) (v : Nat) : EngRes :=
  if secret then fSecretControl
  else match qDecode v with
    | none => fMode
    | some q => retireWith w (putQ g (wD w) q) 32 false

def isaQsetS (_ : IsaEnv) (g : Eng) (w : BitVec 32) : EngRes :=
  if !(pqOk (wD w)) || !(sOk (wS1 w)) || wS1 w % 2 != 0 || wS2 w != 0 || wQ w != 0 || wPs w != 0 then fIllegal
  else
    let x := sget g (wS1 w)
    let y := sget g (wS1 w + 1)
    setQ w g (x.tag.secret || y.tag.secret) (x.val.toNat % 2 ^ 9 + y.val.toNat * 2 ^ 9)

def isaQsetR (_ : IsaEnv) (g : Eng) (w : BitVec 32) : EngRes :=
  if !(pqOk (wD w)) || wS2 w != 0 || wQ w != 0 || wPs w != 0 then fIllegal
  else
    let x := vget g (wS1 w)
    setQ w g x.tag.secret (x.val.toNat % 2 ^ 37)

def predBin (w : BitVec 32) (g : Eng) (f : BitVec 16 → BitVec 16 → BitVec 16) (c : CostKind) (h wd : Nat) : EngRes :=
  if !(pqOk (wD w) && pqOk (wS1 w) && pqOk (wS2 w)) || wQ w != 0 || wPs w != 0 then fIllegal
  else
    let x := pget g (wS1 w)
    let y := pget g (wS2 w)
    let ts := [x.tag, y.tag]
    retire w (putP g (wD w) (f x.val y.val) (outTag .bool ts)) c 1 h wd ts

def isaPand (_ : IsaEnv) (g : Eng) (w : BitVec 32) : EngRes := predBin w g (fun x y => x &&& y) .gadget2 4 9
def isaPor (_ : IsaEnv) (g : Eng) (w : BitVec 32) : EngRes := predBin w g (fun x y => x ||| y) .gadget2 4 9
def isaPxor (_ : IsaEnv) (g : Eng) (w : BitVec 32) : EngRes := predBin w g (fun x y => x ^^^ y) .linear 2 3

def isaPnot (_ : IsaEnv) (g : Eng) (w : BitVec 32) : EngRes :=
  if !(pqOk (wD w) && pqOk (wS1 w)) || wS2 w != 0 || wQ w != 0 || wPs w != 0 then fIllegal
  else
    let x := pget g (wS1 w)
    retire w (putP g (wD w) (~~~x.val) (outTag .bool [x.tag])) .linear 1 2 3 [x.tag]

def isaPmovS (_ : IsaEnv) (g : Eng) (w : BitVec 32) : EngRes :=
  if !(pqOk (wD w) && sOk (wS1 w)) || wS2 w != 0 || wQ w != 0 || wPs w != 0 then fIllegal
  else
    let x := sget g (wS1 w)
    if !(kindOk .bool x.tag) then fMode
    else retire w (putP g (wD w) (BitVec.ofNat 16 x.val.toNat) (carryTag .bool [x.tag])) .linear 1 2 3 [x.tag]

def isaSmovP (_ : IsaEnv) (g : Eng) (w : BitVec 32) : EngRes :=
  if !(sOk (wD w) && pqOk (wS1 w)) || wS2 w != 0 || wQ w != 0 || wPs w != 0 then fIllegal
  else
    let x := pget g (wS1 w)
    retire w (putS g (wD w) x.val.toNat (carryTag .bool [x.tag]) .bool) .linear 1 2 3 [x.tag]

def isaPset (_ : IsaEnv) (g : Eng) (w : BitVec 32) : EngRes :=
  if !(pqOk (wD w)) || wS1 w != 0 then fIllegal
  else retireWith w (putP g (wD w) (BitVec.ofNat 16 (wImm w)) pubTag) 1 false

/-! Job control (R219) -/

def isaNop (_ : IsaEnv) (g : Eng) (w : BitVec 32) : EngRes :=
  if wD w != 0 || wS1 w != 0 || wS2 w != 0 || wQ w != 0 || wPs w != 0 then fIllegal else retireWith w g 1 false

/-- Bytes still owed to the key store when the job ends (R214). -/
def keyOwed (g : Eng) : Bool :=
  match g.returnLen with
  | none => false
  | some n => decide (g.returned.length < n)

/-- The form of a halt; `ok`: the job would end with OK, and its key object must be whole. -/
def haltForm (w : BitVec 32) (g : Eng) (operandOk ok : Bool) (k : EngRes) : EngRes :=
  if !operandOk || wD w != 0 || wQ w != 0 || wPs w != 0 then fIllegal
  else if inShuffle g then fShuffle
  else if atEnd g then fIllegal
  else if ok && keyOwed g then fKeyLength
  else k

def isaHalt (_ : IsaEnv) (g : Eng) (w : BitVec 32) : EngRes :=
  haltForm w g (wS1 w == 0 && wS2 w == 0) true (.halt { g with cycles := g.cycles + 1 } 0 0 false)

/-- Statuses `halt.st` permits: OK, PARAM_INVALID, KEY_INVALID, SIG_INVALID, POINT_INVALID, INPUT_RANGE,
DERIVE_INVALID, MAC_MISMATCH, OUTPUT_TOO_SMALL. -/
def haltStatuses : List Nat := [0x0000, 0x0101, 0x0206, 0x0401, 0x0402, 0x0403, 0x0404, 0x0405, 0x0104]
/-- Statuses `halt.pr` permits. -/
def rejectStatuses : List Nat := [0x0101, 0x0206, 0x0401, 0x0402, 0x0403]

def haltStatus (w : BitVec 32) (g : Eng) (allowed : List Nat) (reject : Bool) : EngRes :=
  let x := sget g (wS1 w)
  let y := sget g (wS2 w)
  let st := x.val.toNat % 2 ^ 16
  let dt := y.val.toNat % 2 ^ 16
  let k : EngRes :=
    if x.tag.secret || y.tag.secret then fSecretControl
    else if !(allowed.contains st) || (st != 0x0104 && decide (0x0140 ≤ dt ∧ dt ≤ 0x016F)) then fStatus
    else .halt { g with cycles := g.cycles + 1 } st (if st = 0x0104 then y.val.toNat else dt)
      (reject && !g.everSecret)
  haltForm w g (sOk (wS1 w) && sOk (wS2 w)) (st == 0) k

def isaHaltSt (_ : IsaEnv) (g : Eng) (w : BitVec 32) : EngRes := haltStatus w g haltStatuses false
def isaHaltPr (_ : IsaEnv) (g : Eng) (w : BitVec 32) : EngRes := haltStatus w g rejectStatuses true

end Sys2Proof.Machine
end

