-- ==== Sys2Proof/Machine/IsaVector.lean ====
section
/-! DEFINITION. Vector instructions: modular (R200), butterflies (R201), permutes (R202), sampling (R203, R204),
compression (R205), binary field, bitwise and carry-less (R206), paired (R207) and quad (R208). -/

namespace Sys2Proof.Machine

/-- The q register a word names. -/
def qOf (g : Eng) (w : BitVec 32) : QReg := qget g (wQ w)

/-- MODQ or PAIR28 (R200). -/
def isPrime (m : Mode) : Bool := m == .modq || m == .pair28

/-! Vector modular (R200) -/

/-- Two-source word-wise arithmetic mod q. -/
def vecBin (w : BitVec 32) (g : Eng) (f : Nat → Nat → Nat → Nat) (c : CostKind) (h wd : Nat) : EngRes :=
  let q := qOf g w
  let x := vget g (wS1 w)
  let y := vget g (wS2 w)
  if !isPrime q.mode then fMode
  else if !(kindOk (arithOf q) x.tag && kindOk (arithOf q) y.tag) then fMode
  else
    let ts := [x.tag, y.tag]
    maskedRetire q.mode g w (wD w) (wordRow q.mode (fun j => f q.modulus (word q.mode x.val j) (word q.mode y.val j)))
      (outTag (arithOf q) ts) (arithOf q) c 1 h wd ts

/-- One-source word-wise arithmetic mod q; S2 reserved. -/
def vecUn (w : BitVec 32) (g : Eng) (f : Nat → Nat → Nat) (c : CostKind) (o h wd : Nat) : EngRes :=
  let q := qOf g w
  let x := vget g (wS1 w)
  if wS2 w != 0 then fIllegal
  else if !isPrime q.mode then fMode
  else if !(kindOk (arithOf q) x.tag) then fMode
  else maskedRetire q.mode g w (wD w) (wordRow q.mode (fun j => f q.modulus (word q.mode x.val j)))
    (outTag (arithOf q) [x.tag]) (arithOf q) c o h wd [x.tag]

def isaVaddM (_ : IsaEnv) (g : Eng) (w : BitVec 32) : EngRes := vecBin w g addM .linear 2 3
def isaVsubM (_ : IsaEnv) (g : Eng) (w : BitVec 32) : EngRes := vecBin w g subM .linear 2 3
def isaVnegM (_ : IsaEnv) (g : Eng) (w : BitVec 32) : EngRes := vecUn w g negM .linear 1 2 3
def isaVmulM (_ : IsaEnv) (g : Eng) (w : BitVec 32) : EngRes := vecBin w g mulM .gadget2 6 16

def isaVmacM (_ : IsaEnv) (g : Eng) (w : BitVec 32) : EngRes :=
  let q := qOf g w
  let x := vget g (wS1 w)
  let y := vget g (wS2 w)
  let z := vget g (wD w)
  if !isPrime q.mode then fMode
  else if !(kindOk (arithOf q) x.tag && kindOk (arithOf q) y.tag && kindOk (arithOf q) z.tag) then fMode
  else
    let ts := [z.tag, x.tag, y.tag]
    maskedRetire q.mode g w (wD w)
      (wordRow q.mode (fun j => addM q.modulus (word q.mode z.val j)
        (mulM q.modulus (word q.mode x.val j) (word q.mode y.val j))))
      (outTag (arithOf q) ts) (arithOf q) .gadget2 1 7 18 ts

def isaVmulsM (_ : IsaEnv) (g : Eng) (w : BitVec 32) : EngRes :=
  let q := qOf g w
  let x := vget g (wS1 w)
  let y := sget g (wS2 w)
  if !(sOk (wS2 w)) then fIllegal
  else if !isPrime q.mode then fMode
  else if !(kindOk (arithOf q) x.tag && kindOk (arithOf q) y.tag) then fMode
  else
    let ts := [x.tag, y.tag]
    maskedRetire q.mode g w (wD w) (wordRow q.mode (fun j => mulM q.modulus (word q.mode x.val j) y.val.toNat))
      (outTag (arithOf q) ts) (arithOf q) .gadget2 1 6 16 ts

def isaVredM (_ : IsaEnv) (g : Eng) (w : BitVec 32) : EngRes := vecUn w g (fun q x => x % q) .gadget 2 8 20

/-- Compares that write a predicate: FUNC[8:7] reserved, every bit of pD written. -/
def vecCmp (w : BitVec 32) (g : Eng) (m : Mode) (fit : Bool) (ts : List Tag) (f : Nat → Bool) : EngRes :=
  if !(pqOk (wD w)) || wPs w != 0 then fIllegal
  else if !fit then fMode
  else retire w (putP g (wD w) (govPred m f) (outTag .bool ts)) .gadget 1 6 14 ts

def isaVchkQ (_ : IsaEnv) (g : Eng) (w : BitVec 32) : EngRes :=
  let q := qOf g w
  let x := vget g (wS1 w)
  if wS2 w != 0 then fIllegal
  else vecCmp w g q.mode (isPrime q.mode && kindOk (arithOf q) x.tag) [x.tag]
    (fun j => decide (word q.mode x.val j < q.modulus))

def isaVcmpEq (_ : IsaEnv) (g : Eng) (w : BitVec 32) : EngRes :=
  let q := qOf g w
  let x := vget g (wS1 w)
  let y := vget g (wS2 w)
  vecCmp w g q.mode (joinKind [x.tag, y.tag] != none) [x.tag, y.tag]
    (fun j => word q.mode x.val j == word q.mode y.val j)

def isaVcmpLt (_ : IsaEnv) (g : Eng) (w : BitVec 32) : EngRes :=
  let q := qOf g w
  let x := vget g (wS1 w)
  let y := vget g (wS2 w)
  vecCmp w g q.mode (isPrime q.mode && kindOk (arithOf q) x.tag && kindOk (arithOf q) y.tag) [x.tag, y.tag]
    (fun j => decide (word q.mode x.val j % q.modulus < word q.mode y.val j % q.modulus))

/-- `vsel`: PS is the selector and every word is written. -/
def isaVsel (_ : IsaEnv) (g : Eng) (w : BitVec 32) : EngRes :=
  let q := qOf g w
  let p := pget g (wPs w)
  let x := vget g (wS1 w)
  let y := vget g (wS2 w)
  match joinKind [x.tag, y.tag] with
  | none => fMode
  | some k =>
      let ts := [x.tag, y.tag]
      let kd := if k = .any ∧ !(x.tag.secret || y.tag.secret) then Kind.bool else k
      let t : Tag := if p.tag.secret || ts.any (·.secret) then { secret := true, kind := kd, sealed := false } else pubTag
      let g' := putV g (wD w) (maskRow q.mode p.val y.val x.val) t kd
      if p.tag.secret then retireWith w g' (byProfile g 1 6 13) (g.profile != 0)
      else retire w g' .linear 1 2 3 ts

/-! Butterflies (R201) -/

/-- Distance of the pairs of SPAN s in words; 0 where the MODE has no such SPAN. -/
def spanDist (m : Mode) (s : Nat) : Nat :=
  match m, s with
  | .pair28, 1 => 4 | .pair28, 2 => 2 | .pair28, 3 => 1
  | .pair28, _ => 0
  | _, 1 => 8 | _, 2 => 4 | _, 3 => 2 | _, 4 => 1
  | _, _ => 0

/-- A butterfly: `f w a b` gives the new pair. -/
def butterfly (w : BitVec 32) (g : Eng) (modeOk : Mode → Bool) (k : QReg → Kind)
    (f : QReg → Nat → Nat → Nat → Nat × Nat) : EngRes :=
  let q := qOf g w
  let m := q.mode
  let span := bitsOf w.toNat 2 0
  let p := pget g (wPs w)
  let x := vget g (wD w)
  let y := vget g (wS1 w)
  let tw := vget g (wS2 w)
  if bitOf w.toNat 3 || decide (4 < span) then fIllegal
  else if span = 0 ∧ wD w = wS1 w then fIllegal
  else if span ≠ 0 ∧ wS1 w ≠ 0 then fIllegal
  else if !modeOk m then fMode
  else if span = 0 then
    let data := [x.tag, y.tag]
    if !([x.tag, y.tag, tw.tag].all (kindOk (k q))) then fMode
    else
      let t := outTag (k q) [x.tag, y.tag, tw.tag]
      let ra := wordRow m (fun j => (f q (word m tw.val j) (word m x.val j) (word m y.val j)).1)
      let rb := wordRow m (fun j => (f q (word m tw.val j) (word m x.val j) (word m y.val j)).2)
      match maskedPut m g w (wD w) ra t (k q) with
      | none => fMode
      | some g1 => match maskedPut m g1 w (wS1 w) rb t (k q) with
        | none => fMode
        | some g2 =>
            if tw.tag.secret && data.any (·.secret) then retirePs w g2 p .gadget 2 12 32 (tw.tag :: data)
            else retirePs w g2 p .linear 2 4 6 (tw.tag :: data)
  else
    let d := spanDist m span
    if d = 0 then fMode
    else if !([x.tag, tw.tag].all (kindOk (k q))) then fMode
    else
      let t := outTag (k q) [x.tag, tw.tag]
      let r := wordRow m (fun j =>
        if j % (2 * d) < d then (f q (word m tw.val (j + d)) (word m x.val j) (word m x.val (j + d))).1
        else (f q (word m tw.val j) (word m x.val (j - d)) (word m x.val j)).2)
      match maskedPut m g w (wD w) r t (k q) with
      | none => fMode
      | some g1 =>
          if tw.tag.secret && x.tag.secret then retirePs w g1 p .gadget 2 12 32 [tw.tag, x.tag]
          else retirePs w g1 p .linear 2 4 6 [tw.tag, x.tag]

def isaVbflyCt (_ : IsaEnv) (g : Eng) (w : BitVec 32) : EngRes :=
  butterfly w g isPrime arithOf (fun q t a b =>
    (addM q.modulus a (mulM q.modulus t b), subM q.modulus a (mulM q.modulus t b)))
def isaVbflyGs (_ : IsaEnv) (g : Eng) (w : BitVec 32) : EngRes :=
  butterfly w g isPrime arithOf (fun q t a b =>
    (addM q.modulus a b, mulM q.modulus t (subM q.modulus a b)))
def isaVbflyGf (_ : IsaEnv) (g : Eng) (w : BitVec 32) : EngRes :=
  butterfly w g (fun m => m == .gf2m) (fun _ => .bool) (fun q t a b =>
    let a' := (a % 2 ^ q.param) ^^^ gfMul q.param q.modulus t b
    (a', (b % 2 ^ q.param) ^^^ a'))

/-- `vbmul.m`: base multiplication mod X² − γ; γ from vD must be public. -/
def isaVbmulM (_ : IsaEnv) (g : Eng) (w : BitVec 32) : EngRes :=
  let q := qOf g w
  let n := q.modulus
  let x := vget g (wS1 w)
  let y := vget g (wS2 w)
  let z := vget g (wD w)
  if bitOf w.toNat 3 || bitsOf w.toNat 2 0 != 0 then fIllegal
  else if q.mode ≠ .modq then fMode
  else if z.tag.secret then fSecretControl
  else if !(kindOk (arithOf q) x.tag && kindOk (arithOf q) y.tag) then fMode
  else
    let ts := [x.tag, y.tag]
    let r := laneRow (fun j =>
      let e := 2 * (j / 2)
      let a0 := lane x.val e
      let a1 := lane x.val (e + 1)
      let b0 := lane y.val e
      let b1 := lane y.val (e + 1)
      if j % 2 = 0 then addM n (mulM n a0 b0) (mulM n (lane z.val e) (mulM n a1 b1))
      else addM n (mulM n a0 b1) (mulM n a1 b0))
    maskedRetire .modq g w (wD w) r (outTag (arithOf q) ts) (arithOf q) .gadget2 4 20 48 ts

/-! Permutes (R202) -/

/-- A permute of lanes: kind and SEALED carried. -/
def permute (w : BitVec 32) (g : Eng) (ok : Bool) (ts : List Tag) (f : Nat → Nat) : EngRes :=
  if !ok || wQ w != 0 then fIllegal
  else match joinKind ts with
    | none => fMode
    | some k => maskedRetire .modq g w (wD w) (laneRow f) (carryTag k ts) .any .linear 1 2 3 ts

def isaVperm (_ : IsaEnv) (g : Eng) (w : BitVec 32) : EngRes :=
  let x := vget g (wS1 w)
  let y := vget g (wS2 w)
  if wQ w != 0 then fIllegal
  else if y.tag.secret then fSecretControl
  else permute w g true [x.tag] (fun j => lane x.val (lane y.val j % 16))

def permute2 (w : BitVec 32) (g : Eng) (f : Row → Row → Nat → Nat) : EngRes :=
  let x := vget g (wS1 w)
  let y := vget g (wS2 w)
  permute w g true [x.tag, y.tag] (f x.val y.val)

def isaVzipLo (_ : IsaEnv) (g : Eng) (w : BitVec 32) : EngRes :=
  permute2 w g (fun x y j => if j % 2 = 0 then lane x (j / 2) else lane y (j / 2))
def isaVzipHi (_ : IsaEnv) (g : Eng) (w : BitVec 32) : EngRes :=
  permute2 w g (fun x y j => if j % 2 = 0 then lane x (8 + j / 2) else lane y (8 + j / 2))
def isaVuzpEv (_ : IsaEnv) (g : Eng) (w : BitVec 32) : EngRes :=
  permute2 w g (fun x y j => if j < 8 then lane x (2 * j) else lane y (2 * (j - 8)))
def isaVuzpOd (_ : IsaEnv) (g : Eng) (w : BitVec 32) : EngRes :=
  permute2 w g (fun x y j => if j < 8 then lane x (2 * j + 1) else lane y (2 * (j - 8) + 1))
def isaVrev (_ : IsaEnv) (g : Eng) (w : BitVec 32) : EngRes :=
  let x := vget g (wS1 w)
  permute w g (wS2 w == 0) [x.tag] (fun j => lane x.val (15 - j))
def isaVbcastL (_ : IsaEnv) (g : Eng) (w : BitVec 32) : EngRes :=
  let x := vget g (wS1 w)
  permute w g (decide (wS2 w < 16)) [x.tag] (fun _ => lane x.val (wS2 w))

def isaVbcastS (_ : IsaEnv) (g : Eng) (w : BitVec 32) : EngRes :=
  let q := qOf g w
  let x := sget g (wS1 w)
  if !(sOk (wS1 w)) || wS2 w != 0 then fIllegal
  else if q.mode = .none then fMode
  else
    let v := if q.mode = .quad56 then wrapTo 56 (signedOf 28 x.val.toNat) else x.val.toNat
    maskedRetire q.mode g w (wD w) (wordRow q.mode (fun _ => v)) (carryTag x.tag.kind [x.tag]) .any
      .linear 1 2 3 [x.tag]

/-! Sampling (R203, R204) -/

/-- The number the window bytes spell from the offset on. -/
def winNat (g : Eng) (i off n : Nat) : Nat :=
  leNat (((window (vget g i).val (vget g (i + 1)).val).drop off).take n)

/-- Word `j` of the 2W-word accumulator. -/
def accWord (m : Mode) (g : Eng) (d j : Nat) : Nat :=
  if j < wordCount m then word m (vget g d).val j else word m (vget g (d + 1)).val (j - wordCount m)

/-- Sampling into the accumulator: accepted candidates in order from word sS2 on (R204). -/
def sampleAcc (w : BitVec 32) (g : Eng) (modeOk : Mode → Bool) (bytes : Mode → Nat)
    (cands : Mode → Nat → Nat → List Nat) : EngRes :=
  let q := qOf g w
  let m := q.mode
  let k := arithOf q
  if wD w % 2 != 0 || wS1 w % 2 != 0 || !(sOk (wS2 w)) || decide (56 < wWinOff w + bytes m) then fIllegal
  else if !modeOk m then fMode
  else
    let n := sget g (wS2 w)
    let win := [(vget g (wS1 w)).tag, (vget g (wS1 w + 1)).tag]
    let acc := [(vget g (wD w)).tag, (vget g (wD w + 1)).tag]
    if !(win.all (kindOk .bool) && acc.all (kindOk k) && kindOk arithS n.tag) then fMode
    else
      let W := wordCount m
      let n0 := n.val.toNat
      let cs := cands m q.modulus (winNat g (wS1 w) (wWinOff w) (bytes m))
      let f := fun j => if n0 ≤ j ∧ j < n0 + cs.length then cs.getD (j - n0) 0 else accWord m g (wD w) j
      let ts := n.tag :: (win ++ acc)
      let g1 := putV g (wD w) (wordRow m f) (outTag k ts) k
      let g2 := putV g1 (wD w + 1) (wordRow m (fun j => f (j + W))) (outTag k ts) k
      let g3 := putS g2 (wS2 w) (if n0 + cs.length ≤ 2 * W then n0 + cs.length else 2 * W) (outTag arithS ts) arithS
      retire w g3 .gadget 2 10 24 ts

def isaVsampRej (_ : IsaEnv) (g : Eng) (w : BitVec 32) : EngRes :=
  sampleAcc w g isPrime (fun _ => 24) rejCands
def isaVsampEtaLo (_ : IsaEnv) (g : Eng) (w : BitVec 32) : EngRes :=
  sampleAcc w g (fun m => m == .pair28) (fun _ => 4) (fun _ q v => etaLo q v)
def isaVsampEtaHi (_ : IsaEnv) (g : Eng) (w : BitVec 32) : EngRes :=
  sampleAcc w g (fun m => m == .pair28) (fun _ => 4) (fun _ q v => etaHi q v)

/-- Sampling that writes the whole of vD; S2 reserved. -/
def sampleRow (w : BitVec 32) (g : Eng) (mode : Mode) (bytes : Nat) (f : Nat → Nat → Nat → Nat) (h wd : Nat) : EngRes :=
  let q := qOf g w
  let k := arithOf q
  if wS2 w != 0 || wS1 w % 2 != 0 || decide (56 < wWinOff w + bytes) then fIllegal
  else if q.mode ≠ mode then fMode
  else
    let win := [(vget g (wS1 w)).tag, (vget g (wS1 w + 1)).tag]
    if !(win.all (kindOk .bool)) then fMode
    else
      let v := winNat g (wS1 w) (wWinOff w) bytes
      retire w (putV g (wD w) (wordRow mode (f q.modulus v)) (outTag k win) k) .gadget 2 h wd win

def isaVsampCbd (_ : IsaEnv) (g : Eng) (w : BitVec 32) : EngRes :=
  sampleRow w g .modq 8 (fun q v j => cbd q 2 v j) 12 30
def isaVsampCbt (_ : IsaEnv) (g : Eng) (w : BitVec 32) : EngRes :=
  sampleRow w g .modq 12 (fun q v j => cbd q 3 v j) 12 30
def isaVsampUnfLo (_ : IsaEnv) (g : Eng) (w : BitVec 32) : EngRes :=
  sampleRow w g .pair28 18 (fun q v j => subM q (2 ^ 17) (bitField v 18 j)) 10 24
def isaVsampUnfHi (_ : IsaEnv) (g : Eng) (w : BitVec 32) : EngRes :=
  sampleRow w g .pair28 20 (fun q v j => subM q (2 ^ 19) (bitField v 20 j)) 10 24

/-- `vsamp.next`: S1 and OFF unused. -/
def isaVsampNext (_ : IsaEnv) (g : Eng) (w : BitVec 32) : EngRes :=
  let q := qOf g w
  let k := arithOf q
  if wD w % 2 != 0 || wS1 w != 0 || !(sOk (wS2 w)) || wWinOff w != 0 then fIllegal
  else if !isPrime q.mode then fMode
  else
    let n := sget g (wS2 w)
    let x := vget g (wD w)
    let y := vget g (wD w + 1)
    if !(kindOk k x.tag && kindOk k y.tag && kindOk arithS n.tag) then fMode
    else
      let ts := [n.tag, x.tag, y.tag]
      let W := wordCount q.mode
      let full := decide (W ≤ n.val.toNat)
      let g1 := putV g (wD w) (if full then y.val else x.val) (outTag k ts) k
      let g2 := putV g1 (wD w + 1) (if full then 0 else y.val) (outTag k ts) k
      let g3 := putS g2 (wS2 w) (if full then n.val.toNat - W else n.val.toNat) (outTag arithS ts) arithS
      retire w g3 .linear 1 2 3 ts

/-! Compression (R205) -/

/-- The largest d of `vpack` and `vunpack` under a MODE. -/
def packMax (m : Mode) : Nat := if m = .pair28 then 28 else 14

def isaVcomp (_ : IsaEnv) (g : Eng) (w : BitVec 32) : EngRes :=
  let q := qOf g w
  let x := vget g (wS1 w)
  let d := wS2 w
  if bitOf w.toNat 8 || wWinOff w != 0 then fIllegal
  else if q.mode ≠ .modq then fMode
  else if d = 0 ∨ 11 < d then fIllegal
  else if !(kindOk (arithOf q) x.tag) then fMode
  else retire w (putV g (wD w) (laneRow (fun j => compress q.modulus d (lane x.val j))) (outTag .bool [x.tag]) .bool)
    .gadget 2 10 24 [x.tag]

def isaVdcmp (_ : IsaEnv) (g : Eng) (w : BitVec 32) : EngRes :=
  let q := qOf g w
  let x := vget g (wS1 w)
  let d := wS2 w
  if bitOf w.toNat 8 || wWinOff w != 0 then fIllegal
  else if q.mode ≠ .modq then fMode
  else if d = 0 ∨ 11 < d then fIllegal
  else if !(kindOk .bool x.tag) then fMode
  else retire w (putV g (wD w) (laneRow (fun j => decompress q.modulus d (lane x.val j)))
    (outTag (arithOf q) [x.tag]) (arithOf q)) .gadget 2 10 24 [x.tag]

/-- MODEs of `vpack` and `vunpack`: MODQ, GF2M, PAIR28. -/
def packMode (m : Mode) : Bool := m == .modq || m == .gf2m || m == .pair28

def isaVpack (_ : IsaEnv) (g : Eng) (w : BitVec 32) : EngRes :=
  let q := qOf g w
  let m := q.mode
  let x := vget g (wS1 w)
  let d := wS2 w
  let nbits := wordCount m * d
  let off := wWinOff w
  if bitOf w.toNat 8 || wD w % 2 != 0 then fIllegal
  else if !packMode m then fMode
  else if d = 0 ∨ packMax m < d ∨ 56 * 8 < 8 * off + nbits then fIllegal
  else
    let lo := vget g (wD w)
    let hi := vget g (wD w + 1)
    let usesLo := decide (off < 28)
    let usesHi := decide (28 * 8 < 8 * off + nbits)
    let ts := x.tag :: ((if usesLo then [lo.tag] else []) ++ (if usesHi then [hi.tag] else []))
    if !(ts.all (kindOk .bool)) then fMode
    else
      let s := packNat d (fun j => word m x.val j) (wordCount m)
      let v := putBits (lo.val.toNat + hi.val.toNat * 2 ^ 224) (8 * off) nbits s
      let g1 := if usesLo then putV g (wD w) (BitVec.ofNat 224 v) (outTag .bool [x.tag, lo.tag]) .bool else g
      let g2 := if usesHi then putV g1 (wD w + 1) (BitVec.ofNat 224 (v >>> 224)) (outTag .bool [x.tag, hi.tag]) .bool
                else g1
      retire w g2 .linear 2 4 6 ts

def isaVunpack (_ : IsaEnv) (g : Eng) (w : BitVec 32) : EngRes :=
  let q := qOf g w
  let m := q.mode
  let d := wS2 w
  let off := wWinOff w
  let nbits := wordCount m * d
  if bitOf w.toNat 8 || wS1 w % 2 != 0 then fIllegal
  else if !packMode m then fMode
  else if d = 0 ∨ packMax m < d ∨ 56 * 8 < 8 * off + nbits then fIllegal
  else
    let win := [(vget g (wS1 w)).tag, (vget g (wS1 w + 1)).tag]
    if !(win.all (kindOk .bool)) then fMode
    else
      let v := leNat (window (vget g (wS1 w)).val (vget g (wS1 w + 1)).val) >>> (8 * off)
      retire w (putV g (wD w) (wordRow m (bitField v d)) (outTag .bool win) .bool) .linear 2 4 6 win

/-! Binary field, bitwise, carry-less (R206) -/

def gfForm (w : BitVec 32) (g : Eng) (two : Bool) (f : Nat → Nat → Nat → Nat → Nat) (c : CostKind) (o h wd : Nat) : EngRes :=
  let q := qOf g w
  let x := vget g (wS1 w)
  let y := vget g (wS2 w)
  if !two && wS2 w != 0 then fIllegal
  else if q.mode ≠ .gf2m then fMode
  else
    let ts := if two then [x.tag, y.tag] else [x.tag]
    if !(ts.all (kindOk .bool)) then fMode
    else maskedRetire .gf2m g w (wD w)
      (laneRow (fun j => f q.param q.modulus (lane x.val j) (lane y.val j))) (outTag .bool ts) .bool c o h wd ts

def isaVgmulF (_ : IsaEnv) (g : Eng) (w : BitVec 32) : EngRes := gfForm w g true gfMul .gadget2 1 6 16
def isaVgsqF (_ : IsaEnv) (g : Eng) (w : BitVec 32) : EngRes :=
  gfForm w g false (fun m low a _ => gfMul m low a a) .linear 1 2 3
def isaVginvF (_ : IsaEnv) (g : Eng) (w : BitVec 32) : EngRes :=
  gfForm w g false (fun m low a _ => gfInv m low a) .gadget 20 120 320

/-- Two-source operation on whole rows. -/
def bitBin (w : BitVec 32) (g : Eng) (f : Row → Row → Row) (c : CostKind) (h wd : Nat) : EngRes :=
  let x := vget g (wS1 w)
  let y := vget g (wS2 w)
  let ts := [x.tag, y.tag]
  if wQ w != 0 then fIllegal
  else if !(ts.all (kindOk .bool)) then fMode
  else maskedRetire .modq g w (wD w) (f x.val y.val) (outTag .bool ts) .bool c 1 h wd ts

def isaVand (_ : IsaEnv) (g : Eng) (w : BitVec 32) : EngRes := bitBin w g (fun x y => x &&& y) .gadget2 4 9
def isaVor (_ : IsaEnv) (g : Eng) (w : BitVec 32) : EngRes := bitBin w g (fun x y => x ||| y) .gadget2 4 9
def isaVxor (_ : IsaEnv) (g : Eng) (w : BitVec 32) : EngRes := bitBin w g (fun x y => x ^^^ y) .linear 2 3

/-- One-source operation on whole rows; `n` is the S2 field's form check. -/
def bitUn (w : BitVec 32) (g : Eng) (ok : Bool) (f : Row → Row) : EngRes :=
  let x := vget g (wS1 w)
  if !ok || wQ w != 0 then fIllegal
  else if !(kindOk .bool x.tag) then fMode
  else maskedRetire .modq g w (wD w) (f x.val) (outTag .bool [x.tag]) .bool .linear 1 2 3 [x.tag]

def isaVnot (_ : IsaEnv) (g : Eng) (w : BitVec 32) : EngRes := bitUn w g (wS2 w == 0) (fun x => ~~~x)
def isaVshlL (_ : IsaEnv) (g : Eng) (w : BitVec 32) : EngRes :=
  bitUn w g (decide (wS2 w ≤ 13)) (fun x => laneRow (fun j => lane x j <<< wS2 w))
def isaVshrL (_ : IsaEnv) (g : Eng) (w : BitVec 32) : EngRes :=
  bitUn w g (decide (wS2 w ≤ 13)) (fun x => laneRow (fun j => lane x j >>> wS2 w))

/-- Whole-row shifts: the count in sS2 must be public (R161). -/
def rowShift (w : BitVec 32) (g : Eng) (f : Row → Nat → Row) : EngRes :=
  if !(sOk (wS2 w)) || wQ w != 0 then fIllegal
  else if (sget g (wS2 w)).tag.secret then fSecretControl
  else bitUn w g true (fun x => f x (sget g (wS2 w)).val.toNat)

def isaVshlR (_ : IsaEnv) (g : Eng) (w : BitVec 32) : EngRes :=
  rowShift w g (fun x n => if 224 ≤ n then 0 else BitVec.ofNat 224 (x.toNat <<< n))
def isaVshrR (_ : IsaEnv) (g : Eng) (w : BitVec 32) : EngRes :=
  rowShift w g (fun x n => if 224 ≤ n then 0 else BitVec.ofNat 224 (x.toNat >>> n))
def isaVrotR (_ : IsaEnv) (g : Eng) (w : BitVec 32) : EngRes :=
  rowShift w g (fun x n => BitVec.ofNat 224 ((x.toNat <<< (n % 224)) ||| (x.toNat >>> (224 - n % 224))))

def isaVclmulLo (_ : IsaEnv) (g : Eng) (w : BitVec 32) : EngRes :=
  bitBin w g (fun x y => rowOf 32 7 (fun i => clmul (fieldOf 32 x i) (fieldOf 32 y i))) .gadget2 6 16
def isaVclmulHi (_ : IsaEnv) (g : Eng) (w : BitVec 32) : EngRes :=
  bitBin w g (fun x y => rowOf 32 7 (fun i => clmul (fieldOf 32 x i) (fieldOf 32 y i) >>> 32)) .gadget2 6 16

/-! Paired (R207) -/

/-- PAIR28 with MODULUS 8,380,417. -/
def dsaMode (q : QReg) : Bool := q.mode == .pair28 && q.modulus == qDsa

/-- Two results: r1 into vD, r0 mod q into vD + 1. -/
def pairSplit (w : BitVec 32) (g : Eng) (f : Nat → Nat × Int) : EngRes :=
  let q := qOf g w
  let k := arithOf q
  let x := vget g (wS1 w)
  if wD w % 2 != 0 || wS2 w != 0 then fIllegal
  else if !dsaMode q || !(kindOk k x.tag) then fMode
  else
    let t := outTag k [x.tag]
    match maskedPut .pair28 g w (wD w) (wordRow .pair28 (fun j => (f (word .pair28 x.val j)).1)) t k with
    | none => fMode
    | some g1 =>
        match maskedPut .pair28 g1 w (wD w + 1)
            (wordRow .pair28 (fun j => intM qDsa (f (word .pair28 x.val j)).2)) t k with
        | none => fMode
        | some g2 => retirePs w g2 (pget g (wPs w)) .gadget 2 10 24 [x.tag]

def isaVp2r (_ : IsaEnv) (g : Eng) (w : BitVec 32) : EngRes := pairSplit w g power2Round
def isaVdecompN (_ : IsaEnv) (g : Eng) (w : BitVec 32) : EngRes := pairSplit w g (decompose gammaN)
def isaVdecompW (_ : IsaEnv) (g : Eng) (w : BitVec 32) : EngRes := pairSplit w g (decompose gammaW)

def hintForm (w : BitVec 32) (g : Eng) (f : Nat → Nat → Nat) : EngRes :=
  let q := qOf g w
  let k := arithOf q
  let x := vget g (wS1 w)
  let y := vget g (wS2 w)
  let ts := [x.tag, y.tag]
  if !dsaMode q || !(ts.all (kindOk k)) then fMode
  else maskedRetire .pair28 g w (wD w)
    (wordRow .pair28 (fun j => f (word .pair28 x.val j) (word .pair28 y.val j))) (outTag k ts) k .gadget 3 14 34 ts

def isaVhintMkN (_ : IsaEnv) (g : Eng) (w : BitVec 32) : EngRes := hintForm w g (makeHint gammaN)
def isaVhintMkW (_ : IsaEnv) (g : Eng) (w : BitVec 32) : EngRes := hintForm w g (makeHint gammaW)
def isaVhintUseN (_ : IsaEnv) (g : Eng) (w : BitVec 32) : EngRes := hintForm w g (useHint gammaN)
def isaVhintUseW (_ : IsaEnv) (g : Eng) (w : BitVec 32) : EngRes := hintForm w g (useHint gammaW)

/-- `vnorm.ge`: the bound in sS2 must be public. -/
def isaVnormGe (_ : IsaEnv) (g : Eng) (w : BitVec 32) : EngRes :=
  let q := qOf g w
  let x := vget g (wS1 w)
  let b := sget g (wS2 w)
  if !(sOk (wS2 w)) || !(pqOk (wD w)) || wPs w != 0 then fIllegal
  else if b.tag.secret then fSecretControl
  else vecCmp w g q.mode (q.mode == .pair28 && kindOk (arithOf q) x.tag) [x.tag]
    (fun j => decide (b.val.toNat ≤ centredMag q.modulus (word q.mode x.val j)))

/-! Quad (R208) -/

def quadBin (w : BitVec 32) (g : Eng) (f : Nat → (Nat → Nat) → (Nat → Nat) → Nat → Nat) (c : CostKind) (o h wd : Nat) : EngRes :=
  let q := qOf g w
  let k := arithOf q
  let x := vget g (wS1 w)
  let y := vget g (wS2 w)
  let ts := [x.tag, y.tag]
  if q.mode ≠ .quad56 then fMode
  else if !(ts.all (kindOk k)) then fMode
  else maskedRetire .quad56 g w (wD w)
    (wordRow .quad56 (f q.param (word .quad56 x.val) (word .quad56 y.val))) (outTag k ts) k c o h wd ts

def isaVfaddX (_ : IsaEnv) (g : Eng) (w : BitVec 32) : EngRes :=
  quadBin w g (fun _ x y j => fxAdd (x j) (y j)) .linear 1 2 3
def isaVfsubX (_ : IsaEnv) (g : Eng) (w : BitVec 32) : EngRes :=
  quadBin w g (fun _ x y j => fxSub (x j) (y j)) .linear 1 2 3
def isaVfmulX (_ : IsaEnv) (g : Eng) (w : BitVec 32) : EngRes :=
  quadBin w g (fun f x y j => fxMul f (x j) (y j)) .gadget2 3 14 34

/-- Word `j` of the complex product of x and y. -/
def cplxMul (f : Nat) (x y : Nat → Nat) (j : Nat) : Nat :=
  let c := 2 * (j / 2)
  if j % 2 = 0 then fxMulRe f (x c) (x (c + 1)) (y c) (y (c + 1)) else fxMulIm f (x c) (x (c + 1)) (y c) (y (c + 1))

def isaVfcmulX (_ : IsaEnv) (g : Eng) (w : BitVec 32) : EngRes := quadBin w g cplxMul .gadget2 6 28 68

def isaVfbflyX (_ : IsaEnv) (g : Eng) (w : BitVec 32) : EngRes :=
  let q := qOf g w
  let k := arithOf q
  let p := pget g (wPs w)
  let x := vget g (wD w)
  let y := vget g (wS1 w)
  let tw := vget g (wS2 w)
  if wD w = wS1 w then fIllegal
  else if q.mode ≠ .quad56 then fMode
  else if !([x.tag, y.tag, tw.tag].all (kindOk k)) then fMode
  else
    let t := outTag k [x.tag, y.tag, tw.tag]
    let pr := cplxMul q.param (word .quad56 tw.val) (word .quad56 y.val)
    match maskedPut .quad56 g w (wD w) (wordRow .quad56 (fun j => fxAdd (word .quad56 x.val j) (pr j))) t k with
    | none => fMode
    | some g1 =>
        match maskedPut .quad56 g1 w (wS1 w) (wordRow .quad56 (fun j => fxSub (word .quad56 x.val j) (pr j))) t k with
        | none => fMode
        | some g2 =>
            if tw.tag.secret && (x.tag.secret || y.tag.secret) then retirePs w g2 p .gadget 6 28 68 [tw.tag, x.tag, y.tag]
            else retirePs w g2 p .linear 6 12 18 [tw.tag, x.tag, y.tag]

def isaVfcvtX (_ : IsaEnv) (g : Eng) (w : BitVec 32) : EngRes :=
  let q := qOf g w
  let kd := arithOf q
  let x := vget g (wS1 w)
  if 3 < wS2 w then fIllegal
  else if q.mode ≠ .quad56 || !(kindOk kd x.tag) then fMode
  else maskedRetire .quad56 g w (wD w)
    (wordRow .quad56 (fun j => wrapTo 56 (signedOf 14 (lane x.val (4 * wS2 w + j)) * 2 ^ q.param)))
    (outTag kd [x.tag]) kd .linear 1 2 3 [x.tag]

/-- `vfrnd.x`: the words of vS1, rounded, into lanes 4k to 4k + 3; word j is governed by its own bit. -/
def isaVfrndX (_ : IsaEnv) (g : Eng) (w : BitVec 32) : EngRes :=
  let q := qOf g w
  let p := pget g (wPs w)
  let x := vget g (wS1 w)
  let z := vget g (wD w)
  let o := 4 * wS2 w
  if 3 < wS2 w then fIllegal
  else if q.mode ≠ .quad56 || !(kindOk (arithOf q) x.tag) || !(kindOk .bool z.tag) then fMode
  else
    let r := laneRow (fun j =>
      if o ≤ j ∧ j < o + 4 ∧ p.val.getLsbD (4 * (j - o)) then
        wrapTo 14 (roundShift q.param (signedOf 56 (word .quad56 x.val (j - o))))
      else lane z.val j)
    retirePs w (putV g (wD w) r (outTag .bool [x.tag, z.tag, p.tag]) .bool) p .gadget 2 10 24 [x.tag]

end Sys2Proof.Machine
end

