-- ==== Sys2Proof/Machine/IsaExec.lean ====
section
/-! DEFINITION. One instruction on an engine: fetch at the PC, hardware faults, the instruction's effect, faults, halts and
waits (06_engine_model.md R158, R168 to R175; 07_isagil_instructions.md R186 to R220). The code of the library programs is
not in the spec: of such a job the HALT form that fits its result ends it (08_post_quantum_library.md R221 to R245). -/

namespace Sys2Proof.Machine

/-- What the instruction sees outside its engine. -/
def isaEnv (s : State) (e : Nat) (prog : Nat) : IsaEnv :=
  let ovs := (getEng s e).package
  let kibs := ovs.map (fun o => kibOf (4 * o.length))
  { free := s.freeCtr, keccakCore := coreFor s e .keccak, sha2Core := coreFor s e .sha2, overlays := ovs,
    loadCycles := (List.zip (List.range kibs.length) kibs).map (fun x =>
      64 * x.2 + (if cached s (e / 17) prog x.1 then 0 else 128 * x.2)) }

def isKeccakOp (op : IsaOp) : Bool := op == .vkeccakF
def isShaOp (op : IsaOp) : Bool := op == .vshaCs || op == .vshaCl

/-- The Keccak or SHA-2 core a PORT_INTEGRITY fault is attributed to (R474), as KIND and INDEX. -/
def faultCore (op : IsaOp) (p core : Nat) : Option (Nat × Nat) :=
  if isKeccakOp op then some (4, 4 * p + core) else if isShaOp op then some (5, 2 * p + core % 2) else none

/-- A hardware fault strikes the instruction (R158, R174, R218, R220). -/
def hwFault (s : State) (n p : Nat) (op : IsaOp) (hw : HwEvent) : Option State := match hw with
  | .operandEcc => some (faultJob s n stFault 0x0158 0)
  | .gadgetCheck => some (faultJob s n stFault 0x0159 0)
  | .portIntegrity core => match faultCore op p core.val with
    | some k => some (coreFaultNote (faultJob s n stFault 0x015A (k.1 * 0x1000 + k.2)) k.1 k.2)
    | none => some (faultJob s n stFault 0x015A 0)
  | _ => none

/-- The detail of an abort (R175). -/
def abortDetail : AbortCause → Nat
  | .allotment => 0x0160
  | .ladderEnd => 0x0161
  | .quarantine => 0x0162
  | .suspend => 0x0163
  | .functionReset => 0

/-- A fault that meets an abort event in its cycle decides the status; the abort's cause is named too (R220). DESIGN CHOICE: by
a second record, since the layout of R464 gives the first one no place for it (log 141). -/
def metAbort (s : State) (e : Nat) (j : Job) (hw : HwEvent) : State := match hw with
  | .abort c => record s 0x0502 e sevFault (recTenant s j.cmd.fn) (engPayload 1 e (abortDetail c) 0 j.prog j.cmd.desc.tag)
  | _ => s

/-- The fault of an instruction. -/
def isaFault (s : State) (e n : Nat) (j : Job) (hw : HwEvent) (st dt : Nat) : State :=
  metAbort (faultJob s n st dt 0) e j hw

/-- A corrected error of the operand memory is written back and counted (R158). -/
def hwCorrected (s : State) (e : Nat) (tenant : Option Nat) (hw : HwEvent) : State :=
  if hw = .corrected then
    let g := getEng s e
    let s1 := pmcPav (setEng s e { g with eccCorrected := g.eccCorrected + 1 }) (e / 17) 18 1
    record s1 0x0504 e sevInfo tenant (engPayload 1 e 0 0 g.progId 0)
  else s

/-- The pavilion's and the cores' counters of a retired instruction, `core` the core that served it (R458). -/
def isaCount (s : State) (p : Nat) (op : IsaOp) (core cycles : Nat) : State :=
  if isKeccakOp op then pmcDev (pmcPav s p 10 1) (64 + 4 * p + core) cycles
  else if isShaOp op then pmcDev (pmcPav s p 11 1) (128 + 2 * p + (core - 4)) cycles
  else if op = .cblkE ∨ op = .cblkD then pmcPav s p 9 1
  else if op = .kldA ∨ op = .kldB then pmcPav s p 15 1
  else s

/-- The end of a job at a halt: CLEARING, the cycles retired, the result (R219). -/
def haltJob (s : State) (e n : Nat) (g : Eng) (status detail : Nat) (out : Bytes) (pair : Nat) (early : Bool) : State :=
  let s1 := setEng s e { g with st := .clearing, job := none, want := .none, grant := none }
  let s2 := endJob s1 n status (if status = stOutSmall then 0 else detail) out pair early
  match getJob s2 n with
  | some j => if status = stOutSmall then setJob s2 n { j with required := detail } else s2
  | none => s2

/-- The compare pair of an engine as the completion carries it. -/
def engPair (g : Eng) : Nat := g.cmpOkn.toNat * 2 ^ 32 + g.cmpOk.toNat

/-- The state a core holds after it has served an instruction: the registers of the group (R13, R211, R212). -/
def coreKeep (s : State) (p : Nat) (op : IsaOp) (g : Eng) (w : BitVec 32) : State :=
  let n := if isKeccakOp op then 8 else if op = .vshaCs then 2 else if op = .vshaCl then 3 else 0
  if n = 0 then s
  else
    let v := getPav s p
    setPav s p { v with coreState := kins v.coreState (coreOf g) (groupBytes g (wD w) n) }

/-- A return without the secret tag is refused and counted (R149). -/
def returnNote (s : State) (detail : Nat) : State :=
  if detail = 0x014A then { s with kst := { s.kst with returnRefused := satInc 32 s.kst.returnRefused } } else s

/-- A job that ends with OK: its output, and the handle of the key object made of what it has returned (R214, R227, R229,
R247). -/
def returnedKey (s : State) (j : Job) (g : Eng) : Res (State × Bytes) :=
  if g.returnLen.isNone then .ok (s, engOutput g)
  else
    let c := j.cmd
    let t := tenantOf s c.fn
    let export_ := attrHas j.attrA flExportable
    let make (a : Res Attr) : Res (State × Bytes) := match a with
      | .error e => .error e
      | .ok a => match createDerived s a g.returned with
        | .error e => .error e
        | .ok (s1, h) => .ok (meterAdd s1 9 g.returned.length, engOutput g ++ leBytes 4 h)
    if c.desc.opcode = 0x1004 then
      (if c.desc.select % 65536 = 0x0D01 then
        make (derivedAttr (c.aux.take 64) t [(j.attrA.map (fun a => a.alg)).getD 0] (attrHas j.attrA flParkWide) export_
          (attrFloor j.attrA) 0)
      else
        make (derivedAttr (c.aux.take 64) t [0x0103, 0x0121, 0x0122] (attrHas j.attrA flParkWide && attrHas j.attrB flParkWide)
          (export_ && attrHas j.attrB flExportable) (max (attrFloor j.attrA) (attrFloor j.attrB)) 0x0189))
    else
      let block := if c.desc.opcode = 0x5003 ∧ j.attrA.isNone then c.aux.drop (pqPub (selAlg c)) else c.aux
      make (sharedAttr (block.take 64) t (kemAlgs (selAlg c)) export_
        (if j.attrA.isSome then attrFloor j.attrA else j.profile))

/-- The result of one instruction of a program job. A core granted for an earlier instruction is free again. -/
def isaResult (s : State) (e n : Nat) (j : Job) (op : IsaOp) (g : Eng) (w : BitVec 32) (hw : HwEvent) : EngRes → State
  | .ok g' d =>
      let s1 := if op = .jov then cacheLoad s (e / 17) j.prog (wOvl w) (kibOf (4 * g'.imem.length)) else s
      let core := isKeccakOp op || isShaOp op
      let s2 := drawRows (setEng s1 e { g' with fnt := g.fnt, masks := newMasks s.freeCtr g g', grant := if core then g'.grant else none }) e d
      bumpCtr (isaCount (coreKeep s2 (e / 17) op g' w) (e / 17) op (coreOf g') (g'.cycles - g.cycles))
  | .fault st dt => isaFault (returnNote s dt) e n j hw st (if st = stRngFailed then s.rng.cause else dt)
  | .halt g' st dt reject =>
      let pair := if verifyOp j.cmd.desc.opcode then engPair g' else 0
      match (if st = 0 then returnedKey s j g' else .ok (s, engOutput g')) with
      | .error d => haltJob s e n g' d.1 d.2 [] pair reject
      | .ok (s1, out) => haltJob s1 e n g' st dt (if st = 0 then out else []) pair reject
  | .wait g' =>
      let s1 := setEng s e { g' with grant := none }
      if g.want = .none ∧ g'.want ≠ .none then coreQueue s1 e else s1

/-- Masks are needed and no seed is in the fountain: the instruction waits for one, or ends the job once the kiln has
stopped (R168). -/
def unseeded (g : Eng) : EngRes → Bool
  | .ok _ d => decide (0 < d) && !g.fnt.seeded
  | _ => false

/-- One instruction of a program job. -/
def progRun (op : IsaOp) (f : IsaEnv → Eng → BitVec 32 → EngRes) (x : IsaX) (s : State) (g : Eng) (n : Nat) (j : Job) :
    State :=
  let e := x.e.val
  match g.imem[g.pc]? with
  | none => isaFault s e n j x.hw stProgram 0x0147
  | some w =>
      if w ≠ x.w then s
      else match isaDecode w with
        | none => isaFault s e n j x.hw stProgram 0x0140
        | some o =>
            if o ≠ op then s
            else match hwFault s n (e / 17) op x.hw with
              | some t => t
              | none =>
                  let s1 := hwCorrected s e (recTenant s j.cmd.fn) x.hw
                  let g1 := getEng s1 e
                  let r := f (isaEnv s1 e j.prog) g1 w
                  if unseeded g1 r then (if kilnStopped s1 then isaFault s1 e n j x.hw stRngFailed s1.rng.cause else s1)
                  else isaResult s1 e n j op g1 w x.hw r

/-- Does a HALT form fit the end of a library job? -/
def haltFits (op : IsaOp) (r : JobEnd) : Bool :=
  if r.early then op == .haltPr else if r.st = 0 then op == .halt else op == .haltSt

/-- A library job at a HALT: its keys are loaded, unless it rejects public inputs first (R231). -/
def libRunHalt (op : IsaOp) (x : IsaX) (s : State) (g : Eng) (n : Nat) (j : Job) : State :=
  let e := x.e.val
  let r := jobResult s j
  if !haltFits op r.2 || (!r.2.early && (j.useA.isSome || j.useB.isSome)) then s
  else match hwFault s n (e / 17) op x.hw with
    | some t => t
    | none =>
        if g.fnt.stopped && j.profile != 0 && !r.2.early then faultJob s n stRngFailed s.rng.cause 0
        else
          let s0 := if r.2.early then r.1 else libRest r.1 (e / 17) j.prog
          let s1 := hwCorrected s0 e (recTenant s j.cmd.fn) x.hw
          haltJob s1 e n (getEng s1 e) r.2.st r.2.dt r.2.out r.2.pair r.2.early

/-- One instruction on an engine. -/
def isaRun (op : IsaOp) (f : IsaEnv → Eng → BitVec 32 → EngRes) (x : IsaX) (s : State) :
    Host.Outcome State Fault Refusal :=
  let g := getEng s x.e.val
  answer s (if g.st ≠ .running then s
    else match g.job with
      | none => s
      | some n => match getJob s n with
        | none => s
        | some j => match j.kind with
          | .program => progRun op f x s g n j
          | .library => libRunHalt op x s g n j
          | _ => s)

/-- NOP (R219). -/
def execNop (x : IsaX) (s : State) : Host.Outcome State Fault Refusal := isaRun .nop isaNop x s
/-- HALT (R219). -/
def execHalt (x : IsaX) (s : State) : Host.Outcome State Fault Refusal := isaRun .halt isaHalt x s
/-- HALT_ST (R219). -/
def execHaltSt (x : IsaX) (s : State) : Host.Outcome State Fault Refusal := isaRun .haltSt isaHaltSt x s
/-- HALT_PR (R219). -/
def execHaltPr (x : IsaX) (s : State) : Host.Outcome State Fault Refusal := isaRun .haltPr isaHaltPr x s
/-- SADD (R193). -/
def execSadd (x : IsaX) (s : State) : Host.Outcome State Fault Refusal := isaRun .sadd isaSadd x s
/-- SSUB (R193). -/
def execSsub (x : IsaX) (s : State) : Host.Outcome State Fault Refusal := isaRun .ssub isaSsub x s
/-- SAND (R193). -/
def execSand (x : IsaX) (s : State) : Host.Outcome State Fault Refusal := isaRun .sand isaSand x s
/-- SOR (R193). -/
def execSor (x : IsaX) (s : State) : Host.Outcome State Fault Refusal := isaRun .sor isaSor x s
/-- SXOR (R193). -/
def execSxor (x : IsaX) (s : State) : Host.Outcome State Fault Refusal := isaRun .sxor isaSxor x s
/-- SSHL (R193). -/
def execSshl (x : IsaX) (s : State) : Host.Outcome State Fault Refusal := isaRun .sshl isaSshl x s
/-- SSHR (R193). -/
def execSshr (x : IsaX) (s : State) : Host.Outcome State Fault Refusal := isaRun .sshr isaSshr x s
/-- SMUL (R193). -/
def execSmul (x : IsaX) (s : State) : Host.Outcome State Fault Refusal := isaRun .smul isaSmul x s
/-- SEQ (R193). -/
def execSeq (x : IsaX) (s : State) : Host.Outcome State Fault Refusal := isaRun .seq isaSeq x s
/-- SLT (R193). -/
def execSlt (x : IsaX) (s : State) : Host.Outcome State Fault Refusal := isaRun .slt isaSlt x s
/-- SLTU (R193). -/
def execSltu (x : IsaX) (s : State) : Host.Outcome State Fault Refusal := isaRun .sltu isaSltu x s
/-- SMOV (R193). -/
def execSmov (x : IsaX) (s : State) : Host.Outcome State Fault Refusal := isaRun .smov isaSmov x s
/-- SADDI (R193). -/
def execSaddi (x : IsaX) (s : State) : Host.Outcome State Fault Refusal := isaRun .saddi isaSaddi x s
/-- SLI (R193). -/
def execSli (x : IsaX) (s : State) : Host.Outcome State Fault Refusal := isaRun .sli isaSli x s
/-- SLUI (R193). -/
def execSlui (x : IsaX) (s : State) : Host.Outcome State Fault Refusal := isaRun .slui isaSlui x s
/-- BR_Z (R194). -/
def execBrZ (x : IsaX) (s : State) : Host.Outcome State Fault Refusal := isaRun .brZ isaBrZ x s
/-- BR_NZ (R194). -/
def execBrNz (x : IsaX) (s : State) : Host.Outcome State Fault Refusal := isaRun .brNz isaBrNz x s
/-- BR_LTZ (R194). -/
def execBrLtz (x : IsaX) (s : State) : Host.Outcome State Fault Refusal := isaRun .brLtz isaBrLtz x s
/-- BR_GEZ (R194). -/
def execBrGez (x : IsaX) (s : State) : Host.Outcome State Fault Refusal := isaRun .brGez isaBrGez x s
/-- BR_PANY (R194). -/
def execBrPany (x : IsaX) (s : State) : Host.Outcome State Fault Refusal := isaRun .brPany isaBrPany x s
/-- BR_PNONE (R194). -/
def execBrPnone (x : IsaX) (s : State) : Host.Outcome State Fault Refusal := isaRun .brPnone isaBrPnone x s
/-- JMP (R194). -/
def execJmp (x : IsaX) (s : State) : Host.Outcome State Fault Refusal := isaRun .jmp isaJmp x s
/-- LOOP_I (R195). -/
def execLoopI (x : IsaX) (s : State) : Host.Outcome State Fault Refusal := isaRun .loopI isaLoopI x s
/-- LOOP_S (R195). -/
def execLoopS (x : IsaX) (s : State) : Host.Outcome State Fault Refusal := isaRun .loopS isaLoopS x s
/-- LOOP_I_SHF (R196). -/
def execLoopIShf (x : IsaX) (s : State) : Host.Outcome State Fault Refusal := isaRun .loopIShf isaLoopIShf x s
/-- LOOP_S_SHF (R196). -/
def execLoopSShf (x : IsaX) (s : State) : Host.Outcome State Fault Refusal := isaRun .loopSShf isaLoopSShf x s
/-- CALL (R197). -/
def execCall (x : IsaX) (s : State) : Host.Outcome State Fault Refusal := isaRun .call isaCall x s
/-- RET (R197). -/
def execRet (x : IsaX) (s : State) : Host.Outcome State Fault Refusal := isaRun .ret isaRet x s
/-- JOV (R197). -/
def execJov (x : IsaX) (s : State) : Host.Outcome State Fault Refusal := isaRun .jov isaJov x s
/-- ASET (R198). -/
def execAset (x : IsaX) (s : State) : Host.Outcome State Fault Refusal := isaRun .aset isaAset x s
/-- AADD (R198). -/
def execAadd (x : IsaX) (s : State) : Host.Outcome State Fault Refusal := isaRun .aadd isaAadd x s
/-- ASET_LI (R198). -/
def execAsetLi (x : IsaX) (s : State) : Host.Outcome State Fault Refusal := isaRun .asetLi isaAsetLi x s
/-- AMOV_S (R198). -/
def execAmovS (x : IsaX) (s : State) : Host.Outcome State Fault Refusal := isaRun .amovS isaAmovS x s
/-- QSET_S (R199). -/
def execQsetS (x : IsaX) (s : State) : Host.Outcome State Fault Refusal := isaRun .qsetS isaQsetS x s
/-- QSET_R (R199). -/
def execQsetR (x : IsaX) (s : State) : Host.Outcome State Fault Refusal := isaRun .qsetR isaQsetR x s
/-- PAND (R199). -/
def execPand (x : IsaX) (s : State) : Host.Outcome State Fault Refusal := isaRun .pand isaPand x s
/-- POR (R199). -/
def execPor (x : IsaX) (s : State) : Host.Outcome State Fault Refusal := isaRun .por isaPor x s
/-- PXOR (R199). -/
def execPxor (x : IsaX) (s : State) : Host.Outcome State Fault Refusal := isaRun .pxor isaPxor x s
/-- PNOT (R199). -/
def execPnot (x : IsaX) (s : State) : Host.Outcome State Fault Refusal := isaRun .pnot isaPnot x s
/-- PMOV_S (R199). -/
def execPmovS (x : IsaX) (s : State) : Host.Outcome State Fault Refusal := isaRun .pmovS isaPmovS x s
/-- SMOV_P (R199). -/
def execSmovP (x : IsaX) (s : State) : Host.Outcome State Fault Refusal := isaRun .smovP isaSmovP x s
/-- PSET (R199). -/
def execPset (x : IsaX) (s : State) : Host.Outcome State Fault Refusal := isaRun .pset isaPset x s
/-- VADD_M (R200). -/
def execVaddM (x : IsaX) (s : State) : Host.Outcome State Fault Refusal := isaRun .vaddM isaVaddM x s
/-- VSUB_M (R200). -/
def execVsubM (x : IsaX) (s : State) : Host.Outcome State Fault Refusal := isaRun .vsubM isaVsubM x s
/-- VNEG_M (R200). -/
def execVnegM (x : IsaX) (s : State) : Host.Outcome State Fault Refusal := isaRun .vnegM isaVnegM x s
/-- VMUL_M (R200). -/
def execVmulM (x : IsaX) (s : State) : Host.Outcome State Fault Refusal := isaRun .vmulM isaVmulM x s
/-- VMAC_M (R200). -/
def execVmacM (x : IsaX) (s : State) : Host.Outcome State Fault Refusal := isaRun .vmacM isaVmacM x s
/-- VMULS_M (R200). -/
def execVmulsM (x : IsaX) (s : State) : Host.Outcome State Fault Refusal := isaRun .vmulsM isaVmulsM x s
/-- VRED_M (R200). -/
def execVredM (x : IsaX) (s : State) : Host.Outcome State Fault Refusal := isaRun .vredM isaVredM x s
/-- VCHK_Q (R200). -/
def execVchkQ (x : IsaX) (s : State) : Host.Outcome State Fault Refusal := isaRun .vchkQ isaVchkQ x s
/-- VCMP_EQ (R200). -/
def execVcmpEq (x : IsaX) (s : State) : Host.Outcome State Fault Refusal := isaRun .vcmpEq isaVcmpEq x s
/-- VCMP_LT (R200). -/
def execVcmpLt (x : IsaX) (s : State) : Host.Outcome State Fault Refusal := isaRun .vcmpLt isaVcmpLt x s
/-- VSEL (R200). -/
def execVsel (x : IsaX) (s : State) : Host.Outcome State Fault Refusal := isaRun .vsel isaVsel x s
/-- VBFLY_CT (R201). -/
def execVbflyCt (x : IsaX) (s : State) : Host.Outcome State Fault Refusal := isaRun .vbflyCt isaVbflyCt x s
/-- VBFLY_GS (R201). -/
def execVbflyGs (x : IsaX) (s : State) : Host.Outcome State Fault Refusal := isaRun .vbflyGs isaVbflyGs x s
/-- VBFLY_GF (R201). -/
def execVbflyGf (x : IsaX) (s : State) : Host.Outcome State Fault Refusal := isaRun .vbflyGf isaVbflyGf x s
/-- VBMUL_M (R201). -/
def execVbmulM (x : IsaX) (s : State) : Host.Outcome State Fault Refusal := isaRun .vbmulM isaVbmulM x s
/-- VPERM (R202). -/
def execVperm (x : IsaX) (s : State) : Host.Outcome State Fault Refusal := isaRun .vperm isaVperm x s
/-- VZIP_LO (R202). -/
def execVzipLo (x : IsaX) (s : State) : Host.Outcome State Fault Refusal := isaRun .vzipLo isaVzipLo x s
/-- VZIP_HI (R202). -/
def execVzipHi (x : IsaX) (s : State) : Host.Outcome State Fault Refusal := isaRun .vzipHi isaVzipHi x s
/-- VUZP_EV (R202). -/
def execVuzpEv (x : IsaX) (s : State) : Host.Outcome State Fault Refusal := isaRun .vuzpEv isaVuzpEv x s
/-- VUZP_OD (R202). -/
def execVuzpOd (x : IsaX) (s : State) : Host.Outcome State Fault Refusal := isaRun .vuzpOd isaVuzpOd x s
/-- VREV (R202). -/
def execVrev (x : IsaX) (s : State) : Host.Outcome State Fault Refusal := isaRun .vrev isaVrev x s
/-- VBCAST_L (R202). -/
def execVbcastL (x : IsaX) (s : State) : Host.Outcome State Fault Refusal := isaRun .vbcastL isaVbcastL x s
/-- VBCAST_S (R202). -/
def execVbcastS (x : IsaX) (s : State) : Host.Outcome State Fault Refusal := isaRun .vbcastS isaVbcastS x s
/-- VSAMP_REJ (R204). -/
def execVsampRej (x : IsaX) (s : State) : Host.Outcome State Fault Refusal := isaRun .vsampRej isaVsampRej x s
/-- VSAMP_ETA_LO (R204). -/
def execVsampEtaLo (x : IsaX) (s : State) : Host.Outcome State Fault Refusal := isaRun .vsampEtaLo isaVsampEtaLo x s
/-- VSAMP_ETA_HI (R204). -/
def execVsampEtaHi (x : IsaX) (s : State) : Host.Outcome State Fault Refusal := isaRun .vsampEtaHi isaVsampEtaHi x s
/-- VSAMP_CBD (R204). -/
def execVsampCbd (x : IsaX) (s : State) : Host.Outcome State Fault Refusal := isaRun .vsampCbd isaVsampCbd x s
/-- VSAMP_CBT (R204). -/
def execVsampCbt (x : IsaX) (s : State) : Host.Outcome State Fault Refusal := isaRun .vsampCbt isaVsampCbt x s
/-- VSAMP_UNF_LO (R204). -/
def execVsampUnfLo (x : IsaX) (s : State) : Host.Outcome State Fault Refusal := isaRun .vsampUnfLo isaVsampUnfLo x s
/-- VSAMP_UNF_HI (R204). -/
def execVsampUnfHi (x : IsaX) (s : State) : Host.Outcome State Fault Refusal := isaRun .vsampUnfHi isaVsampUnfHi x s
/-- VSAMP_NEXT (R204). -/
def execVsampNext (x : IsaX) (s : State) : Host.Outcome State Fault Refusal := isaRun .vsampNext isaVsampNext x s
/-- VCOMP (R205). -/
def execVcomp (x : IsaX) (s : State) : Host.Outcome State Fault Refusal := isaRun .vcomp isaVcomp x s
/-- VDCMP (R205). -/
def execVdcmp (x : IsaX) (s : State) : Host.Outcome State Fault Refusal := isaRun .vdcmp isaVdcmp x s
/-- VPACK (R205). -/
def execVpack (x : IsaX) (s : State) : Host.Outcome State Fault Refusal := isaRun .vpack isaVpack x s
/-- VUNPACK (R205). -/
def execVunpack (x : IsaX) (s : State) : Host.Outcome State Fault Refusal := isaRun .vunpack isaVunpack x s
/-- VGMUL_F (R206). -/
def execVgmulF (x : IsaX) (s : State) : Host.Outcome State Fault Refusal := isaRun .vgmulF isaVgmulF x s
/-- VGSQ_F (R206). -/
def execVgsqF (x : IsaX) (s : State) : Host.Outcome State Fault Refusal := isaRun .vgsqF isaVgsqF x s
/-- VGINV_F (R206). -/
def execVginvF (x : IsaX) (s : State) : Host.Outcome State Fault Refusal := isaRun .vginvF isaVginvF x s
/-- VAND (R206). -/
def execVand (x : IsaX) (s : State) : Host.Outcome State Fault Refusal := isaRun .vand isaVand x s
/-- VOR (R206). -/
def execVor (x : IsaX) (s : State) : Host.Outcome State Fault Refusal := isaRun .vor isaVor x s
/-- VXOR (R206). -/
def execVxor (x : IsaX) (s : State) : Host.Outcome State Fault Refusal := isaRun .vxor isaVxor x s
/-- VNOT (R206). -/
def execVnot (x : IsaX) (s : State) : Host.Outcome State Fault Refusal := isaRun .vnot isaVnot x s
/-- VSHL_L (R206). -/
def execVshlL (x : IsaX) (s : State) : Host.Outcome State Fault Refusal := isaRun .vshlL isaVshlL x s
/-- VSHR_L (R206). -/
def execVshrL (x : IsaX) (s : State) : Host.Outcome State Fault Refusal := isaRun .vshrL isaVshrL x s
/-- VSHL_R (R206). -/
def execVshlR (x : IsaX) (s : State) : Host.Outcome State Fault Refusal := isaRun .vshlR isaVshlR x s
/-- VSHR_R (R206). -/
def execVshrR (x : IsaX) (s : State) : Host.Outcome State Fault Refusal := isaRun .vshrR isaVshrR x s
/-- VROT_R (R206). -/
def execVrotR (x : IsaX) (s : State) : Host.Outcome State Fault Refusal := isaRun .vrotR isaVrotR x s
/-- VCLMUL_LO (R206). -/
def execVclmulLo (x : IsaX) (s : State) : Host.Outcome State Fault Refusal := isaRun .vclmulLo isaVclmulLo x s
/-- VCLMUL_HI (R206). -/
def execVclmulHi (x : IsaX) (s : State) : Host.Outcome State Fault Refusal := isaRun .vclmulHi isaVclmulHi x s
/-- VP2R (R207). -/
def execVp2r (x : IsaX) (s : State) : Host.Outcome State Fault Refusal := isaRun .vp2r isaVp2r x s
/-- VDECOMP_N (R207). -/
def execVdecompN (x : IsaX) (s : State) : Host.Outcome State Fault Refusal := isaRun .vdecompN isaVdecompN x s
/-- VDECOMP_W (R207). -/
def execVdecompW (x : IsaX) (s : State) : Host.Outcome State Fault Refusal := isaRun .vdecompW isaVdecompW x s
/-- VHINT_MK_N (R207). -/
def execVhintMkN (x : IsaX) (s : State) : Host.Outcome State Fault Refusal := isaRun .vhintMkN isaVhintMkN x s
/-- VHINT_MK_W (R207). -/
def execVhintMkW (x : IsaX) (s : State) : Host.Outcome State Fault Refusal := isaRun .vhintMkW isaVhintMkW x s
/-- VHINT_USE_N (R207). -/
def execVhintUseN (x : IsaX) (s : State) : Host.Outcome State Fault Refusal := isaRun .vhintUseN isaVhintUseN x s
/-- VHINT_USE_W (R207). -/
def execVhintUseW (x : IsaX) (s : State) : Host.Outcome State Fault Refusal := isaRun .vhintUseW isaVhintUseW x s
/-- VNORM_GE (R207). -/
def execVnormGe (x : IsaX) (s : State) : Host.Outcome State Fault Refusal := isaRun .vnormGe isaVnormGe x s
/-- VFADD_X (R208). -/
def execVfaddX (x : IsaX) (s : State) : Host.Outcome State Fault Refusal := isaRun .vfaddX isaVfaddX x s
/-- VFSUB_X (R208). -/
def execVfsubX (x : IsaX) (s : State) : Host.Outcome State Fault Refusal := isaRun .vfsubX isaVfsubX x s
/-- VFMUL_X (R208). -/
def execVfmulX (x : IsaX) (s : State) : Host.Outcome State Fault Refusal := isaRun .vfmulX isaVfmulX x s
/-- VFCMUL_X (R208). -/
def execVfcmulX (x : IsaX) (s : State) : Host.Outcome State Fault Refusal := isaRun .vfcmulX isaVfcmulX x s
/-- VFBFLY_X (R208). -/
def execVfbflyX (x : IsaX) (s : State) : Host.Outcome State Fault Refusal := isaRun .vfbflyX isaVfbflyX x s
/-- VFCVT_X (R208). -/
def execVfcvtX (x : IsaX) (s : State) : Host.Outcome State Fault Refusal := isaRun .vfcvtX isaVfcvtX x s
/-- VFRND_X (R208). -/
def execVfrndX (x : IsaX) (s : State) : Host.Outcome State Fault Refusal := isaRun .vfrndX isaVfrndX x s
/-- VLD (R209). -/
def execVld (x : IsaX) (s : State) : Host.Outcome State Fault Refusal := isaRun .vld isaVld x s
/-- VST (R209). -/
def execVst (x : IsaX) (s : State) : Host.Outcome State Fault Refusal := isaRun .vst isaVst x s
/-- VMOV (R210). -/
def execVmov (x : IsaX) (s : State) : Host.Outcome State Fault Refusal := isaRun .vmov isaVmov x s
/-- VZERO (R210). -/
def execVzero (x : IsaX) (s : State) : Host.Outcome State Fault Refusal := isaRun .vzero isaVzero x s
/-- SGET (R210). -/
def execSget (x : IsaX) (s : State) : Host.Outcome State Fault Refusal := isaRun .sget isaSget x s
/-- SPUT (R210). -/
def execSput (x : IsaX) (s : State) : Host.Outcome State Fault Refusal := isaRun .sput isaSput x s
/-- VLI (R210). -/
def execVli (x : IsaX) (s : State) : Host.Outcome State Fault Refusal := isaRun .vli isaVli x s
/-- VKECCAK_F (R211). -/
def execVkeccakF (x : IsaX) (s : State) : Host.Outcome State Fault Refusal := isaRun .vkeccakF isaVkeccakF x s
/-- VSHA_CS (R212). -/
def execVshaCs (x : IsaX) (s : State) : Host.Outcome State Fault Refusal := isaRun .vshaCs isaVshaCs x s
/-- VSHA_CL (R212). -/
def execVshaCl (x : IsaX) (s : State) : Host.Outcome State Fault Refusal := isaRun .vshaCl isaVshaCl x s
/-- CBLK_E (R213). -/
def execCblkE (x : IsaX) (s : State) : Host.Outcome State Fault Refusal := isaRun .cblkE isaCblkE x s
/-- CBLK_D (R213). -/
def execCblkD (x : IsaX) (s : State) : Host.Outcome State Fault Refusal := isaRun .cblkD isaCblkD x s
/-- CGH_INIT (R213). -/
def execCghInit (x : IsaX) (s : State) : Host.Outcome State Fault Refusal := isaRun .cghInit isaCghInit x s
/-- CGHASH (R213). -/
def execCghash (x : IsaX) (s : State) : Host.Outcome State Fault Refusal := isaRun .cghash isaCghash x s
/-- KLD_A (R214). -/
def execKldA (x : IsaX) (s : State) : Host.Outcome State Fault Refusal := isaRun .kldA isaKldA x s
/-- KLD_B (R214). -/
def execKldB (x : IsaX) (s : State) : Host.Outcome State Fault Refusal := isaRun .kldB isaKldB x s
/-- KLD_CA (R214). -/
def execKldCa (x : IsaX) (s : State) : Host.Outcome State Fault Refusal := isaRun .kldCa isaKldCa x s
/-- KLD_CB (R214). -/
def execKldCb (x : IsaX) (s : State) : Host.Outcome State Fault Refusal := isaRun .kldCb isaKldCb x s
/-- KPUT (R214). -/
def execKput (x : IsaX) (s : State) : Host.Outcome State Fault Refusal := isaRun .kput isaKput x s
/-- VIN (R215). -/
def execVin (x : IsaX) (s : State) : Host.Outcome State Fault Refusal := isaRun .vin isaVin x s
/-- VAUX (R215). -/
def execVaux (x : IsaX) (s : State) : Host.Outcome State Fault Refusal := isaRun .vaux isaVaux x s
/-- VOUT (R215). -/
def execVout (x : IsaX) (s : State) : Host.Outcome State Fault Refusal := isaRun .vout isaVout x s
/-- VCONV_AB (R216). -/
def execVconvAb (x : IsaX) (s : State) : Host.Outcome State Fault Refusal := isaRun .vconvAb isaVconvAb x s
/-- VCONV_BA (R216). -/
def execVconvBa (x : IsaX) (s : State) : Host.Outcome State Fault Refusal := isaRun .vconvBa isaVconvBa x s
/-- SCONV_AB (R216). -/
def execSconvAb (x : IsaX) (s : State) : Host.Outcome State Fault Refusal := isaRun .sconvAb isaSconvAb x s
/-- SCONV_BA (R216). -/
def execSconvBa (x : IsaX) (s : State) : Host.Outcome State Fault Refusal := isaRun .sconvBa isaSconvBa x s
/-- VREMASK (R216). -/
def execVremask (x : IsaX) (s : State) : Host.Outcome State Fault Refusal := isaRun .vremask isaVremask x s
/-- VTAINT (R216). -/
def execVtaint (x : IsaX) (s : State) : Host.Outcome State Fault Refusal := isaRun .vtaint isaVtaint x s
/-- STAINT (R216). -/
def execStaint (x : IsaX) (s : State) : Host.Outcome State Fault Refusal := isaRun .staint isaStaint x s
/-- VRAND (R216). -/
def execVrand (x : IsaX) (s : State) : Host.Outcome State Fault Refusal := isaRun .vrand isaVrand x s
/-- VDECL (R163). -/
def execVdecl (x : IsaX) (s : State) : Host.Outcome State Fault Refusal := isaRun .vdecl isaVdecl x s
/-- SDECL (R163). -/
def execSdecl (x : IsaX) (s : State) : Host.Outcome State Fault Refusal := isaRun .sdecl isaSdecl x s
/-- FCMP (R218). -/
def execFcmp (x : IsaX) (s : State) : Host.Outcome State Fault Refusal := isaRun .fcmp isaFcmp x s

end Sys2Proof.Machine
end

