-- ==== Sys2Proof/Machine/OpcodeRows.lean ====
section
/-! DEFINITION. The opcode rows: a descriptor with that opcode, fetched from a queue, and the host data that the part reads
for it, go through the acceptance of R18 (Accept.lean, Admit.lean) to the meaning of the opcode (03_gatehouse.md R88). -/

namespace Sys2Proof.Machine

/-- ADMIN_IDENTIFY (R88): Returns the 4 KiB identity page. -/
def execAdminIdentify (c : Cmd) (s : State) : Host.Outcome State Fault Refusal := fetched 0x0001 c s

/-- ADMIN_ATTEST (R62): Returns a report over the MEAS registers and the state, signed with ML-DSA-87 and ECDSA P-384. -/
def execAdminAttest (c : Cmd) (s : State) : Host.Outcome State Fault Refusal := fetched 0x0002 c s

/-- ADMIN_NOP (R84): Does nothing; with FENCE set it acts as a pure barrier. -/
def execAdminNop (c : Cmd) (s : State) : Host.Outcome State Fault Refusal := fetched 0x0003 c s

/-- ADMIN_APPLET_CALL (R379): Queues a call with function number FN to an applet partition and starts it at the image's ENTRY address. -/
def execAdminAppletCall (c : Cmd) (s : State) : Host.Outcome State Fault Refusal := fetched 0x0004 c s

/-- ADMIN_QUARANTINE (R471): Takes a replaceable part out of service, orderly or FORCED. -/
def execAdminQuarantine (c : Cmd) (s : State) : Host.Outcome State Fault Refusal := fetched 0x0005 c s

/-- ADMIN_SERVICE_RETURN (R475): Tests a quarantined part and returns it to service on a pass, unless TEST_ONLY is set. -/
def execAdminServiceReturn (c : Cmd) (s : State) : Host.Outcome State Fault Refusal := fetched 0x0006 c s

/-- ADMIN_SHUTDOWN (R451): Stops fetching from every queue except the PF queues and drains every function for an orderly shutdown. -/
def execAdminShutdown (c : Cmd) (s : State) : Host.Outcome State Fault Refusal := fetched 0x0007 c s

/-- ADMIN_FW_UPDATE (R442): Writes a firmware image to the inactive slot. -/
def execAdminFwUpdate (c : Cmd) (s : State) : Host.Outcome State Fault Refusal := fetched 0x0010 c s

/-- ADMIN_FW_ACTIVATE (R442): Rewrites the directory so that it names the other firmware slot for the next start. -/
def execAdminFwActivate (c : Cmd) (s : State) : Host.Outcome State Fault Refusal := fetched 0x0011 c s

/-- ADMIN_RESET (R450): Parameter set 0x0000: commits and requests a full reset 1,048 ticks later. -/
def execAdminReset (c : Cmd) (s : State) : Host.Outcome State Fault Refusal := fetchedSet 0x0012 0x0000 c s

/-- ADMIN_RESET_TIME (R450): Parameter set 0x0001: requests a full reset that also restarts the sundial time core. -/
def execAdminResetTime (c : Cmd) (s : State) : Host.Outcome State Fault Refusal := fetchedSet 0x0012 0x0001 c s

/-- ADMIN_RESET_COLD (R508): Parameter set 0x0002: requests a cold start without loss of main power, which empties the key store. -/
def execAdminResetCold (c : Cmd) (s : State) : Host.Outcome State Fault Refusal := fetchedSet 0x0012 0x0002 c s

/-- ADMIN_PROGRAM_LOAD (R179): Checks a signed program package and, at commit, places it in the program store and extends MEAS[3]. -/
def execAdminProgramLoad (c : Cmd) (s : State) : Host.Outcome State Fault Refusal := fetched 0x0013 c s

/-- ADMIN_PROGRAM_REMOVE (R180): Removes a loaded program; its store space is freed after the last command accepted before the commit has loaded it. -/
def execAdminProgramRemove (c : Cmd) (s : State) : Host.Outcome State Fault Refusal := fetched 0x0014 c s

/-- ADMIN_APPLET_LOAD (R378): Parameter set 0x0001: checks an applet image and loads it into the lowest free partition. -/
def execAdminAppletLoad (c : Cmd) (s : State) : Host.Outcome State Fault Refusal := fetchedSet 0x0015 0x0001 c s

/-- ADMIN_APPLET_REMOVE (R378): Parameter set 0x0002: removes an applet partition, ends its calls and zeroes its granules. -/
def execAdminAppletRemove (c : Cmd) (s : State) : Host.Outcome State Fault Refusal := fetchedSet 0x0015 0x0002 c s

/-- ADMIN_CUSTODIAN_ENROL (R101): Enrols a custodian in CONSOLE mode and installs a channel authority key on the custodian's card. -/
def execAdminCustodianEnrol (c : Cmd) (s : State) : Host.Outcome State Fault Refusal := fetched 0x0016 c s

/-- ADMIN_CUSTODIAN_REVOKE (R101): Removes a custodian record and erases the authority key of that custodian's channel. -/
def execAdminCustodianRevoke (c : Cmd) (s : State) : Host.Outcome State Fault Refusal := fetched 0x0017 c s

/-- ADMIN_POLICY_SET (R105): Parameter set 0x0001: replaces the authority policy as a whole. -/
def execAdminPolicySet (c : Cmd) (s : State) : Host.Outcome State Fault Refusal := fetchedSet 0x0018 0x0001 c s

/-- ADMIN_PUBLISHER_SET (R181): ADMIN_POLICY_SET with parameter set 0x0002: registers or withdraws a customer publisher. -/
def execAdminPublisherSet (c : Cmd) (s : State) : Host.Outcome State Fault Refusal := fetchedSet 0x0018 0x0002 c s

/-- KEY_LOAD (R142): Decrypts and checks a blob in a cipher job and stores the key object. -/
def execKeyLoad (c : Cmd) (s : State) : Host.Outcome State Fault Refusal := fetched 0x1001 c s

/-- KEY_SAVE (R141): Returns a key as a blob under the tenant's BLOB key. -/
def execKeySave (c : Cmd) (s : State) : Host.Outcome State Fault Refusal := fetched 0x1002 c s

/-- KEY_SAVE_COLD (R449): KEY_SAVE with SELECT bit 17 set: writes the blob as a record in the COLD region of the flash. -/
def execKeySaveCold (c : Cmd) (s : State) : Host.Outcome State Fault Refusal :=
  fetched 0x1002 { c with desc := { c.desc with select := c.desc.select ||| 0x20000 } } s

/-- KEY_ATTR_GET (R132): Returns the attribute block of a key, or its public key under parameter set 0x0002. -/
def execKeyAttrGet (c : Cmd) (s : State) : Host.Outcome State Fault Refusal := fetched 0x1003 c s

/-- KEY_DERIVE (R130): Derives a new key object from a base key. -/
def execKeyDerive (c : Cmd) (s : State) : Host.Outcome State Fault Refusal := fetched 0x1004 c s

/-- KEY_METER_GET (R138): Returns the 24-byte state of a usage meter. -/
def execKeyMeterGet (c : Cmd) (s : State) : Host.Outcome State Fault Refusal := fetched 0x1005 c s

/-- KEY_CHECK_VALUE (R251): Computes the key check value of an AES or TDEA secret key. -/
def execKeyCheckValue (c : Cmd) (s : State) : Host.Outcome State Fault Refusal := fetched 0x1006 c s

/-- KEY_GENERATE (R129): Generates a key or key pair and creates the objects. -/
def execKeyGenerate (c : Cmd) (s : State) : Host.Outcome State Fault Refusal := fetched 0x1010 c s

/-- KEY_IMPORT (R143): Unwraps, checks and stores an imported key. -/
def execKeyImport (c : Cmd) (s : State) : Host.Outcome State Fault Refusal := fetched 0x1011 c s

/-- KEY_EXPORT (R143): Wraps a key under a WRAP key in the format that SELECT chooses. -/
def execKeyExport (c : Cmd) (s : State) : Host.Outcome State Fault Refusal := fetched 0x1012 c s

/-- KEY_DELETE (R121): Moves a key object to DRAINING. -/
def execKeyDelete (c : Cmd) (s : State) : Host.Outcome State Fault Refusal := fetched 0x1013 c s

/-- KEY_ATTR_SET (R125): Replaces the changeable fields of a key's attribute block. -/
def execKeyAttrSet (c : Cmd) (s : State) : Host.Outcome State Fault Refusal := fetched 0x1014 c s

/-- KEY_COMPONENT (R114): Creates a key, or sets the PF channel key, from components that custodians enter at the console. -/
def execKeyComponent (c : Cmd) (s : State) : Host.Outcome State Fault Refusal := fetched 0x1015 c s

/-- KEY_METER_SET (R137): Sets a meter word and, where a loaded key holds the meter, that key's METER_LIMIT. -/
def execKeyMeterSet (c : Cmd) (s : State) : Host.Outcome State Fault Refusal := fetched 0x1016 c s

/-- RUN_PROGRAM (R171): Plans and runs a loaded program as an engine job. -/
def execRunProgram (c : Cmd) (s : State) : Host.Outcome State Fault Refusal := fetched 0x2001 c s

/-- RUN_QUERY (R88): Returns a loaded program's manifest. -/
def execRunQuery (c : Cmd) (s : State) : Host.Outcome State Fault Refusal := fetched 0x2002 c s

/-- SYM_ENCRYPT (R253): One-shot AES or TDEA encryption with a nonce or IV that the device builds. -/
def execSymEncrypt (c : Cmd) (s : State) : Host.Outcome State Fault Refusal := fetched 0x3001 c s

/-- SYM_DECRYPT (R253): One-shot decryption. -/
def execSymDecrypt (c : Cmd) (s : State) : Host.Outcome State Fault Refusal := fetched 0x3002 c s

/-- SYM_STREAM (R256): Processes one segment of a cipher stream. -/
def execSymStream (c : Cmd) (s : State) : Host.Outcome State Fault Refusal := fetched 0x3003 c s

/-- SYM_MAC_GEN (R253): Computes a block-cipher MAC. -/
def execSymMacGen (c : Cmd) (s : State) : Host.Outcome State Fault Refusal := fetched 0x3004 c s

/-- SYM_MAC_VERIFY (R264): Verifies a block-cipher MAC and sets the compare pair. -/
def execSymMacVerify (c : Cmd) (s : State) : Host.Outcome State Fault Refusal := fetched 0x3005 c s

/-- SYM_PIN_TRANSLATE (R268): Translates a PIN block from one format and key to another. -/
def execSymPinTranslate (c : Cmd) (s : State) : Host.Outcome State Fault Refusal := fetched 0x3006 c s

/-- SYM_PIN_VERIFY (R269): Verifies a PIN block against a reference block. -/
def execSymPinVerify (c : Cmd) (s : State) : Host.Outcome State Fault Refusal := fetched 0x3007 c s

/-- SYM_EMV_VERIFY (R271): Verifies an EMV ARQC and optionally produces an ARPC. -/
def execSymEmvVerify (c : Cmd) (s : State) : Host.Outcome State Fault Refusal := fetched 0x3008 c s

/-- SYM_CVV_GEN (R272): Generates a card verification value. -/
def execSymCvvGen (c : Cmd) (s : State) : Host.Outcome State Fault Refusal := fetched 0x3009 c s

/-- SYM_CVV_VERIFY (R272): Verifies a card verification value. -/
def execSymCvvVerify (c : Cmd) (s : State) : Host.Outcome State Fault Refusal := fetched 0x300A c s

/-- DIGEST_ONESHOT (R262): Hashes a message in one command. -/
def execDigestOneshot (c : Cmd) (s : State) : Host.Outcome State Fault Refusal := fetched 0x4001 c s

/-- DIGEST_UPDATE (R256): Processes one segment of a digest stream. -/
def execDigestUpdate (c : Cmd) (s : State) : Host.Outcome State Fault Refusal := fetched 0x4002 c s

/-- DIGEST_FINAL (R256): Processes the last segment of a digest stream and returns the digest. -/
def execDigestFinal (c : Cmd) (s : State) : Host.Outcome State Fault Refusal := fetched 0x4003 c s

/-- DIGEST_MAC (R263): Computes HMAC or KMAC under a key. -/
def execDigestMac (c : Cmd) (s : State) : Host.Outcome State Fault Refusal := fetched 0x4004 c s

/-- DIGEST_MAC_VERIFY (R264): Verifies an HMAC or KMAC and sets the compare pair. -/
def execDigestMacVerify (c : Cmd) (s : State) : Host.Outcome State Fault Refusal := fetched 0x4005 c s

/-- DIGEST_MEAS_READ (R266): Returns one or all measurement registers with their extend counts. -/
def execDigestMeasRead (c : Cmd) (s : State) : Host.Outcome State Fault Refusal := fetched 0x4006 c s

/-- DIGEST_MEAS_EXTEND (R266): Extends one host-extendable measurement register, 16-31. -/
def execDigestMeasExtend (c : Cmd) (s : State) : Host.Outcome State Fault Refusal := fetched 0x4007 c s

/-- PK_SIGN (R227): Signs a message or digest with a library program or a big-number engine. -/
def execPkSign (c : Cmd) (s : State) : Host.Outcome State Fault Refusal := fetched 0x5001 c s

/-- PK_VERIFY (R233): Verifies a signature and sets the compare pair. -/
def execPkVerify (c : Cmd) (s : State) : Host.Outcome State Fault Refusal := fetched 0x5002 c s

/-- PK_ENCAPS (R229): Encapsulates to a KEM public key. -/
def execPkEncaps (c : Cmd) (s : State) : Host.Outcome State Fault Refusal := fetched 0x5003 c s

/-- PK_DECAPS (R234): Decapsulates a ciphertext, with implicit rejection. -/
def execPkDecaps (c : Cmd) (s : State) : Host.Outcome State Fault Refusal := fetched 0x5004 c s

/-- PK_DERIVE (R291): Performs key agreement as a dual job on two big-number engines. -/
def execPkDerive (c : Cmd) (s : State) : Host.Outcome State Fault Refusal := fetched 0x5005 c s

/-- PK_ENCRYPT (R281): RSA-OAEP encryption. -/
def execPkEncrypt (c : Cmd) (s : State) : Host.Outcome State Fault Refusal := fetched 0x5006 c s

/-- PK_DECRYPT (R289): RSA-OAEP decryption. -/
def execPkDecrypt (c : Cmd) (s : State) : Host.Outcome State Fault Refusal := fetched 0x5007 c s

/-- RNG_READ (R316): Returns random bytes from the PORT instance. -/
def execRngRead (c : Cmd) (s : State) : Host.Outcome State Fault Refusal := fetched 0x6001 c s

/-- RNG_RAW_READ (R319): Returns raw or conditioned samples in raw-sample mode. -/
def execRngRawRead (c : Cmd) (s : State) : Host.Outcome State Fault Refusal := fetched 0x6002 c s

/-- RNG_RESTART (R317): Restarts a stopped kiln through new start-up tests. -/
def execRngRestart (c : Cmd) (s : State) : Host.Outcome State Fault Refusal := fetched 0x6010 c s

/-- RNG_RAW_ENABLE (R318): Enters or leaves raw-sample mode. -/
def execRngRawEnable (c : Cmd) (s : State) : Host.Outcome State Fault Refusal := fetched 0x6011 c s

/-- TIME_STAMP (R39): Returns a 16-byte timestamp of the acceptance instant. -/
def execTimeStamp (c : Cmd) (s : State) : Host.Outcome State Fault Refusal := fetched 0x7001 c s

/-- TIME_STATUS (R88): Returns the sundial state and a schedule summary. -/
def execTimeStatus (c : Cmd) (s : State) : Host.Outcome State Fault Refusal := fetched 0x7002 c s

/-- TIME_POLICY (R38): Sets the holdover limit. -/
def execTimePolicy (c : Cmd) (s : State) : Host.Outcome State Fault Refusal := fetched 0x7010 c s

/-- TIME_SCHEDULE_ADD (R48): Adds 1 to 16 schedule entries, all or none. -/
def execTimeScheduleAdd (c : Cmd) (s : State) : Host.Outcome State Fault Refusal := fetched 0x7011 c s

/-- TIME_SCHEDULE_CANCEL (R51): Cancels 1 to 16 schedule entries, all or none. -/
def execTimeScheduleCancel (c : Cmd) (s : State) : Host.Outcome State Fault Refusal := fetched 0x7012 c s

/-- PARK_STATUS (R336): Returns the 1,040-byte park status. -/
def execParkStatus (c : Cmd) (s : State) : Host.Outcome State Fault Refusal := fetched 0x8001 c s

/-- PARK_JOIN (R328): Stores PARK_ID and the roster and begins sending HELLO. -/
def execParkJoin (c : Cmd) (s : State) : Host.Outcome State Fault Refusal := fetched 0x8010 c s

/-- PARK_LEAVE (R330): Broadcasts LEAVE, frees the park-wide objects and enters ALONE. -/
def execParkLeave (c : Cmd) (s : State) : Host.Outcome State Fault Refusal := fetched 0x8011 c s

/-- PARK_EVICT (R342): Evicts a unit through a park transaction. -/
def execParkEvict (c : Cmd) (s : State) : Host.Outcome State Fault Refusal := fetched 0x8012 c s

/-- PARK_RESYNC (R343): Resynchronises a DETACHED unit from a member and readmits it. -/
def execParkResync (c : Cmd) (s : State) : Host.Outcome State Fault Refusal := fetched 0x8013 c s

/-- PARK_KEY_AGREE (R331): On the head, draws and delivers a new park key epoch. -/
def execParkKeyAgree (c : Cmd) (s : State) : Host.Outcome State Fault Refusal := fetched 0x8014 c s

/-- TENANT_VF_QUIESCE (R359): Stops fetching for a VF and drains it. -/
def execTenantVfQuiesce (c : Cmd) (s : State) : Host.Outcome State Fault Refusal := fetched 0x9001 c s

/-- TENANT_VF_RESUME (R360): Restarts fetching for a quiesced VF. -/
def execTenantVfResume (c : Cmd) (s : State) : Host.Outcome State Fault Refusal := fetched 0x9002 c s

/-- TENANT_PERF_GRANT (R370): Grants or withdraws PERF_READ for a VF. -/
def execTenantPerfGrant (c : Cmd) (s : State) : Host.Outcome State Fault Refusal := fetched 0x9003 c s

/-- TENANT_CREATE (R352): Creates a tenant with a quota record. -/
def execTenantCreate (c : Cmd) (s : State) : Host.Outcome State Fault Refusal := fetched 0x9010 c s

/-- TENANT_DELETE (R354): Deletes a tenant that holds nothing. -/
def execTenantDelete (c : Cmd) (s : State) : Host.Outcome State Fault Refusal := fetched 0x9011 c s

/-- TENANT_BIND_VF (R356): Binds a VF to a tenant and issues its channel key. -/
def execTenantBindVf (c : Cmd) (s : State) : Host.Outcome State Fault Refusal := fetched 0x9012 c s

/-- TENANT_UNBIND_VF (R357): Unbinds a VF and erases its channel key. -/
def execTenantUnbindVf (c : Cmd) (s : State) : Host.Outcome State Fault Refusal := fetched 0x9013 c s

/-- TENANT_QUOTA_SET (R352): Sets a tenant's quotas. -/
def execTenantQuotaSet (c : Cmd) (s : State) : Host.Outcome State Fault Refusal := fetched 0x9014 c s

/-- TENANT_VF_SAVE (R366): Writes a VF image and freezes the VF. -/
def execTenantVfSave (c : Cmd) (s : State) : Host.Outcome State Fault Refusal := fetched 0x9015 c s

/-- TENANT_VF_RESTORE (R367): Restores a VF image onto an unbound VF. -/
def execTenantVfRestore (c : Cmd) (s : State) : Host.Outcome State Fault Refusal := fetched 0x9016 c s

/-- LIFE_STATUS (R439): Returns the life-cycle and debug state. -/
def execLifeStatus (c : Cmd) (s : State) : Host.Outcome State Fault Refusal := fetched 0xA001 c s

/-- LIFE_TRANSITION (R430): Runs a one-way life-cycle transition through its progress marks. -/
def execLifeTransition (c : Cmd) (s : State) : Host.Outcome State Fault Refusal := fetched 0xA010 c s

/-- LIFE_DEBUG_OPEN (R433): Opens debug under a vendor certificate. -/
def execLifeDebugOpen (c : Cmd) (s : State) : Host.Outcome State Fault Refusal := fetched 0xA011 c s

/-- LIFE_DEBUG_CLOSE (R436): Closes debug. -/
def execLifeDebugClose (c : Cmd) (s : State) : Host.Outcome State Fault Refusal := fetched 0xA012 c s

/-- LIFE_TAMPER_SET (R414): Commits a tamper configuration. -/
def execLifeTamperSet (c : Cmd) (s : State) : Host.Outcome State Fault Refusal := fetched 0xA013 c s

/-- LIFE_RECOMMISSION (R417): Recommissions a QUENCHED part after two cards are confirmed at the console. -/
def execLifeRecommission (c : Cmd) (s : State) : Host.Outcome State Fault Refusal := fetched 0xA014 c s

/-- EVENT_READ (R467): Returns event records from a SEQ onward. -/
def execEventRead (c : Cmd) (s : State) : Host.Outcome State Fault Refusal := fetched 0xB001 c s

/-- EVENT_CLEAR (R468): Clears the recorder and writes a CLEARED record. -/
def execEventClear (c : Cmd) (s : State) : Host.Outcome State Fault Refusal := fetched 0xB010 c s

/-- PERF_READ (R460): Returns a consistent snapshot of counters or of a tenant view. -/
def execPerfRead (c : Cmd) (s : State) : Host.Outcome State Fault Refusal := fetched 0xC001 c s

/-- PERF_WINDOW_SET (R459): Sets the windows of the bandwidth meters. -/
def execPerfWindowSet (c : Cmd) (s : State) : Host.Outcome State Fault Refusal := fetched 0xC002 c s

/-- UNKNOWN_OPCODE: a descriptor whose opcode R88 does not list fails check 1 with OPCODE_UNKNOWN. A listed opcode has its
own row. -/
def execUnknownOpcode (c : Cmd) (s : State) : Host.Outcome State Fault Refusal :=
  if (opRow (c.desc.opcode % 65536)).isSome then answer s s else fetched (c.desc.opcode % 65536) c s

end Sys2Proof.Machine
end

