-- ==== Sys2Proof/Machine/Registers.lean ====
section
/-! DEFINITION. Register accesses: who may write what (20_register_map.md R505, R506 and the access columns of the
chapters), reads and their latches (R59, R507), and debug accesses at the protection units (14_lodge_protection.md R394,
16_life_cycle_debug.md R431). -/

namespace Sys2Proof.Machine

/-! Interrupt pairs (R7, R506) -/

/-- Write ones to clear. -/
def w1c (v ones : Nat) : Nat := v - (v &&& ones)

/-- The bits that exist of an interrupt pair. -/
def intMask (n v : Nat) : Nat := v % 2 ^ n

/-- An enable register is written: a bit newly enabled whose status is set raises the vector (R69). -/
def enabled (s : State) (status old new vector : Nat) : State :=
  if status &&& new = status &&& new &&& old then s else sendMsix s 0 vector

/-- A write of the status register of the pair at a BAR0 offset. -/
def clearStatus (s : State) (a v : Nat) : State := match a with
  | 0x0044 => { s with rep := { s.rep with intStatus := w1c s.rep.intStatus v } }
  | 0x1088 => { s with sdl := { s.sdl with intStatus := w1c s.sdl.intStatus v } }
  | 0x2218 =>
      let g := { s.gth with intStatus := w1c s.gth.intStatus v }
      { s with gth := if v.testBit 0 then { g with qerrFn := 0, qerrQueue := 0, qerrCause := 0 } else g }
  | 0x5008 => { s with kst := { s.kst with intStatus := w1c s.kst.intStatus v } }
  | 0x6004 => { s with rng := { s.rng with intStatus := w1c s.rng.intStatus v } }
  | 0x7004 => { s with tmp := { s.tmp with intStatus := w1c s.tmp.intStatus v } }
  | 0x8004 => { s with lcs := { s.lcs with intStatus := w1c s.lcs.intStatus v } }
  | 0x9008 => { s with prk := { s.prk with intStatus := w1c s.prk.intStatus v } }
  | 0xA008 => { s with ldg := { s.ldg with intStatus := w1c s.ldg.intStatus v } }
  | 0xB004 => { s with evt := { s.evt with intStatus := w1c s.evt.intStatus v } }
  | 0x10F04 => { s with pmc := { s.pmc with intStatus := w1c s.pmc.intStatus v } }
  | _ =>
      if 0x20000 ≤ a ∧ a < 0x30000 ∧ a % 0x1000 = 0x820 then
        let p := (a - 0x20000) / 0x1000
        setPav s p { getPav s p with intStatus := w1c (getPav s p).intStatus v }
      else s

/-- A write of the enable register of a pair. -/
def writeEnable (s : State) (a v : Nat) : State := match a with
  | 0x0048 => enabled { s with rep := { s.rep with intEnable := intMask 6 v } } s.rep.intStatus s.rep.intEnable (intMask 6 v) 58
  | 0x108C => enabled { s with sdl := { s.sdl with intEnable := intMask 7 v } } s.sdl.intStatus s.sdl.intEnable (intMask 7 v) 49
  | 0x221C => enabled { s with gth := { s.gth with intEnable := intMask 5 v } } s.gth.intStatus s.gth.intEnable (intMask 5 v) 48
  | 0x500C => enabled { s with kst := { s.kst with intEnable := intMask 5 v } } s.kst.intStatus s.kst.intEnable (intMask 5 v) 50
  | 0x6008 => enabled { s with rng := { s.rng with intEnable := intMask 4 v } } s.rng.intStatus s.rng.intEnable (intMask 4 v) 51
  | 0x7008 => enabled { s with tmp := { s.tmp with intEnable := intMask 6 v } } s.tmp.intStatus s.tmp.intEnable (intMask 6 v) 52
  | 0x8008 => enabled { s with lcs := { s.lcs with intEnable := intMask 6 v } } s.lcs.intStatus s.lcs.intEnable (intMask 6 v) 53
  | 0x900C => enabled { s with prk := { s.prk with intEnable := intMask 6 v } } s.prk.intStatus s.prk.intEnable (intMask 6 v) 54
  | 0xA00C => enabled { s with ldg := { s.ldg with intEnable := intMask 6 v } } s.ldg.intStatus s.ldg.intEnable (intMask 6 v) 55
  | 0xB008 => enabled { s with evt := { s.evt with intEnable := intMask 4 v } } s.evt.intStatus s.evt.intEnable (intMask 4 v) 56
  | 0x10F08 => enabled { s with pmc := { s.pmc with intEnable := intMask 2 v } } s.pmc.intStatus s.pmc.intEnable (intMask 2 v) 57
  | _ =>
      if 0x20000 ≤ a ∧ a < 0x30000 ∧ a % 0x1000 = 0x824 then
        let p := (a - 0x20000) / 0x1000
        let x := getPav s p
        enabled (setPav s p { x with intEnable := intMask 4 v }) x.intStatus x.intEnable (intMask 4 v) 58
      else s

/-- The BAR0 offsets of interrupt status registers. -/
def isIntStatus (a : Nat) : Bool :=
  [0x0044, 0x1088, 0x2218, 0x5008, 0x6004, 0x7004, 0x8004, 0x9008, 0xA008, 0xB004, 0x10F04].contains a
    || (decide (0x20000 ≤ a ∧ a < 0x30000) && a % 0x1000 == 0x820)

/-! Queue pairs (R66, R67) -/

/-- Half of a 64-bit address. -/
def setLo (v w : Nat) : Nat := v / 2 ^ 32 * 2 ^ 32 + w
def setHi (v w : Nat) : Nat := v % 2 ^ 32 + 2 ^ 32 * w

/-- A base register: only while ENABLE is 0. -/
def baseWrite (s : State) (fn q r v : Nat) : State :=
  let k := qpIx fn q
  let p := getQp s k
  if p.enable then s
  else match r with
  | 0x00 => setQp s k { p with sqBase := setLo p.sqBase v }
  | 0x04 => setQp s k { p with sqBase := setHi p.sqBase v }
  | 0x08 => setQp s k { p with cqBase := setLo p.cqBase v }
  | 0x0C => setQp s k { p with cqBase := setHi p.cqBase v }
  | _ => s

/-- A write within the five registers of a queue pair. -/
def pairWrite (s : State) (fn q r v : Nat) : State :=
  if !queueIs fn q then s else if r = 0x10 then qpCfgWrite fn q v s else baseWrite s fn q r v

/-- A doorbell. -/
def bellWrite (s : State) (fn off v : Nat) : State :=
  if off % 8 = 0 then sqTailWrite fn (off / 8) (v % 65536) s
  else if off % 8 = 4 then cqHeadWrite fn (off / 8) (v % 65536) s
  else s

/-! The fields that the physical function writes -/

def pfWrite (s : State) (a v : Nat) : State :=
  if isIntStatus a then clearStatus s a v
  else if 0x2000 ≤ a ∧ a < 0x2200 then pairWrite s 0 ((a - 0x2000) / 0x20) ((a - 0x2000) % 0x20) v
  else if 0x3000 ≤ a ∧ a < 0x3080 then bellWrite s 0 (a - 0x3000) v
  else match a with
  | 0x105C => { s with sdl := { s.sdl with schedSel := v % 256 } }
  | 0x2204 => { s with gth := { s.gth with fetchEn := v.testBit 0 } }
  | 0x2208 => { s with gth := { s.gth with qerr := w1c s.gth.qerr v } }
  | 0x5010 => { s with kst := { s.kst with lowMark := v % 2 ^ 18 } }
  | 0xAF00 => if 40 ≤ v % 128 ∧ v % 128 ≤ 110 then { s with pwr := { s.pwr with capNext := v % 128 } }
      else { s with pwr := { s.pwr with capErr := true } }
  | _ => writeEnable s a v

/-! The fields that the keeper world writes -/

/-- A FORCE_SCRUB bit of an engine or of a big-number engine. -/
def scrubBit (s : State) (a v : Nat) : State :=
  if 0x20000 ≤ a ∧ a < 0x30000 then
    let off := (a - 0x20000) % 0x1000
    if off < 0x110 ∧ off % 0x10 = 0 ∧ v.testBit 1 then forceEngine (17 * ((a - 0x20000) / 0x1000) + off / 0x10) s else s
  else if 0x30000 ≤ a ∧ a < 0x40000 ∧ a % 0x800 = 0 ∧ v.testBit 4 then forceBne ((a - 0x30000) / 0x800) s
  else s

/-- PWR_HOLD: a pending gating request whose HOLD bit is cleared proceeds (R395). -/
def holdWrite (s : State) (v : Nat) : State :=
  let s1 := { s with pwr := { s.pwr with hold := v } }
  let free := (s1.pwr.pendingGate.filter (fun p => !v.testBit p.1)).map (fun p => p.1)
  free.foldl (fun s d => gateBit { s with pwr := { s.pwr with pendingGate := kdel s.pwr.pendingGate d } } d) s1

def keeperWrite (s : State) (a v : Nat) : State := match a with
  | 0x1004 =>
      { s with sdl := { s.sdl with todTxEn := v.testBit 0, refEn := v.testBit 1, ppsPol := v.testBit 2 } }
  | 0x5004 =>
      { s with kst := { s.kst with scrubEn := v.testBit 0, scrubPeriod := v / 2 % 4, scrubBase := s.tick, scrubDone := 0 } }
  | 0xA004 => if v.testBit 0 then { s with ldg := { s.ldg with assignLock := true } } else s
  | 0xAF00 => if 40 ≤ v % 128 ∧ v % 128 ≤ 110 then { s with pwr := { s.pwr with capNext := v % 128 } }
      else { s with pwr := { s.pwr with capErr := true } }
  | 0xAF04 => if v.testBit 15 then { s with pwr := { s.pwr with capErr := false } } else s
  | 0xAF08 => holdWrite s (v % 2 ^ 20)
  | 0xAF14 => { s with pwr := { s.pwr with holdTimeout := v % 65536 } }
  | _ =>
      -- the pavilions' interrupt pairs are the keeper world's and the PF's (R184)
      if 0x20000 ≤ a ∧ a < 0x30000 ∧ a % 0x1000 = 0x820 then clearStatus s a v
      else if 0x20000 ≤ a ∧ a < 0x30000 ∧ a % 0x1000 = 0x824 then writeEnable s a v
      else scrubBit s a v

/-- The window of a VF: queue registers, doorbells and VF_QERR. -/
def vfWrite (s : State) (n off v : Nat) : State :=
  if off < 0x80 then pairWrite s n (off / 0x20) (off % 0x20) v
  else if 0x1000 ≤ off ∧ off < 0x1020 then bellWrite s n (off - 0x1000) v
  else if off = 0x88 then
    let e := kget (fun _ => (0, 0, 0)) s.gth.vfErr n
    { s with gth := { s.gth with vfErr := kset (fun _ => (0, 0, 0)) s.gth.vfErr n (w1c e.1 (v % 16), e.2.1, e.2.2) } }
  else s

/-- A write of a BAR0 register by a master, by its permission (R505): debug writes what either world writes. -/
def regWrite (s : State) (m : Master) (a v : Nat) : State := match m with
  | .pf => if hostReach s then pfWrite s a v else s
  | .keeper => if live s then keeperWrite s a v else s
  | .debug => if live s then keeperWrite (pfWrite s a v) a v else s

/-- An aligned 32-bit access (R59). -/
def wordAccess (addr size : Nat) : Bool := size == 4 && addr % 4 == 0

/-! Rows -/

/-- INT_STATUS_W1C: ones written to an interrupt status register of BAR0, or to VF_QERR of a VF. -/
def execIntStatusW1c (fn : Fin 1024) (addr : Nat) (ones : BitVec 32) (s : State) : Host.Outcome State Fault Refusal :=
  answer s (if !hostReach s then s
    else if fn.val = 0 then (if isIntStatus addr then clearStatus s addr ones.toNat else s)
    else if addr = 0x88 then vfWrite s fn.val addr ones.toNat else s)

/-- Can a master read registers at all? -/
def readLive (s : State) (m : Master) : Bool := match m with
  | .pf => hostReach s
  | _ => live s

/-- SDL_TIME_READ: a read of SDL_TIME_LO latches SDL_TIME_HI and SDL_SUBTICK (R53). -/
def execSdlTimeRead (m : Master) (s : State) : Host.Outcome State Fault Refusal :=
  answer s (if !readLive s m then s
    else
      let r := regRead s m 0x1008
      emit r.2 (.readData 0x1008 r.1))

/-- LATCH_READ: a read of a register by a master, with what it latches. The host reads BAR0 of the PF, or a VF window, or
its other spaces; a read of another size or alignment returns all ones (R59). -/
def execLatchRead (m : Master) (fn : Fin 1024) (place : HostAddr) (size : Nat) (s : State) :
    Host.Outcome State Fault Refusal :=
  let addr := place.offset
  answer s (if !readLive s m then s
    else if !wordAccess addr size then emit s (.readData addr (2 ^ (8 * size) - 1))
    else if m = .pf ∧ place.space = .config then emit s (.readData addr (pciRead s fn.val addr % 2 ^ 32))
    else if m = .pf ∧ place.space = .msix then emit s (.readData addr (msixRead s fn.val addr % 2 ^ 32))
    else if m = .pf ∧ fn.val ≠ 0 then emit s (.readData addr (readVf s fn.val addr % 2 ^ 32))
    else
      let r := regRead s m addr
      emit r.2 (.readData addr r.1))

/-- REGISTER_WRITE: a write of a register by the host (the PF's BAR0, a VF window, or its other spaces) or by the keeper world;
ignored where it is not permitted, and where it is no aligned 32-bit access. -/
def execRegisterWrite (m : Master) (fn : Fin 1024) (place : HostAddr) (size : Nat) (value : BitVec 32) (s : State) :
    Host.Outcome State Fault Refusal :=
  let addr := place.offset
  answer s (match m with
    | .debug => s
    | _ =>
      if !wordAccess addr size then s
      else if m = .pf ∧ place.space ≠ .regs then
        (if !hostReach s then s else if place.space = .config then pciWrite s fn.val addr value.toNat
          else msixWrite s fn.val addr value.toNat)
      else if m = .pf ∧ fn.val ≠ 0 then (if hostReach s then vfWrite s fn.val addr value.toNat else s)
      else regWrite s m addr value.toNat)

/-! Debug at the protection units (R394, R431) -/

/-- The current certificate names a region: bits [4:0] the unit, bits [11:8] the region (R428). -/
def regionNamed (s : State) (m r : Nat) : Bool :=
  s.dbg.isOpen && s.dbg.rights.testBit 9 && (rightsPermitted s.lcs.state).testBit 9
    && s.dbg.regions.any (fun x => x % 32 == m && x / 256 % 16 == r)

/-- Does region `r` of unit `m` match a debug access? A locked one only where the certificate names it. -/
def debugMatch (s : State) (m r addr : Nat) : Bool :=
  let g := getRegion s m r
  if regionLocked g then
    regionNamed s m r && g.sizeLog2 != 0 && decide (g.base ≤ addr ∧ addr < g.base + 2 ^ g.sizeLog2)
  else regionMatch g 0x3FF addr

/-- R394, in its order. -/
def debugDecide (s : State) (m addr : Nat) (k : Access) : Decision :=
  if 2 ≤ s.lcs.state ∧ (m = 4 ∨ m = 5) then .deny true false
  else match (List.range 16).find? (fun r => debugMatch s m r addr) with
    | none => .deny true false
    | some r =>
        let g := getRegion s m r
        if g.perm.testBit (accessRight k) then .grant else .deny false (regionLocked g)

/-- The BAR0 offset at which the register block behind a target starts, and its length. -/
def targetBlock (m : Nat) : Option (Nat × Nat) := match m with
  | 4 => some (0x5000, 0x1000)
  | 7 => some (0x1000, 0x1000)
  | 8 => some (0x2000, 0x2000)
  | 9 => some (0x4000, 0x1000)
  | 10 => some (0x6000, 0x1000)
  | 11 => some (0x7000, 0x800)
  | 12 => some (0x8000, 0x1000)
  | 13 => some (0x9000, 0x1000)
  | 18 => some (0xB000, 0x1000)
  | 19 => some (0x10000, 0x10000)
  | 20 => some (0x20000, 0x10000)
  | 21 => some (0x30000, 0x10000)
  | 22 => some (0xA000, 0x1000)
  | 23 => some (0xC000, 0x4000)
  | _ => none

/-- The memories of an engine, or big-number engine, are open to debug (R12, R431). -/
def memoryOpen (s : State) (m unit : Nat) : Bool :=
  if m = 20 then (getEng s unit).st == .idle || (getEng s unit).st == .quarantined || (getEng s unit).st == .testing
  else (getBne s unit).st == .idle || (getBne s unit).st == .quarantined || (getBne s unit).st == .testing

/-- What the probe gets: four bytes of data and a bus-error mark. -/
def probeData (s : State) (v : Nat) (err : Bool) : State := emit s (.port .tap (leBytes 4 v ++ leBytes 1 (b2n err)))

/-- The rights a granted access through targets 20 and 21 still needs: registers or memories (R431). -/
def blockRight (s : State) (mem : Bool) (k : Access) : Bool :=
  if mem then (if k = .write then debugRight s 7 else debugRight s 6 || debugRight s 7)
  else (if k = .write then debugRight s 3 else debugRight s 2 || debugRight s 3)

/-- The bytes that a debug write of four bytes leaves in a memory. -/
def putProbed (t : KMap Nat) (addr v : Nat) : KMap Nat :=
  (List.range 4).foldl (fun t i => kset (fun _ => 0) t (addr + i) (v / 2 ^ (8 * i) % 256)) t

/-- Four bytes of a memory that reads as zero where debug has written nothing. -/
def getProbed (t : KMap Nat) (addr : Nat) : Nat :=
  (List.range 4).foldl (fun n i => n + 2 ^ (8 * i) * kget (fun _ => 0) t (addr + i)) 0

/-- The bytes of the memories of a unit behind target 20 (instruction memory, operand memory, output staging) or 21 (operand
memory), counted from 0; their order, and that an address beyond them reads zero, is the model's choice (log 107). -/
def memBytes (m : Nat) : Nat := if m = 20 then 240 * 1024 else 64 * 1024

/-- What debug has written into the memories of a unit. -/
def unitProbed (s : State) (m u : Nat) : KMap Nat := if m = 20 then (getEng s u).probed else (getBne s u).probed

/-- A granted access to the memory of an engine, or big-number engine, without a job: its memories read as zero (R12, R176)
but for what debug itself has written. -/
def probeUnit (s : State) (m u addr : Nat) (k : Access) (v : Nat) : State :=
  if memBytes m < addr + 4 then probeData s 0 false
  else if k = .write then
    let t := putProbed (unitProbed s m u) addr v
    probeData (if m = 20 then setEng s u { getEng s u with probed := t } else setBne s u { getBne s u with probed := t }) 0 false
  else probeData s (getProbed (unitProbed s m u) addr) false

/-- A granted access to a memory whose contents the spec does not give: what debug wrote there is read again, else a free
value is read (log 107). -/
def probeMemory (s : State) (m addr : Nat) (k : Access) (v : Nat) : State :=
  let key := 2 ^ 32 * m + addr
  if k = .write then probeData { s with dbg := { s.dbg with probed := kins s.dbg.probed key v } } 0 false
  else match kfind s.dbg.probed key with
    | some w => probeData s w false
    | none => bumpCtr (probeData s (Sys2Proof.Config.debugRead s.freeCtr m addr % 2 ^ 32) false)

/-- A byte of the BBRAM as debug sees it (R408): root slots, the ember, which reads as zero (R310), channel counters and meter
words. -/
def bbramByte (s : State) (a : Nat) : Nat :=
  let word (v : Nat) : Nat := v / 2 ^ (8 * (a % 8)) % 256
  if a < 0x200 then ((kget (fun _ => []) s.peat.roots (a / 64)).getD (a % 64) 0).toNat
  else if a < 0x4000 then 0
  else if a < 0x8000 then word (chanCounter s ((a - 0x4000) / 8))
  else word (meterWord s ((a - 0x8000) / 8))

/-- Byte `i` of a word of 64 bits replaced. -/
def wordPut (w i v : Nat) : Nat := w - 2 ^ (8 * i) * (w / 2 ^ (8 * i) % 256) + 2 ^ (8 * i) * (v % 256)

/-- The same byte written: the ember ignores debug (R310). -/
def bbramPut (s : State) (a v : Nat) : State :=
  if a < 0x200 then
    let slot := padTo 64 (kget (fun _ => []) s.peat.roots (a / 64))
    { s with peat := { s.peat with roots := kset (fun _ => []) s.peat.roots (a / 64) (slot.set (a % 64) (BitVec.ofNat 8 v)) } }
  else if a < 0x4000 then s
  else if a < 0x8000 then
    let i := (a - 0x4000) / 8
    { s with peat := { s.peat with chan := kset (fun _ => 0) s.peat.chan i (wordPut (chanCounter s i) (a % 8) v) } }
  else
    let i := (a - 0x8000) / 8
    { s with peat := { s.peat with meters := kset (fun _ => 0) s.peat.meters i (wordPut (meterWord s i) (a % 8) v) } }

/-- A granted access to the BBRAM behind target 5, open in RAW and TEST (R408, R432). The layout of the latch, the hours, the
cell configuration and the cell log within their 64-byte places is not stated: they are as a memory whose contents the spec
does not give (log 107). -/
def probePeat (s : State) (addr : Nat) (k : Access) (v : Nat) : State :=
  if addr + 4 ≤ 0x240 ∨ (0x4000 ≤ addr ∧ addr + 4 ≤ 0x10000) then
    if k = .write then
      probeData ((List.range 4).foldl (fun s i => bbramPut s (addr + i) (v / 2 ^ (8 * i) % 256)) s) 0 false
    else probeData s ((List.range 4).foldl (fun n i => n + 2 ^ (8 * i) * bbramByte s (addr + i)) 0) false
  else probeMemory s 5 addr k v

/-- PWR_CAP and PWR_STATUS are reachable from the PF and the keeper world only (R30; R431 opens target 22 as a whole: DEDUCED,
log 154). -/
def debugBarred (a : Nat) : Bool := a == 0xAF00 || a == 0xAF04

/-- A granted access. `mem` names the engine, or big-number engine, whose memory the address lies in. -/
def debugGranted (s : State) (m addr : Nat) (k : Access) (v : Nat) (mem : Option Nat) : State :=
  if m = 20 ∨ m = 21 then
    if !blockRight s mem.isSome k then probeData s 0 true
    else match mem with
    | some u => if memoryOpen s m u then probeUnit s m u addr k v else probeData s 0 true
    | none => debugRegister s m addr k v
  else if m = 5 then
    -- the BBRAM first, then the registers of the peat domain (log 107)
    (if 0x10000 ≤ addr ∧ addr < 0x10800 then atRegister s (0x7800 + (addr - 0x10000)) k v else probePeat s addr k v)
  else debugRegister s m addr k v
where
  atRegister (s : State) (a : Nat) (k : Access) (v : Nat) : State :=
    if debugBarred a then probeData s 0 true
    else if a % 4 ≠ 0 then probeData s (2 ^ 32 - 1) false
    else if k = .write then probeData (regWrite s .debug a v) 0 false
    else
      let r := regRead s .debug a
      probeData r.2 r.1 false
  debugRegister (s : State) (m addr : Nat) (k : Access) (v : Nat) : State := match targetBlock m with
    | none => probeMemory s m addr k v
    | some (base, len) => if len ≤ addr then probeMemory s m addr k v else atRegister s (base + addr) k v

/-- DEBUG_ACCESS: an access of the probe, as master 0x3FF, to a target address. -/
def execDebugAccess (target : Fin 24) (addr : Nat) (kind : Access) (value : BitVec 32) (mem : Option (Fin 272)) (s : State) :
    Host.Outcome State Fault Refusal :=
  answer s (if !live s then s
    else match debugDecide s target.val addr kind with
    | .deny noMatch locked =>
        probeData (denialRecord s target.val 0x3FF addr kind noMatch locked) 0 true
    | .grant => debugGranted s target.val addr kind value.toNat (mem.map (fun u => u.val)))

end Sys2Proof.Machine
end

