-- ==== Sys2Proof/Machine/Spread.lean ====
section
/-! DEFINITION. Spread batches between units (12_park.md R344 to R348): a share received and run, results received, and
shares that are lost or run again. -/

namespace Sys2Proof.Machine

/-! A share of another unit's batch (R345) -/

/-- The command of a share: it acts for the tenant, and its results go back to unit `u`. -/
def shareCmd (batch tenant u : Nat) (d : Desc) (its : List (Nat × Bytes)) : Cmd :=
  { fn := 2048 + tenant, queue := 512 + u, desc := { d with tag := batch, auxLen := its.length, authAddr := 0 }, inSgl := [],
    outSgl := [], input := its.flatMap (fun e => padTo d.inLen e.2), aux := [], auth := [], tokens := [], dma := .good }

def resultBytes (batch item status detail written : Nat) (out : Bytes) : Bytes :=
  leBytes 4 batch ++ leBytes 4 item ++ leBytes 2 status ++ leBytes 2 detail ++ leBytes 4 written ++ out

/-- Every item of a share gets the status of a failed check. -/
def shareFails (s : State) (batch u : Nat) (its : List (Nat × Bytes)) (e : Nat × Nat) : State :=
  its.foldl (fun s x => sendTo s u 0x31 (resultBytes batch x.1 e.1 e.2 0 [])) s

/-- Run a share as if it had been accepted here: checks 3 to 9 on this unit's keys and meters, whose windows are judged at the
acceptance tick of the batch (R344). A unit that is not in FORMED
refuses it whole. -/
def shareRun (batch tenant u accepted : Nat) (d : Desc) (its : List (Nat × Bytes)) (s : State) : State :=
  let c := shareCmd batch tenant u d its
  let n := its.length
  if s.prk.st ≠ .formed ∨ n = 0 then sendTo s u 0x31 (resultBytes batch (2 ^ 32 - 1) stDenied 0x0200 0 [])
  else
    let s1 := pmcDev { s with prk := { s.prk with spreadIn := satInc 32 s.prk.spreadIn } } 196 n
    match planG { s1 with sdl := { s1.sdl with grid := accepted } } c with
    | .error e => shareFails (countExhausted s1 e.1) batch u its e
    | .ok (j, rng) =>
        if rng && !kilnReleasing s1 then shareFails s1 batch u its (kilnStatus s1)
        else if !chargesFit s1 j then shareFails (countExhausted s1 stExhausted) batch u its (stExhausted, 0)
        else
          let j1 := { j with accepted := now s1 }
          let ids := (List.zip (its.map (fun e => e.1)) (List.range n))
          let r := newBatch (addUses (chargeJob s1 j1) j1 n) j1 ids n n false
          planBatch r.1 r.2

/-- SPREAD_ITEMS. -/
def execSpreadItems (f : FrameIn) (batch : Nat) (head : SpreadHead) (d : Desc) (its : List (Nat × Bytes)) (s : State) :
    Host.Outcome State Fault Refusal :=
  answer s (receive f 0x30 (fun s => shareRun batch (head.tenant % 4096) (frSrc f.bytes) head.accepted d its s) s)

/-! Lost shares (R346) -/

/-- An item that no unit ran. -/
def itemLost (s : State) (n i : Nat) : State :=
  match getBatch s n with
  | none => s
  | some b =>
      let s1 := writeItem s b.plan.cmd i 0xFF stUnitLost 0 0 []
      let b1 := { b with left := b.left - 1 }
      if b1.left = 0 then endBatch s1 n b1 else setBatch s1 n b1

/-- Items that RETRY_LOCAL runs again: cipher and digest items, and those of a program whose manifest sets IDEMPOTENT; an item of
the pool has no program, so it does not qualify (DEDUCED, log 146). -/
def retryOk (s : State) (c : Cmd) : Bool :=
  let op := c.desc.opcode
  flRetry c && (op / 4096 == 3 || op / 4096 == 4 || op == 0x1006
    || (op == 0x1004 && c.desc.select % 65536 != 0x0D01)
    || (op == 0x2001 && (match runProgram s c.desc.select with
        | some p => p.man.idempotent
        | none => libIdem c.desc.select))
    || (op / 4096 == 5 && !pkClassical c && (match libPick s (libId (selAlg c) (pkOp op)) with
        | some (_, some p) => p.man.idempotent
        | some (id, none) => libIdem id
        | none => false)))

def setShare (s : State) (n u : Nat) (f : Share → Share) : State :=
  { s with prk := { s.prk with shares := s.prk.shares.map (fun x => if x.batch = n ∧ x.unit = u then f x else x) } }

/-- The share of unit `u` is lost: its items report UNIT_LOST, or are divided again among the units that remain. -/
def shareLost (s : State) (n u : Nat) : State :=
  match getBatch s n, s.prk.shares.find? (fun x => x.batch == n && x.unit == u) with
  | some b, some x =>
      let units := (spreadUnits s).filter (fun e => e.1 != u
        && !s.prk.shares.any (fun y => y.batch == n && y.unit == e.1 && decide (2 ≤ y.outcome)))
      if x.items = [] then s
      else if retryOk s b.plan.cmd ∧ units ≠ [] then
        let s1 := setShare s n u (fun y => { y with items := [], outcome := 3 })
        let s2 := { s1 with prk := { s1.prk with spreadRetried := s1.prk.spreadRetried + x.items.length } }
        giveShares s2 n (x.items.map (fun i => (i, i))) units false
      else
        x.items.foldl (fun s i => itemLost s n i) (setShare s n u (fun y => { y with items := [], outcome := 2 }))
  | _, _ => s

/-- SPREAD_RESULT: an item's result, or the refusal of a whole share (no item). A result whose item is no longer with the
unit is discarded. -/
def execSpreadResult (f : FrameIn) (batch : Nat) (item : Option Nat) (status detail written : Nat) (out : Bytes) (s : State) :
    Host.Outcome State Fault Refusal :=
  answer s (receive f 0x31 (fun s =>
    let u := frSrc f.bytes
    match item with
    | none => shareLost s batch u
    | some i =>
        if s.prk.shares.any (fun x => x.batch == batch && x.unit == u && x.items.contains i) then
          itemDone s batch i u status detail written (if status = 0 then out else [])
        else s) s)

/-- SPREAD_LOSS_TIMEOUT: the unit is declared lost, or has been unreachable over both arcs for 4,096 ticks, or this unit has
left the park. -/
def execSpreadLossTimeout (unit : Fin 64) (s : State) : Host.Outcome State Fault Refusal :=
  let u := unit.val
  let gone := isLost s u || s.prk.st == .alone || (match (getPeer s u).silentSince with
    | some t => decide (t + 4096 ≤ s.tick)
    | none => false)
  answer s (if !gone || u == s.prk.address then s
    else (s.prk.shares.filter (fun x => x.unit == u)).foldl (fun s x => shareLost s x.batch u) s)

end Sys2Proof.Machine
end

