-- ==== Sys2Proof/Machine/Wrappers.lean ====
section
/-! DEFINITION. Event rows whose effect goes on into the keeper world's next command: the console and the cards
(04_command_authority.md), park transactions (12_park.md), applet partitions and their gates (14_lodge_protection.md). -/

namespace Sys2Proof.Machine

/-! Console and cards (R98, R109 to R114) -/

/-- The checks 1 and 2 of a descriptor that a console starts; its opcode is a critical one. -/
def startAdmit (c : Cmd) (s : State) : Option (Nat × Nat) :=
  match check1 s c with
  | .error e => some e
  | .ok _ =>
      if !isCritical c.desc.opcode then some (stParam, 0x0021)
      else match check2 s c with
        | .error e => some e
        | .ok _ => none

/-- COMPONENT: a key component typed at the console (R114). -/
def execComponent (frame : Bytes) (s : State) : Host.Outcome State Fault Refusal :=
  answer s (keeperNext (conReceive s frame 0x83 (takeComponent perform)))

/-- CANCEL: the wait ends with QUORUM_MISSING (R112). -/
def execCancel (frame : Bytes) (s : State) : Host.Outcome State Fault Refusal :=
  answer s (conReceive s frame 0x84 (fun s _ => takeCancel perform s))

/-- START: a segment of a console-started critical command (R113). -/
def execStart (frame : Bytes) (s : State) : Host.Outcome State Fault Refusal :=
  answer s (keeperNext (conReceive s frame 0x85 (takeStart startAdmit)))

/-- CONSOLE_RESEND_TIMEOUT: a frame unacknowledged for 104,858 ticks (R109). -/
def execConsoleResendTimeout (s : State) : Host.Outcome State Fault Refusal := answer s (resendDue perform s)

/-- APPROVAL_WINDOW_END: the wait ends without a quorum (R112). -/
def execApprovalWindowEnd (s : State) : Host.Outcome State Fault Refusal := answer s (windowEnd perform s)

/-- CARD_RESPONSE: a card answers the command it was sent (R108, R111, R112). -/
def execCardResponse (slot : Fin 2) (good : Bool) (data : Bytes) (s : State) : Host.Outcome State Fault Refusal :=
  answerLive s (keeperNext (cardAnswer perform s slot.val good data))

/-- CARD_REMOVE: an unconfirmed approval is not given; the keeper world goes on (R26, R112). -/
def execCardRemove (slot : Fin 2) (s : State) : Host.Outcome State Fault Refusal :=
  answer s (keeperNext (cardRemove slot.val s))

/-- DEBUG_SESSION_END: the close goes to the keeper world's order (R436). -/
def execDebugSessionEnd (s : State) : Host.Outcome State Fault Refusal := answer s (sessionEnd keeperNext s)

/-! Park (R330, R331, R338 to R343) -/

/-- VOTE. -/
def execVote (f : FrameIn) (unit counter attempt : Nat) (yes : Bool) (status detail : Nat) (gens : List Nat) (s : State) :
    Host.Outcome State Fault Refusal :=
  answer s (execVoteWith keeperNext f unit counter attempt yes status detail gens s)

/-- PREPARE_DEADLINE. -/
def execPrepareDeadline (s : State) : Host.Outcome State Fault Refusal := answer s (prepareDeadline keeperNext s)

/-- COMPLETE. -/
def execComplete (f : FrameIn) (unit counter activate units : Nat) (s : State) : Host.Outcome State Fault Refusal :=
  answer s (completeWith keeperNext f unit counter activate units s)

/-- ACTIVATION_TICK. -/
def execActivationTick (s : State) : Host.Outcome State Fault Refusal := answer s (activationTick keeperNext s)

/-- RESYNC_DATA. -/
def execResyncData (f : FrameIn) (objs : List ParkObj) (entries : List SchedEntry) (s : State) :
    Host.Outcome State Fault Refusal :=
  answer s (resyncDataWith keeperNext f objs entries s)

/-- RESYNC_TIMEOUT. -/
def execResyncTimeout (s : State) : Host.Outcome State Fault Refusal := answer s (resyncTimeout keeperNext s)

/-- WALK_FAIL. -/
def execWalkFail (f : FrameIn) (cause : Nat) (s : State) : Host.Outcome State Fault Refusal :=
  answer s (walkFailWith keeperNext f cause s)

/-- EPOCH_SWITCH. -/
def execEpochSwitch (s : State) : Host.Outcome State Fault Refusal := answer s (epochSwitch keeperNext s)

/-! The Lodge (R379 to R381, R391) -/

/-- MPU_DENIAL: an access of a master reaches a protection unit. A denial of the gatehouse ends the command that it served,
job `job` (R391); a port's frame or transfer is discarded with the access. -/
def execMpuDenial (mpu : Fin 24) (master : Fin 1024) (addr : Nat) (access : Attempt) (s : State) :
    Host.Outcome State Fault Refusal :=
  let s1 := mpuDenial keeperNext mpu.val master.val addr access.kind s
  answer s (if master.val = 0x100 ∧ mpuDecide s mpu.val 0x100 addr access.kind ≠ .grant then
      match access.job with
      | some n => match getJob s1 n with
        | some j => if jobOpen j then abortJob s1 n stFault 0x024A (abortDue s1 j) else s1
        | none => s1
      | none => s1
    else s1)

/-- STAGE2_FAULT. -/
def execStage2Fault (part : Fin 64) (s : State) : Host.Outcome State Fault Refusal := answer s (stage2Fault keeperNext part.val s)

/-- APPLET_RETURN. -/
def execAppletReturn (part : Fin 64) (status : Nat) (output : Bytes) (s : State) : Host.Outcome State Fault Refusal :=
  answer s (appletReturn keeperNext part.val status output s)

/-- CALL_BUDGET_EXPIRE. -/
def execCallBudgetExpire (part : Fin 64) (s : State) : Host.Outcome State Fault Refusal :=
  answer s (budgetExpire keeperNext part.val s)

/-- GATE_SUBMIT. -/
def execGateSubmit (part : Fin 64) (c : Cmd) (inMap : Bool) (s : State) : Host.Outcome State Fault Refusal :=
  answer s (gateSubmit accept part.val c inMap s)

end Sys2Proof.Machine
end

