-- ==== Sys2Proof/Machine/Dispatch.lean ====
section
/-! DEFINITION. One arm per command: the direct call of its meaning, or a rejection by name. -/

namespace Sys2Proof.Machine

open Sys2Proof

/-- The effect of one command on everything but the queue. -/
def exec (i : Instr) (s : State) : Host.Outcome State Fault Refusal :=
  match i with
  | .adminIdentify c => Sys2Proof.Machine.execAdminIdentify c s
  | .adminAttest c => Sys2Proof.Machine.execAdminAttest c s
  | .adminNop c => Sys2Proof.Machine.execAdminNop c s
  | .adminAppletCall c => Sys2Proof.Machine.execAdminAppletCall c s
  | .adminQuarantine c => Sys2Proof.Machine.execAdminQuarantine c s
  | .adminServiceReturn c => Sys2Proof.Machine.execAdminServiceReturn c s
  | .adminShutdown c => Sys2Proof.Machine.execAdminShutdown c s
  | .adminFwUpdate c => Sys2Proof.Machine.execAdminFwUpdate c s
  | .adminFwActivate c => Sys2Proof.Machine.execAdminFwActivate c s
  | .adminReset c => Sys2Proof.Machine.execAdminReset c s
  | .adminResetTime c => Sys2Proof.Machine.execAdminResetTime c s
  | .adminResetCold c => Sys2Proof.Machine.execAdminResetCold c s
  | .adminProgramLoad c => Sys2Proof.Machine.execAdminProgramLoad c s
  | .adminProgramRemove c => Sys2Proof.Machine.execAdminProgramRemove c s
  | .adminAppletLoad c => Sys2Proof.Machine.execAdminAppletLoad c s
  | .adminAppletRemove c => Sys2Proof.Machine.execAdminAppletRemove c s
  | .adminCustodianEnrol c => Sys2Proof.Machine.execAdminCustodianEnrol c s
  | .adminCustodianRevoke c => Sys2Proof.Machine.execAdminCustodianRevoke c s
  | .adminPolicySet c => Sys2Proof.Machine.execAdminPolicySet c s
  | .adminPublisherSet c => Sys2Proof.Machine.execAdminPublisherSet c s
  | .keyLoad c => Sys2Proof.Machine.execKeyLoad c s
  | .keySave c => Sys2Proof.Machine.execKeySave c s
  | .keySaveCold c => Sys2Proof.Machine.execKeySaveCold c s
  | .keyAttrGet c => Sys2Proof.Machine.execKeyAttrGet c s
  | .keyDerive c => Sys2Proof.Machine.execKeyDerive c s
  | .keyMeterGet c => Sys2Proof.Machine.execKeyMeterGet c s
  | .keyCheckValue c => Sys2Proof.Machine.execKeyCheckValue c s
  | .keyGenerate c => Sys2Proof.Machine.execKeyGenerate c s
  | .keyImport c => Sys2Proof.Machine.execKeyImport c s
  | .keyExport c => Sys2Proof.Machine.execKeyExport c s
  | .keyDelete c => Sys2Proof.Machine.execKeyDelete c s
  | .keyAttrSet c => Sys2Proof.Machine.execKeyAttrSet c s
  | .keyComponent c => Sys2Proof.Machine.execKeyComponent c s
  | .keyMeterSet c => Sys2Proof.Machine.execKeyMeterSet c s
  | .runProgram c => Sys2Proof.Machine.execRunProgram c s
  | .runQuery c => Sys2Proof.Machine.execRunQuery c s
  | .symEncrypt c => Sys2Proof.Machine.execSymEncrypt c s
  | .symDecrypt c => Sys2Proof.Machine.execSymDecrypt c s
  | .symStream c => Sys2Proof.Machine.execSymStream c s
  | .symMacGen c => Sys2Proof.Machine.execSymMacGen c s
  | .symMacVerify c => Sys2Proof.Machine.execSymMacVerify c s
  | .symPinTranslate c => Sys2Proof.Machine.execSymPinTranslate c s
  | .symPinVerify c => Sys2Proof.Machine.execSymPinVerify c s
  | .symEmvVerify c => Sys2Proof.Machine.execSymEmvVerify c s
  | .symCvvGen c => Sys2Proof.Machine.execSymCvvGen c s
  | .symCvvVerify c => Sys2Proof.Machine.execSymCvvVerify c s
  | .digestOneshot c => Sys2Proof.Machine.execDigestOneshot c s
  | .digestUpdate c => Sys2Proof.Machine.execDigestUpdate c s
  | .digestFinal c => Sys2Proof.Machine.execDigestFinal c s
  | .digestMac c => Sys2Proof.Machine.execDigestMac c s
  | .digestMacVerify c => Sys2Proof.Machine.execDigestMacVerify c s
  | .digestMeasRead c => Sys2Proof.Machine.execDigestMeasRead c s
  | .digestMeasExtend c => Sys2Proof.Machine.execDigestMeasExtend c s
  | .pkSign c => Sys2Proof.Machine.execPkSign c s
  | .pkVerify c => Sys2Proof.Machine.execPkVerify c s
  | .pkEncaps c => Sys2Proof.Machine.execPkEncaps c s
  | .pkDecaps c => Sys2Proof.Machine.execPkDecaps c s
  | .pkDerive c => Sys2Proof.Machine.execPkDerive c s
  | .pkEncrypt c => Sys2Proof.Machine.execPkEncrypt c s
  | .pkDecrypt c => Sys2Proof.Machine.execPkDecrypt c s
  | .rngRead c => Sys2Proof.Machine.execRngRead c s
  | .rngRawRead c => Sys2Proof.Machine.execRngRawRead c s
  | .rngRestart c => Sys2Proof.Machine.execRngRestart c s
  | .rngRawEnable c => Sys2Proof.Machine.execRngRawEnable c s
  | .timeStamp c => Sys2Proof.Machine.execTimeStamp c s
  | .timeStatus c => Sys2Proof.Machine.execTimeStatus c s
  | .timePolicy c => Sys2Proof.Machine.execTimePolicy c s
  | .timeScheduleAdd c => Sys2Proof.Machine.execTimeScheduleAdd c s
  | .timeScheduleCancel c => Sys2Proof.Machine.execTimeScheduleCancel c s
  | .parkStatus c => Sys2Proof.Machine.execParkStatus c s
  | .parkJoin c => Sys2Proof.Machine.execParkJoin c s
  | .parkLeave c => Sys2Proof.Machine.execParkLeave c s
  | .parkEvict c => Sys2Proof.Machine.execParkEvict c s
  | .parkResync c => Sys2Proof.Machine.execParkResync c s
  | .parkKeyAgree c => Sys2Proof.Machine.execParkKeyAgree c s
  | .tenantVfQuiesce c => Sys2Proof.Machine.execTenantVfQuiesce c s
  | .tenantVfResume c => Sys2Proof.Machine.execTenantVfResume c s
  | .tenantPerfGrant c => Sys2Proof.Machine.execTenantPerfGrant c s
  | .tenantCreate c => Sys2Proof.Machine.execTenantCreate c s
  | .tenantDelete c => Sys2Proof.Machine.execTenantDelete c s
  | .tenantBindVf c => Sys2Proof.Machine.execTenantBindVf c s
  | .tenantUnbindVf c => Sys2Proof.Machine.execTenantUnbindVf c s
  | .tenantQuotaSet c => Sys2Proof.Machine.execTenantQuotaSet c s
  | .tenantVfSave c => Sys2Proof.Machine.execTenantVfSave c s
  | .tenantVfRestore c => Sys2Proof.Machine.execTenantVfRestore c s
  | .lifeStatus c => Sys2Proof.Machine.execLifeStatus c s
  | .lifeTransition c => Sys2Proof.Machine.execLifeTransition c s
  | .lifeDebugOpen c => Sys2Proof.Machine.execLifeDebugOpen c s
  | .lifeDebugClose c => Sys2Proof.Machine.execLifeDebugClose c s
  | .lifeTamperSet c => Sys2Proof.Machine.execLifeTamperSet c s
  | .lifeRecommission c => Sys2Proof.Machine.execLifeRecommission c s
  | .eventRead c => Sys2Proof.Machine.execEventRead c s
  | .eventClear c => Sys2Proof.Machine.execEventClear c s
  | .perfRead c => Sys2Proof.Machine.execPerfRead c s
  | .perfWindowSet c => Sys2Proof.Machine.execPerfWindowSet c s
  | .unknownOpcode c => Sys2Proof.Machine.execUnknownOpcode c s
  | .commissioningCeremony ixA restA ixB restB alg => Sys2Proof.Machine.execCommissioningCeremony ixA restA ixB restB alg s
  | .descriptorFetch c readFails => Sys2Proof.Machine.execDescriptorFetch c readFails s
  | .fenceRelease => Sys2Proof.Machine.execFenceRelease s
  | .stageReserve => Sys2Proof.Machine.execStageReserve s
  | .stageStarveTimeout => Sys2Proof.Machine.execStageStarveTimeout s
  | .rngWaitTimeout => Sys2Proof.Machine.execRngWaitTimeout s
  | .horizonResume => Sys2Proof.Machine.execHorizonResume s
  | .releaseTick => Sys2Proof.Machine.execReleaseTick s
  | .lateRelease => Sys2Proof.Machine.execLateRelease s
  | .allotmentAbort => Sys2Proof.Machine.execAllotmentAbort s
  | .ladderStep => Sys2Proof.Machine.execLadderStep s
  | .ladderAbort => Sys2Proof.Machine.execLadderAbort s
  | .tailRecordTimer => Sys2Proof.Machine.execTailRecordTimer s
  | .sqTail fn q value => Sys2Proof.Machine.execSqTail fn q value s
  | .cqHead fn q value => Sys2Proof.Machine.execCqHead fn q value s
  | .qpEnable fn q value => Sys2Proof.Machine.execQpEnable fn q value s
  | .qpDisable fn q value => Sys2Proof.Machine.execQpDisable fn q value s
  | .fetchEn on => Sys2Proof.Machine.execFetchEn on s
  | .pwrCapWrite value => Sys2Proof.Machine.execPwrCapWrite value s
  | .pwrHoldWrite value => Sys2Proof.Machine.execPwrHoldWrite value s
  | .assignLock => Sys2Proof.Machine.execAssignLock s
  | .forceScrub pool index => Sys2Proof.Machine.execForceScrub pool index s
  | .intStatusW1c fn addr ones => Sys2Proof.Machine.execIntStatusW1c fn addr ones s
  | .sdlTimeRead m => Sys2Proof.Machine.execSdlTimeRead m s
  | .latchRead m fn place size => Sys2Proof.Machine.execLatchRead m fn place size s
  | .registerWrite m fn place size value => Sys2Proof.Machine.execRegisterWrite m fn place size value s
  | .mpuRegionWrite mpu region bytes => Sys2Proof.Machine.execMpuRegionWrite mpu region bytes s
  | .flrVf vf => Sys2Proof.Machine.execFlrVf vf s
  | .flrReadAbandon vf => Sys2Proof.Machine.execFlrReadAbandon vf s
  | .flrComplete vf => Sys2Proof.Machine.execFlrComplete vf s
  | .flrPf => Sys2Proof.Machine.execFlrPf s
  | .conventionalReset => Sys2Proof.Machine.execConventionalReset s
  | .d3hotEntry => Sys2Proof.Machine.execD3hotEntry s
  | .d0Return => Sys2Proof.Machine.execD0Return s
  | .doeObject size secured request => Sys2Proof.Machine.execDoeObject size secured request s
  | .ideStreamSecure => Sys2Proof.Machine.execIdeStreamSecure s
  | .ideStreamInsecure => Sys2Proof.Machine.execIdeStreamInsecure s
  | .dmaReadReturn job bad => Sys2Proof.Machine.execDmaReadReturn job bad s
  | .jobStart pav => Sys2Proof.Machine.execJobStart pav s
  | .loadingEnd e => Sys2Proof.Machine.execLoadingEnd e s
  | .coreGrant e => Sys2Proof.Machine.execCoreGrant e s
  | .keyDeliveryDone e found => Sys2Proof.Machine.execKeyDeliveryDone e found s
  | .clearingEnd e => Sys2Proof.Machine.execClearingEnd e s
  | .scrubEnd e clean => Sys2Proof.Machine.execScrubEnd e clean s
  | .cipherPieceStart pav found => Sys2Proof.Machine.execCipherPieceStart pav found s
  | .cipherPieceEnd e stay how => Sys2Proof.Machine.execCipherPieceEnd e stay how s
  | .bneJobStart found => Sys2Proof.Machine.execBneJobStart found s
  | .bneJobEnd b how => Sys2Proof.Machine.execBneJobEnd b how s
  | .bneClearingEnd b => Sys2Proof.Machine.execBneClearingEnd b s
  | .bneScrubEnd b clean => Sys2Proof.Machine.execBneScrubEnd b clean s
  | .otsAdvanceConfirm job => Sys2Proof.Machine.execOtsAdvanceConfirm job s
  | .objectDrained base => Sys2Proof.Machine.execObjectDrained base s
  | .scrubUnit found => Sys2Proof.Machine.execScrubUnit found s
  | .ppsEdge sub edge => Sys2Proof.Machine.execPpsEdge sub edge s
  | .ppsMissing => Sys2Proof.Machine.execPpsMissing s
  | .todFrame bytes => Sys2Proof.Machine.execTodFrame bytes s
  | .todGapTimeout bytes => Sys2Proof.Machine.execTodGapTimeout bytes s
  | .todSilence => Sys2Proof.Machine.execTodSilence s
  | .acquireTimeout => Sys2Proof.Machine.execAcquireTimeout s
  | .alignComplete => Sys2Proof.Machine.execAlignComplete s
  | .holdoverLimit => Sys2Proof.Machine.execHoldoverLimit s
  | .holdoverWarn => Sys2Proof.Machine.execHoldoverWarn s
  | .coreFault other => Sys2Proof.Machine.execCoreFault other s
  | .todTxFrame => Sys2Proof.Machine.execTodTxFrame s
  | .refCheckWindow clock ppm => Sys2Proof.Machine.execRefCheckWindow clock ppm s
  | .scheduleFire => Sys2Proof.Machine.execScheduleFire s
  | .sourceWindow src samples alive beat => Sys2Proof.Machine.execSourceWindow src samples alive beat s
  | .repetitionFail src => Sys2Proof.Machine.execRepetitionFail src s
  | .instantiate kat => Sys2Proof.Machine.execInstantiate kat s
  | .reseedDue inst => Sys2Proof.Machine.execReseedDue inst s
  | .reseedLimit inst => Sys2Proof.Machine.execReseedLimit inst s
  | .emberRefresh => Sys2Proof.Machine.execEmberRefresh s
  | .rawReadDone => Sys2Proof.Machine.execRawReadDone s
  | .fountainReseed e => Sys2Proof.Machine.execFountainReseed e s
  | .fountainSeedArrive e => Sys2Proof.Machine.execFountainSeedArrive e s
  | .fountainStop e => Sys2Proof.Machine.execFountainStop e s
  | .powerWindow setpoint => Sys2Proof.Machine.execPowerWindow setpoint s
  | .detectorEvent src value => Sys2Proof.Machine.execDetectorEvent src value s
  | .quenchScrubDone clearNs scrubUs => Sys2Proof.Machine.execQuenchScrubDone clearNs scrubUs s
  | .throttleEnd src => Sys2Proof.Machine.execThrottleEnd src s
  | .cellDetectorEvent src fresh value => Sys2Proof.Machine.execCellDetectorEvent src fresh value s
  | .cellFail mv => Sys2Proof.Machine.execCellFail mv s
  | .quenchOutRelease => Sys2Proof.Machine.execQuenchOutRelease s
  | .hoursTick => Sys2Proof.Machine.execHoursTick s
  | .pwrGoodRise head found => Sys2Proof.Machine.execPwrGoodRise head found s
  | .bootKilnReady f => Sys2Proof.Machine.execBootKilnReady f s
  | .serviceReady failed bad => Sys2Proof.Machine.execServiceReady failed bad s
  | .coldRecordReload => Sys2Proof.Machine.execColdRecordReload s
  | .pwrGoodFall long vbat => Sys2Proof.Machine.execPwrGoodFall long vbat s
  | .resetBall us => Sys2Proof.Machine.execResetBall us s
  | .fullReset => Sys2Proof.Machine.execFullReset s
  | .resetDelayEnd => Sys2Proof.Machine.execResetDelayEnd s
  | .watchdog => Sys2Proof.Machine.execWatchdog s
  | .transitionReset => Sys2Proof.Machine.execTransitionReset s
  | .shutdownDrained => Sys2Proof.Machine.execShutdownDrained s
  | .quiesceDrained => Sys2Proof.Machine.execQuiesceDrained s
  | .cardInsert slot atr => Sys2Proof.Machine.execCardInsert slot atr s
  | .cardRemove slot => Sys2Proof.Machine.execCardRemove slot s
  | .cardResponse slot good data => Sys2Proof.Machine.execCardResponse slot good data s
  | .pin frame => Sys2Proof.Machine.execPin frame s
  | .confirm frame => Sys2Proof.Machine.execConfirm frame s
  | .component frame => Sys2Proof.Machine.execComponent frame s
  | .cancel frame => Sys2Proof.Machine.execCancel frame s
  | .start frame => Sys2Proof.Machine.execStart frame s
  | .consoleAck frame => Sys2Proof.Machine.execConsoleAck frame s
  | .consoleDiscard bytes gap => Sys2Proof.Machine.execConsoleDiscard bytes gap s
  | .consoleResendTimeout => Sys2Proof.Machine.execConsoleResendTimeout s
  | .approvalWindowEnd => Sys2Proof.Machine.execApprovalWindowEnd s
  | .peerLinkUp portB => Sys2Proof.Machine.execPeerLinkUp portB s
  | .peerLinkDown portB => Sys2Proof.Machine.execPeerLinkDown portB s
  | .hello f key state kem x => Sys2Proof.Machine.execHello f key state kem x s
  | .helloTimer => Sys2Proof.Machine.execHelloTimer s
  | .walk f next parkId digest => Sys2Proof.Machine.execWalk f next parkId digest s
  | .walkFail f cause => Sys2Proof.Machine.execWalkFail f cause s
  | .walkTimeout => Sys2Proof.Machine.execWalkTimeout s
  | .assembled f => Sys2Proof.Machine.execAssembled f s
  | .keyDeliver f epoch c xh nonce box tag => Sys2Proof.Machine.execKeyDeliver f epoch c xh nonce box tag s
  | .keyAck f epoch mac => Sys2Proof.Machine.execKeyAck f epoch mac s
  | .keyAgreeTimeout => Sys2Proof.Machine.execKeyAgreeTimeout s
  | .keyCommit f epoch switch names => Sys2Proof.Machine.execKeyCommit f epoch switch names s
  | .epochSwitch => Sys2Proof.Machine.execEpochSwitch s
  | .pnExhaust portB => Sys2Proof.Machine.execPnExhaust portB s
  | .heartbeat f status declared => Sys2Proof.Machine.execHeartbeat f status declared s
  | .heartbeatTimer => Sys2Proof.Machine.execHeartbeatTimer s
  | .heartbeatSilence => Sys2Proof.Machine.execHeartbeatSilence s
  | .leaseExpire unit => Sys2Proof.Machine.execLeaseExpire unit s
  | .takeover f => Sys2Proof.Machine.execTakeover f s
  | .ack f sequence => Sys2Proof.Machine.execAck f sequence s
  | .ackTimer => Sys2Proof.Machine.execAckTimer s
  | .lostNotice f => Sys2Proof.Machine.execLostNotice f s
  | .unreachableTimeout unit => Sys2Proof.Machine.execUnreachableTimeout unit s
  | .prepare f unit counter deadline attempt change => Sys2Proof.Machine.execPrepare f unit counter deadline attempt change s
  | .vote f unit counter attempt yes status detail gens => Sys2Proof.Machine.execVote f unit counter attempt yes status detail gens s
  | .prepareDeadline => Sys2Proof.Machine.execPrepareDeadline s
  | .commit f unit counter gens => Sys2Proof.Machine.execCommit f unit counter gens s
  | .commitResend => Sys2Proof.Machine.execCommitResend s
  | .commitLostTimeout => Sys2Proof.Machine.execCommitLostTimeout s
  | .committed f unit counter => Sys2Proof.Machine.execCommitted f unit counter s
  | .complete f unit counter activate units => Sys2Proof.Machine.execComplete f unit counter activate units s
  | .activationTick => Sys2Proof.Machine.execActivationTick s
  | .abort f unit counter => Sys2Proof.Machine.execAbort f unit counter s
  | .reservationExpire => Sys2Proof.Machine.execReservationExpire s
  | .spreadItems f batch head d its => Sys2Proof.Machine.execSpreadItems f batch head d its s
  | .spreadResult f batch item status detail written out => Sys2Proof.Machine.execSpreadResult f batch item status detail written out s
  | .spreadLossTimeout unit => Sys2Proof.Machine.execSpreadLossTimeout unit s
  | .resyncReq f digest kem x epoch => Sys2Proof.Machine.execResyncReq f digest kem x epoch s
  | .resyncData f objs entries => Sys2Proof.Machine.execResyncData f objs entries s
  | .resyncTimeout => Sys2Proof.Machine.execResyncTimeout s
  | .leave f => Sys2Proof.Machine.execLeave f s
  | .foreignFrame portB bytes => Sys2Proof.Machine.execForeignFrame portB bytes s
  | .kreqEntry entry known => Sys2Proof.Machine.execKreqEntry entry known s
  | .knoteEntry => Sys2Proof.Machine.execKnoteEntry s
  | .gatingRequest domain ungate => Sys2Proof.Machine.execGatingRequest domain ungate s
  | .holdTimeout domain => Sys2Proof.Machine.execHoldTimeout domain s
  | .sliceTimer => Sys2Proof.Machine.execSliceTimer s
  | .appletReturn part status output => Sys2Proof.Machine.execAppletReturn part status output s
  | .callBudgetExpire part => Sys2Proof.Machine.execCallBudgetExpire part s
  | .gateSubmit part c inMap => Sys2Proof.Machine.execGateSubmit part c inMap s
  | .stage2Fault part => Sys2Proof.Machine.execStage2Fault part s
  | .mpuDenial mpu master addr access => Sys2Proof.Machine.execMpuDenial mpu master addr access s
  | .mpuCommit old => Sys2Proof.Machine.execMpuCommit old s
  | .mpuDrainDone => Sys2Proof.Machine.execMpuDrainDone s
  | .mpuDrainTimeout => Sys2Proof.Machine.execMpuDrainTimeout s
  | .debugAccess target addr kind value mem => Sys2Proof.Machine.execDebugAccess target addr kind value mem s
  | .tapIdcode => Sys2Proof.Machine.execTapIdcode s
  | .tapStatus => Sys2Proof.Machine.execTapStatus s
  | .tapBypass => Sys2Proof.Machine.execTapBypass s
  | .tapReset => Sys2Proof.Machine.execTapReset s
  | .debugSessionEnd => Sys2Proof.Machine.execDebugSessionEnd s
  | .quarantineDrained kind index => Sys2Proof.Machine.execQuarantineDrained kind index s
  | .wedgeTimeout kind index => Sys2Proof.Machine.execWedgeTimeout kind index s
  | .partTestEnd kind index fail failed => Sys2Proof.Machine.execPartTestEnd kind index fail failed s
  | .historyFlush => Sys2Proof.Machine.execHistoryFlush s
  | .pageErase => Sys2Proof.Machine.execPageErase s
  | .userCodeCompact ident applet => Sys2Proof.Machine.execUserCodeCompact ident applet s
  | .meterWindow => Sys2Proof.Machine.execMeterWindow s
  | .nop x => Sys2Proof.Machine.execNop x s
  | .halt x => Sys2Proof.Machine.execHalt x s
  | .haltSt x => Sys2Proof.Machine.execHaltSt x s
  | .haltPr x => Sys2Proof.Machine.execHaltPr x s
  | .sadd x => Sys2Proof.Machine.execSadd x s
  | .ssub x => Sys2Proof.Machine.execSsub x s
  | .sand x => Sys2Proof.Machine.execSand x s
  | .sor x => Sys2Proof.Machine.execSor x s
  | .sxor x => Sys2Proof.Machine.execSxor x s
  | .sshl x => Sys2Proof.Machine.execSshl x s
  | .sshr x => Sys2Proof.Machine.execSshr x s
  | .smul x => Sys2Proof.Machine.execSmul x s
  | .seq x => Sys2Proof.Machine.execSeq x s
  | .slt x => Sys2Proof.Machine.execSlt x s
  | .sltu x => Sys2Proof.Machine.execSltu x s
  | .smov x => Sys2Proof.Machine.execSmov x s
  | .saddi x => Sys2Proof.Machine.execSaddi x s
  | .sli x => Sys2Proof.Machine.execSli x s
  | .slui x => Sys2Proof.Machine.execSlui x s
  | .brZ x => Sys2Proof.Machine.execBrZ x s
  | .brNz x => Sys2Proof.Machine.execBrNz x s
  | .brLtz x => Sys2Proof.Machine.execBrLtz x s
  | .brGez x => Sys2Proof.Machine.execBrGez x s
  | .brPany x => Sys2Proof.Machine.execBrPany x s
  | .brPnone x => Sys2Proof.Machine.execBrPnone x s
  | .jmp x => Sys2Proof.Machine.execJmp x s
  | .loopI x => Sys2Proof.Machine.execLoopI x s
  | .loopS x => Sys2Proof.Machine.execLoopS x s
  | .loopIShf x => Sys2Proof.Machine.execLoopIShf x s
  | .loopSShf x => Sys2Proof.Machine.execLoopSShf x s
  | .call x => Sys2Proof.Machine.execCall x s
  | .ret x => Sys2Proof.Machine.execRet x s
  | .jov x => Sys2Proof.Machine.execJov x s
  | .aset x => Sys2Proof.Machine.execAset x s
  | .aadd x => Sys2Proof.Machine.execAadd x s
  | .asetLi x => Sys2Proof.Machine.execAsetLi x s
  | .amovS x => Sys2Proof.Machine.execAmovS x s
  | .qsetS x => Sys2Proof.Machine.execQsetS x s
  | .qsetR x => Sys2Proof.Machine.execQsetR x s
  | .pand x => Sys2Proof.Machine.execPand x s
  | .por x => Sys2Proof.Machine.execPor x s
  | .pxor x => Sys2Proof.Machine.execPxor x s
  | .pnot x => Sys2Proof.Machine.execPnot x s
  | .pmovS x => Sys2Proof.Machine.execPmovS x s
  | .smovP x => Sys2Proof.Machine.execSmovP x s
  | .pset x => Sys2Proof.Machine.execPset x s
  | .vaddM x => Sys2Proof.Machine.execVaddM x s
  | .vsubM x => Sys2Proof.Machine.execVsubM x s
  | .vnegM x => Sys2Proof.Machine.execVnegM x s
  | .vmulM x => Sys2Proof.Machine.execVmulM x s
  | .vmacM x => Sys2Proof.Machine.execVmacM x s
  | .vmulsM x => Sys2Proof.Machine.execVmulsM x s
  | .vredM x => Sys2Proof.Machine.execVredM x s
  | .vchkQ x => Sys2Proof.Machine.execVchkQ x s
  | .vcmpEq x => Sys2Proof.Machine.execVcmpEq x s
  | .vcmpLt x => Sys2Proof.Machine.execVcmpLt x s
  | .vsel x => Sys2Proof.Machine.execVsel x s
  | .vbflyCt x => Sys2Proof.Machine.execVbflyCt x s
  | .vbflyGs x => Sys2Proof.Machine.execVbflyGs x s
  | .vbflyGf x => Sys2Proof.Machine.execVbflyGf x s
  | .vbmulM x => Sys2Proof.Machine.execVbmulM x s
  | .vperm x => Sys2Proof.Machine.execVperm x s
  | .vzipLo x => Sys2Proof.Machine.execVzipLo x s
  | .vzipHi x => Sys2Proof.Machine.execVzipHi x s
  | .vuzpEv x => Sys2Proof.Machine.execVuzpEv x s
  | .vuzpOd x => Sys2Proof.Machine.execVuzpOd x s
  | .vrev x => Sys2Proof.Machine.execVrev x s
  | .vbcastL x => Sys2Proof.Machine.execVbcastL x s
  | .vbcastS x => Sys2Proof.Machine.execVbcastS x s
  | .vsampRej x => Sys2Proof.Machine.execVsampRej x s
  | .vsampEtaLo x => Sys2Proof.Machine.execVsampEtaLo x s
  | .vsampEtaHi x => Sys2Proof.Machine.execVsampEtaHi x s
  | .vsampCbd x => Sys2Proof.Machine.execVsampCbd x s
  | .vsampCbt x => Sys2Proof.Machine.execVsampCbt x s
  | .vsampUnfLo x => Sys2Proof.Machine.execVsampUnfLo x s
  | .vsampUnfHi x => Sys2Proof.Machine.execVsampUnfHi x s
  | .vsampNext x => Sys2Proof.Machine.execVsampNext x s
  | .vcomp x => Sys2Proof.Machine.execVcomp x s
  | .vdcmp x => Sys2Proof.Machine.execVdcmp x s
  | .vpack x => Sys2Proof.Machine.execVpack x s
  | .vunpack x => Sys2Proof.Machine.execVunpack x s
  | .vgmulF x => Sys2Proof.Machine.execVgmulF x s
  | .vgsqF x => Sys2Proof.Machine.execVgsqF x s
  | .vginvF x => Sys2Proof.Machine.execVginvF x s
  | .vand x => Sys2Proof.Machine.execVand x s
  | .vor x => Sys2Proof.Machine.execVor x s
  | .vxor x => Sys2Proof.Machine.execVxor x s
  | .vnot x => Sys2Proof.Machine.execVnot x s
  | .vshlL x => Sys2Proof.Machine.execVshlL x s
  | .vshrL x => Sys2Proof.Machine.execVshrL x s
  | .vshlR x => Sys2Proof.Machine.execVshlR x s
  | .vshrR x => Sys2Proof.Machine.execVshrR x s
  | .vrotR x => Sys2Proof.Machine.execVrotR x s
  | .vclmulLo x => Sys2Proof.Machine.execVclmulLo x s
  | .vclmulHi x => Sys2Proof.Machine.execVclmulHi x s
  | .vp2r x => Sys2Proof.Machine.execVp2r x s
  | .vdecompN x => Sys2Proof.Machine.execVdecompN x s
  | .vdecompW x => Sys2Proof.Machine.execVdecompW x s
  | .vhintMkN x => Sys2Proof.Machine.execVhintMkN x s
  | .vhintMkW x => Sys2Proof.Machine.execVhintMkW x s
  | .vhintUseN x => Sys2Proof.Machine.execVhintUseN x s
  | .vhintUseW x => Sys2Proof.Machine.execVhintUseW x s
  | .vnormGe x => Sys2Proof.Machine.execVnormGe x s
  | .vfaddX x => Sys2Proof.Machine.execVfaddX x s
  | .vfsubX x => Sys2Proof.Machine.execVfsubX x s
  | .vfmulX x => Sys2Proof.Machine.execVfmulX x s
  | .vfcmulX x => Sys2Proof.Machine.execVfcmulX x s
  | .vfbflyX x => Sys2Proof.Machine.execVfbflyX x s
  | .vfcvtX x => Sys2Proof.Machine.execVfcvtX x s
  | .vfrndX x => Sys2Proof.Machine.execVfrndX x s
  | .vld x => Sys2Proof.Machine.execVld x s
  | .vst x => Sys2Proof.Machine.execVst x s
  | .vmov x => Sys2Proof.Machine.execVmov x s
  | .vzero x => Sys2Proof.Machine.execVzero x s
  | .sget x => Sys2Proof.Machine.execSget x s
  | .sput x => Sys2Proof.Machine.execSput x s
  | .vli x => Sys2Proof.Machine.execVli x s
  | .vkeccakF x => Sys2Proof.Machine.execVkeccakF x s
  | .vshaCs x => Sys2Proof.Machine.execVshaCs x s
  | .vshaCl x => Sys2Proof.Machine.execVshaCl x s
  | .cblkE x => Sys2Proof.Machine.execCblkE x s
  | .cblkD x => Sys2Proof.Machine.execCblkD x s
  | .cghInit x => Sys2Proof.Machine.execCghInit x s
  | .cghash x => Sys2Proof.Machine.execCghash x s
  | .kldA x => Sys2Proof.Machine.execKldA x s
  | .kldB x => Sys2Proof.Machine.execKldB x s
  | .kldCa x => Sys2Proof.Machine.execKldCa x s
  | .kldCb x => Sys2Proof.Machine.execKldCb x s
  | .kput x => Sys2Proof.Machine.execKput x s
  | .vin x => Sys2Proof.Machine.execVin x s
  | .vaux x => Sys2Proof.Machine.execVaux x s
  | .vout x => Sys2Proof.Machine.execVout x s
  | .vconvAb x => Sys2Proof.Machine.execVconvAb x s
  | .vconvBa x => Sys2Proof.Machine.execVconvBa x s
  | .sconvAb x => Sys2Proof.Machine.execSconvAb x s
  | .sconvBa x => Sys2Proof.Machine.execSconvBa x s
  | .vremask x => Sys2Proof.Machine.execVremask x s
  | .vtaint x => Sys2Proof.Machine.execVtaint x s
  | .staint x => Sys2Proof.Machine.execStaint x s
  | .vrand x => Sys2Proof.Machine.execVrand x s
  | .vdecl x => Sys2Proof.Machine.execVdecl x s
  | .sdecl x => Sys2Proof.Machine.execSdecl x s
  | .fcmp x => Sys2Proof.Machine.execFcmp x s
  | .rngReadDone => Sys2Proof.Machine.execRngReadDone s
  | .completionTimeout job => Sys2Proof.Machine.execCompletionTimeout job s
  | .lodgeFault => Sys2Proof.Machine.execLodgeFault s
  | .resetNRise => Sys2Proof.Machine.execResetNRise s
  | .perstNRise width speed => Sys2Proof.Machine.execPerstNRise width speed s
  | .cellLow mv => Sys2Proof.Machine.execCellLow mv s
  | .otsStallEnd => Sys2Proof.Machine.execOtsStallEnd s
  | .poolHorizonResume => Sys2Proof.Machine.execPoolHorizonResume s
  | .boundaryScan extest bits => Sys2Proof.Machine.execBoundaryScan extest bits s
  | .debugHalt core op => Sys2Proof.Machine.execDebugHalt core op s
  | .scanChain bits => Sys2Proof.Machine.execScanChain bits s

end Sys2Proof.Machine
end

