-- ==== Sys2Proof/Machine/Frames.lean ====
section
/-! DEFINITION. What a command may touch, as relations between the state before and the state after: the words in which the
statements say what is left unchanged. -/

namespace Sys2Proof.Machine

/-- Only the event recorder, the performance counters, the pending bits of masked MSI-X vectors and what the part sends out
differ. -/
def Quiet (s t : State) : Prop :=
  t = { s with gth := { s.gth with pba := t.gth.pba }, evt := t.evt, pmc := t.pmc, out := t.out }

/-- The same, and what a completion touches: queue pairs and held completions, the tenant view, the gates of the Lodge, the
console. -/
def Answering (s t : State) : Prop :=
  t = { s with gth := t.gth, ten := t.ten, ldg := t.ldg, aut := t.aut, evt := t.evt, pmc := t.pmc, out := t.out }

end Sys2Proof.Machine
end

