-- ==== Sys2Proof/Safety.lean ====
section
/-! DEFINITION. What a safe run is, and the words in which the statements speak of commands: what stands at an engine's PC,
what an instruction leaves unchanged, what a command at the head of its queue answers. -/

namespace Sys2Proof.Machine

open Sys2Proof

/-- A step answers a next state. -/
def stepsOn (s : State) : Bool := match step s with
  | .next _ => true
  | .fault _ => false
  | .refused _ => false

/-- The command answers a next state, and `P` holds of it. -/
def answers (i : Instr) (s : State) (P : State → Prop) : Prop := ∃ t, exec i s = .next t ∧ P t

/-! Instructions of an engine -/

/-- Engine `x.e`. -/
def engOf (x : IsaX) (s : State) : Eng := getEng s x.e.val

/-- Engine `x.e` runs a program job, the word at its PC is `x.w` and names `op`, and no hardware fault strikes. -/
def atPc (op : IsaOp) (x : IsaX) (s : State) : Bool :=
  let g := engOf x s
  g.st == .running && g.imem[g.pc]? == some x.w && isaDecode x.w == some op && x.hw == .none
    && (match g.job.bind (getJob s) with
      | some j => j.kind == .program
      | none => false)

/-- What the instruction sees outside its engine: free values, cores in service, the overlays of the job's package. -/
def envAt (x : IsaX) (s : State) : IsaEnv := match (engOf x s).job.bind (getJob s) with
  | some j => isaEnv s x.e.val j.prog
  | none => isaEnv s x.e.val 0

/-- The fountain can give mask rows (R168). -/
def fntReady (g : Eng) : Bool := g.fnt.seeded && !g.fnt.stopped

/-- The kind column and the O / H / W figures of an instruction (R189). -/
abbrev Cost := CostKind × Nat × Nat × Nat

/-- The fountain is ready, or the instruction needs no mask rows: sources `ts`, `ps` whether a secret predicate governs. -/
def mayRun (g : Eng) (c : Cost) (ts : List Tag) (ps : Bool) : Bool :=
  fntReady g || !(drawsMask g c.1 (secCount ts) || ps && g.profile != 0)

/-- The cycles of R189. -/
def costs (g : Eng) (c : Cost) (ts : List Tag) (ps : Bool) : Nat :=
  costOf g c.1 c.2.1 c.2.2.1 c.2.2.2 (secCount ts) ps

/-- `g'` with its mask shares and its grant of a shared core put back. -/
def settledEng (g g' : Eng) : Eng := { g' with masks := g.masks, grant := g.grant }

/-- The command answers a next state in which nothing differs but engine `x.e`, what `F` names, the recorder and counters, the
output and the counter of free values; the engine is as `P` says, its secrets are shared (R165) and no grant of a core is
left unused (R13). -/
def retiresIn (F : State → State → State) (i : Instr) (x : IsaX) (s : State) (P : Eng → Prop) : Prop :=
  answers i s (fun t => Quiet (F t { s with eng := t.eng, freeCtr := t.freeCtr }) t
    ∧ (∀ k, k ≠ x.e.val → getEng t k = getEng s k)
    ∧ (engOf x t).masks = newMasks s.freeCtr (engOf x s) (settledEng (engOf x s) (engOf x t))
    ∧ (engOf x t).grant.all (fun c => !c.fresh) = true
    ∧ P (settledEng (engOf x s) (engOf x t)))

/-- The same where nothing else differs. -/
def retires (i : Instr) (x : IsaX) (s : State) (P : Eng → Prop) : Prop := retiresIn (fun _ u => u) i x s P

/-- `g'` with what every instruction moves put back: the PC, the loops and the address registers (a shuffled loop that
closes rewrites them), the cycles, the fountain. -/
def steady (g g' : Eng) : Eng :=
  { g' with pc := g.pc, loops := g.loops, a := g.a, aNat := g.aNat, cycles := g.cycles, fnt := g.fnt }

/-- Of the fountain only the count of drawn rows differs; away from the END of a loop the PC moves to the next word, and
loops and address registers stay. -/
def goesOn (g g' : Eng) : Prop :=
  g'.fnt = { g.fnt with rowsDrawn := g'.fnt.rowsDrawn }
    ∧ (atEnd g = false → g'.pc = g.pc + 1 ∧ g'.loops = g.loops ∧ g'.a = g.a ∧ g'.aNat = g.aNat)

/-- A scalar register is written, value and tag; every other scalar register and everything else of the engine stays. -/
def wroteS (g g' : Eng) (d v : Nat) (t : Tag) : Prop :=
  sget g' d = { val := BitVec.ofNat 28 v, tag := t } ∧ (∀ r, r ≠ d → sget g' r = sget g r)
    ∧ { steady g g' with sc := g.sc, everSecret := g.everSecret } = g
    ∧ g'.everSecret = (g.everSecret || t.secret) ∧ goesOn g g'

/-- A predicate register is written. -/
def wroteP (g g' : Eng) (d : Nat) (v : BitVec 16) (t : Tag) : Prop :=
  pget g' d = { val := v, tag := t } ∧ (∀ r, r ≠ d → pget g' r = pget g r)
    ∧ { steady g g' with p := g.p, everSecret := g.everSecret } = g
    ∧ g'.everSecret = (g.everSecret || t.secret) ∧ goesOn g g'

/-- Vector registers are written, all else stays: the new values and secrecy (every register written in a shuffled body is
secret) of the registers of `ds`. -/
def wroteV (g g' : Eng) (ds : List Nat) (v : Nat → Row) (sec : Nat → Bool) : Prop :=
  (∀ d ∈ ds, (vget g' d).val = v d ∧ (vget g' d).tag.secret = (sec d || inShuffle g))
    ∧ (∀ r, r ∉ ds → vget g' r = vget g r)
    ∧ { steady g g' with v := g.v, everSecret := g.everSecret } = g ∧ goesOn g g'

/-- The masked write of R190: under a public predicate of all ones the new row, else word by word. -/
def governed (m : Mode) (g : Eng) (w : BitVec 32) (d : Nat) (new : Row) : Row :=
  if psFull (pget g (wPs w)) then new else maskRow m (pget g (wPs w)).val (vget g d).val new

/-- The governing predicate, and the old destination where it counts as a source, are secret. -/
def govSecret (g : Eng) (w : BitVec 32) (d : Nat) : Bool :=
  !psFull (pget g (wPs w)) && ((pget g (wPs w)).tag.secret || (vget g d).tag.secret)

/-- The old destination, where it counts as a source, has a kind that fits a result of kind `k`. -/
def govFits (k : Kind) (g : Eng) (w : BitVec 32) (d : Nat) : Bool :=
  psFull (pget g (wPs w)) || kindOk k (vget g d).tag

end Sys2Proof.Machine
end

