-- ==== Sys2Proof/Machine/ClaimsGate.lean ====
section
/-! DEFINITION. The words in which the statements speak of commands from the host: a descriptor as the gatehouse takes it,
what its completion is, a held command that goes on (01_organisation.md R18 to R22; 03_gatehouse.md R84 to R92). -/

namespace Sys2Proof.Machine

open Sys2Proof

/-- An event whose whole effect is given: the next state is `t`. -/
def becomes (i : Instr) (s t : State) : Prop := exec i s = .next t

/-- The command of an opcode row: its function, its queue of 16, the row's opcode. -/
def rowCmd (op : Nat) (c : Cmd) : Cmd :=
  { c with fn := c.fn % 1024, queue := c.queue % 16, desc := { c.desc with opcode := op } }

/-- The same with the row's parameter set. -/
def rowSet (op ps : Nat) (c : Cmd) : Cmd :=
  rowCmd op { c with desc := { c.desc with select := c.desc.select / 65536 * 65536 + ps } }

/-- As the checks of R18 see it: buffers of the lengths of the descriptor, the tick of acceptance. -/
def seen (c : Cmd) (s : State) : Cmd := { normCmd c with entered := now s }

def passes (r : Res Unit) : Bool := match r with
  | .ok _ => true
  | .error _ => false

/-- A command fetched in state `s0` is judged in `s`: fetching from its function is on, and what is due at this tick has taken
effect first: entries of the schedule, releases (R45, R50). -/
def judgedIn (c : Cmd) (s0 s : State) : Prop := mayFetch s0 c.fn = true ∧ s = settle s0

/-- A fetched command is accepted at once: no command of its queue is held, no fence, horizon, link or full mailbox stops it,
and it passes checks 1 and 2 of R18. -/
def ready (c : Cmd) (s : State) : Bool :=
  !s.gth.held.any (fun h => h.cmd.fn == c.fn && h.cmd.queue == c.queue) && !ideBlocked s
    && !(flFence c && decide (0 < (getQp s (qpIx c.fn c.queue)).inFlight))
    && !horizonPaused s && !(poolCmd c && poolPaused s) && !(isCritical c.desc.opcode && critFull s)
    && passes (check1 s (seen c s)) && passes (check2 s (seen c s)) && !modeLimit s (seen c s)

/-- Its payload can be read. -/
def payloadGood (c : Cmd) : Bool := c.dma != .payloadFails || c.desc.inLen == 0

/-- The state past the acceptance of a command: counted in its queue, in the counters and in the tenant view. -/
def counted (c : Cmd) (s : State) : State := countAccept (enter s c) c

/-- The completion of a command leaves, behind its output. -/
def completed (c : Cmd) (st dt wr pair : Nat) (o : Bytes) (s t : State) : Prop :=
  ∃ l, t.out = s.out ++ l
    ∧ Output.completion c.fn c.queue
        { tag := c.desc.tag, status := st, detail := dt, written := wr, time := now s, pair := pair, unit := unitByte s } ∈ l
    ∧ (o ≠ [] → Output.data c.fn c.queue c.desc.tag 0 o ∈ l)

/-- The same with status OK and output `o`, or OUTPUT_TOO_SMALL and the length of `o` where it does not fit (R22). -/
def returned (c : Cmd) (o : Bytes) (s t : State) : Prop :=
  if outRoom c < o.length then completed c 0x0104 0 o.length 0 [] s t else completed c 0 0 o.length 0 o s t

/-- The one held command tries again: with its plan at check 9 or the meter path, else from the head of its queue. -/
def resumed (s : State) (h : Held) : State :=
  let s0 := { s with gth := { s.gth with held := [] } }
  match h.plan with
  | some j => commitPlan s0 j (h.why == .rng) (some h)
  | none => consider s0 h.cmd (some h)

/-- Whatever is held now is not a command that waits for its predecessor. -/
def noneBehind (s : State) : Bool := s.gth.held.all (fun x => x.why != .order)

end Sys2Proof.Machine
end

