-- ==== Sys2Proof/Machine/ClaimsEvent.lean ====
section
/-! DEFINITION. The words in which the statements speak of events: the abort of a job, a change of state that is recorded,
what the keeper world leaves alone (02_sundial.md R36, R43; 06_engine_model.md R175; 18_counters_recorder_service.md R462 to
R466). -/

namespace Sys2Proof.Machine

open Sys2Proof

/-- The completion of a command goes at once to its queue of the host port. -/
def toHost (s : State) (c : Cmd) : Bool :=
  hasQueue c.fn && decide (c.queue < 256) && !ideBlocked s

/-- The keeper world takes no further critical command now: it has one in hand, or none is in its mailbox and none at the
console waits for its tag (R26). -/
def keeperRests (s : State) : Bool :=
  s.aut.startReady.isNone && (keeperHeld s || (s.aut.mailbox == [] && s.aut.starts == []))

/-- An event is recorded (R465, R466): a record of its type is the newest of the ring, or the ring is full of unflushed
records and dropped events are counted. -/
def recorded (ty : Nat) (t : State) : Prop :=
  t.evt.ring.getLast?.map (fun r => r.type) = some ty ∨ (0 < t.evt.dropPending ∧ 4096 ≤ unflushed t)

/-- A job after an abort: it waits for the scrub of its part, or for its release tick. -/
def abortedJob (s : State) (j : Job) (st dt due : Nat) : Job :=
  { j with phase := if j.phase = .running ∧ j.part.isSome = true then .scrubWait else .done, status := st, detail := dt,
           output := [], required := 0, pair := 0, due := max due (now s), late := false, useA := none, useB := none,
           matA := [], matB := [] }

/-- Job `n` is aborted (R175): no other job changes, its engine or big-number engine goes to SCRUBBING. -/
def aborts (s : State) (n : Nat) (j : Job) (st dt due : Nat) (t : State) : Prop :=
  getJob t n = some (abortedJob s j st dt due) ∧ (∀ m, m ≠ n → getJob t m = getJob s m)
    ∧ (j.phase ≠ .running → t.eng = s.eng ∧ t.bne = s.bne)
    ∧ (∀ x, j.phase = .running → j.part = some x → if isPool j
        then (getBne t x).st = .scrubbing ∧ (getBne t x).faultDetail = dt ∧ (getBne t x).job = none ∧ t.eng = s.eng
        else (getEng t x).st = .scrubbing ∧ (getEng t x).faultDetail = dt ∧ (getEng t x).job = none ∧ t.bne = s.bne
          ∧ ∀ y, y ≠ x → getEng t y = getEng s y)

/-- The sundial changes state: STATE_CHG, a record, and the grid goes on (R36). -/
def sdlMoves (st : SdlState) (s t : State) : Prop :=
  t.sdl.state = st ∧ t.sdl.intStatus = s.sdl.intStatus ||| 1 ∧ t.sdl.grid = s.sdl.grid ∧ recorded 0x0201 t
    ∧ Quiet { s with sdl := t.sdl } t

/-- The sundial alone changes, and not its state. -/
def sdlStays (P : Sdl → Prop) (s t : State) : Prop :=
  t.sdl.state = s.sdl.state ∧ P t.sdl ∧ Quiet { s with sdl := t.sdl } t

/-- Nobody waits for the kiln: no read in progress, no command at check 9, no restart, no enrolment; and the keeper world
takes up nothing else. -/
def kilnAlone (s : State) : Bool :=
  s.rng.ports == [] && s.rng.restart.isNone && s.gth.held.all (fun h => h.why != .rng) && s.aut.kilnWait.isNone
    && s.aut.wait.all (fun w => w.enrolSlot.isNone) && keeperRests s

/-- Nothing falls due at this tick: no release, no entry of the schedule, no return of an applet. -/
def noneDue (s : State) : Bool :=
  (dueJobs s (fun _ => true)).isEmpty && (dueEntries s).isEmpty && s.ldg.parts.isEmpty

/-- The interrupt status registers of BAR0 with their offsets (R506); those of the pavilions apart. -/
def intPairs : List (Nat × (State → Nat)) :=
  [(0x0044, fun s => s.rep.intStatus), (0x1088, fun s => s.sdl.intStatus), (0x2218, fun s => s.gth.intStatus),
   (0x5008, fun s => s.kst.intStatus), (0x6004, fun s => s.rng.intStatus), (0x7004, fun s => s.tmp.intStatus),
   (0x8004, fun s => s.lcs.intStatus), (0x9008, fun s => s.prk.intStatus), (0xA008, fun s => s.ldg.intStatus),
   (0xB004, fun s => s.evt.intStatus), (0x10F04, fun s => s.pmc.intStatus)]

/-- No work on parts is under way. -/
def noWork (s : State) : Bool := s.rep.work == []

/-- Only command authority and what the part sends differ. -/
def consoleOnly (s t : State) : Prop := t = { s with aut := t.aut, out := t.out }

/-- The acknowledgement of a console frame (R109). -/
def conAck (s : State) (seq : Nat) : Output := .port .console (conFrame 0x07 s.aut.conSeq (leBytes 2 seq))

/-- The `k`-th frame the console is sent next. -/
def conNext (s : State) (k type : Nat) (payload : Bytes) : Output :=
  .port .console (conFrame type (if k = 0 then s.aut.conSeq else (s.aut.conSeq + k) % 65536) payload)

/-- The wait at the console ends with QUORUM_MISSING (R98, R112): required and counted approvals in the detail, the cards
idle, their components gone. -/
def waitFails (w : Wait) (s t : State) : Prop :=
  t.aut.wait = none ∧ t.aut.card0.step = .none ∧ t.aut.card1.step = .none ∧ t.aut.card0.comp = [] ∧ t.aut.card1.comp = []
    ∧ completed w.cmd 0x0303 (w.required * 256 + min (if w.presence then w.present.length else w.counted.length) 255) 0 0 [] s t

end Sys2Proof.Machine
end

