-- ==== Sys2Proof/Machine/ClaimsPark.lean ====
section
/-! DEFINITION. The words in which the statements speak of the park: frames that arrive, what a unit sends, what a message
leaves alone (12_park.md R324 to R326, R335, R340). -/

namespace Sys2Proof.Machine

open Sys2Proof

/-- The frame that a row brings, and its type (R326). -/
def frameOf : Instr → Option (FrameIn × Nat)
  | .hello f .. => some (f, 0x01)
  | .walk f .. => some (f, 0x02)
  | .walkFail f .. => some (f, 0x03)
  | .assembled f => some (f, 0x04)
  | .keyDeliver f .. => some (f, 0x05)
  | .keyAck f .. => some (f, 0x06)
  | .keyCommit f .. => some (f, 0x07)
  | .heartbeat f .. => some (f, 0x10)
  | .takeover f => some (f, 0x11)
  | .ack f .. => some (f, 0x12)
  | .lostNotice f => some (f, 0x13)
  | .prepare f .. => some (f, 0x20)
  | .vote f .. => some (f, 0x21)
  | .commit f .. => some (f, 0x22)
  | .committed f .. => some (f, 0x23)
  | .complete f .. => some (f, 0x24)
  | .abort f .. => some (f, 0x25)
  | .spreadItems f .. => some (f, 0x30)
  | .spreadResult f .. => some (f, 0x31)
  | .resyncReq f .. => some (f, 0x40)
  | .resyncData f .. => some (f, 0x41)
  | .leave f => some (f, 0x42)
  | _ => none

/-- The frame is well formed, of its type, and may be taken: under an association in use or open, its signatures good, not the
unit's own. -/
def taken (f : FrameIn) (ty : Nat) (s : State) : Bool :=
  live s && frameForm f.bytes && frType f.bytes == ty && (s.prk.st != .alone || ty == 0x02) && (openType ty || currentAssoc s f)
    && (!signedType ty || f.signed) && !(!frUnaddressed f.bytes && frSrc f.bytes == s.prk.address && s.prk.addressed)

/-- It is for this unit: a broadcast, a frame between neighbours, or one that names the unit's address (R324, R329). -/
def forUs (f : FrameIn) (ty : Nat) (s : State) : Bool :=
  frBcast f.bytes || ty == 0x02 || (ty == 0x03 && s.prk.st == .walking) || isSelf s (frDst f.bytes)

/-- Its sender stands outside a formed park: it is answered with LOST_NOTICE (R340). -/
def outsider (f : FrameIn) (ty : Nat) (s : State) : Bool :=
  !frUnaddressed f.bytes && (isLost s (frSrc f.bytes) || isEvicted s (frSrc f.bytes)) && ty != 0x10 && ty != 0x40
    && s.prk.st == .formed && s.prk.serving != some (frSrc f.bytes)

/-- Its SEQ is counted: a unicast message that its sender holds until it is acknowledged (R335). -/
def sequenced (f : FrameIn) (ty : Nat) : Bool := heldType ty && !frBcast f.bytes

/-- The message of a frame reaches this unit: its last fragment has come, behind the others. -/
def heard (f : FrameIn) (ty : Nat) (s : State) : Bool :=
  taken f ty s && forUs f ty s && !outsider f ty s && frLast f.bytes
    && (!sequenced f ty || (!seqSeen (getPeer s (frSrc f.bytes)) (frSeq f.bytes)
      && (List.range (frFrag f.bytes)).all (fun i => seqSeen (getPeer s (frSrc f.bytes)) (frSeq f.bytes - 1 - i))))

/-- A frame taken is counted, and installs an association (R332, R458, R459). -/
def arrived (f : FrameIn) (s : State) : State :=
  installNext (pmcDev (meterAdd s (if f.portB then 5 else 3) f.bytes.length) 193 1) f

/-- The state in which a message that is heard takes effect: the frame counted, a broadcast passed on, an ACK owed and the
SEQ accepted. -/
def got (f : FrameIn) (ty : Nat) (s : State) : State :=
  let s1 := arrived f s
  let s2 := if frBcast f.bytes then forwardFrame s1 f else s1
  if sequenced f ty then
    let u := frSrc f.bytes
    let s3 := { s2 with prk := { s2.prk with ackOwed := s2.prk.ackOwed ||| 2 ^ u } }
    setPeer s3 u (acceptSeq (getPeer s2 u) (frSeq f.bytes))
  else s2

/-- Only the park's state, records, counters and what is sent differ. -/
def parkOnly (s t : State) : Prop := Quiet { s with prk := t.prk } t

/-- The same where `n` values are drawn for signatures (R326). -/
def parkDrew (n : Nat) (s t : State) : Prop := Quiet { s with prk := t.prk, freeCtr := s.freeCtr + n } t

/-- No critical command waits for the keeper world, from the host, the Lodge or the console (R26). -/
def noneQueued (s : State) : Bool := s.aut.mailbox == [] && s.aut.starts == [] && s.aut.startReady.isNone

/-- What a port puts on its link for a park frame, the `i`-th that leaves it from here on (R324, R332). -/
def onWire (s : State) (b : Bool) (i : Nat) (frame : Bytes) : Bytes :=
  if protects s frame then secureFrame s b { port s b with pn := (port s b).pn + i } frame else plainFrame s (port s b) frame

/-- The frames of a message that begins at SEQ `seq` (R325, R326). -/
def framesOf (s : State) (type flags dst seq : Nat) (payload : Bytes) : List Bytes :=
  messageFrames type (flags ||| ownFlag s) dst (ownSrc s) seq s.prk.msgId s.prk.epoch (signedPayload s type payload).1

/-- The frames of a message leave port A or B (`b`), where that link is up (R325). -/
def toldOn (s : State) (b : Bool) (type flags dst : Nat) (payload : Bytes) (t : State) : Prop :=
  (port s b).linkUp = true → ∀ e ∈ List.zip (List.range 8) (framesOf s type flags dst s.prk.bcastSeq payload),
    .port (if b then .peerB else .peerA) (onWire s b e.1 e.2) ∈ t.out

/-- A broadcast leaves both ports. -/
def told (s : State) (type : Nat) (payload : Bytes) (t : State) : Prop :=
  ∀ b, toldOn s b type fcBcast 0x3F payload t

/-- A unicast message to unit `u` leaves over an arc; one of a held type, of a single frame, is held until it is
acknowledged; where the hold is full or others wait, it waits behind them (R334, R335). -/
def sentOver (s : State) (a : Bool) (u type : Nat) (payload : Bytes) (t : State) : Prop :=
  let p := port s a
  let l := framesOf s type 0 u (getPeer s u).txSeq payload
  (heldType type = false → p.linkUp = true →
      ∀ e ∈ List.zip (List.range 8) l, .port (if a then .peerB else .peerA) (onWire s a e.1 e.2) ∈ t.out)
    ∧ (heldType type = true → payload.length ≤ 1536 → ∀ b ∈ l,
      let h : HeldFrame := { dst := u, seq := (getPeer s u).txSeq, bytes := b }
      if p.waiting = [] ∧ holdSize p + b.length ≤ holdMax
      then h ∈ (port t a).held ∧ (p.linkUp = true → .port (if a then .peerB else .peerA) (onWire s a 0 b) ∈ t.out)
      else h ∈ (port t a).waiting)

/-- It leaves over the arc in use toward the unit. -/
def sentTo (s : State) (u type : Nat) (payload : Bytes) (t : State) : Prop := sentOver s (arcOf s u) u type payload t

/-- Nobody takes part in a transaction of this name here. -/
def noPart (s : State) (unit counter : Nat) : Bool := (findPart s { unit := unit, counter := counter }).isNone

end Sys2Proof.Machine
end

