-- ==== Sys2Proof/WellFormed.lean ====
section
/-! DEFINITION. Well-formed commands: every field of a descriptor within its width, every operand within the range that the
spec gives it. -/

namespace Sys2Proof

open Sys2Proof.Machine

/-- The fields of a descriptor fit their widths (R73). -/
def Machine.Desc.wf (d : Desc) : Bool :=
  decide (d.opcode < 2 ^ 16 ∧ d.flags < 2 ^ 8 ∧ d.cls < 2 ^ 8 ∧ d.tag < 2 ^ 32 ∧ d.keyA < 2 ^ 32 ∧ d.keyB < 2 ^ 32
    ∧ d.select < 2 ^ 32 ∧ d.inLen < 2 ^ 32 ∧ d.outLen < 2 ^ 32 ∧ d.auxLen < 2 ^ 32 ∧ d.inAddr < 2 ^ 64
    ∧ d.outAddr < 2 ^ 64 ∧ d.auxAddr < 2 ^ 64 ∧ d.authAddr < 2 ^ 64)

/-- The fields of a scatter-list entry fit their widths (R80). -/
def Machine.SglEntry.wf (e : SglEntry) : Bool := decide (e.addr < 2 ^ 64 ∧ e.len < 2 ^ 32 ∧ e.ctrl < 2 ^ 8 ∧
  e.reserved < 2 ^ 24)

/-- A command comes from a queue pair that exists, 16 of the PF and 4 of a VF (R70, R72), with an authority block of 64
bytes at most (R95). -/
def Machine.Cmd.wf (c : Cmd) : Bool :=
  decide (c.fn < 1024) && decide (c.queue < (if c.fn = 0 then 16 else 4)) && c.desc.wf && c.inSgl.all (fun e => e.wf)
    && c.outSgl.all (fun e => e.wf) && decide (c.auth.length ≤ 64)

/-- A park frame: its header and up to 1,536 bytes of payload (R325). -/
def Machine.FrameIn.wf (f : FrameIn) : Bool := decide (32 ≤ f.bytes.length ∧ f.bytes.length ≤ 1568)

/-- Every operand of a command is within its range. -/
def Instr.wf : Instr → Bool
  | .adminIdentify c => c.wf
  | .adminAttest c => c.wf
  | .adminNop c => c.wf
  | .adminAppletCall c => c.wf
  | .adminQuarantine c => c.wf
  | .adminServiceReturn c => c.wf
  | .adminShutdown c => c.wf
  | .adminFwUpdate c => c.wf
  | .adminFwActivate c => c.wf
  | .adminReset c => c.wf
  | .adminResetTime c => c.wf
  | .adminResetCold c => c.wf
  | .adminProgramLoad c => c.wf
  | .adminProgramRemove c => c.wf
  | .adminAppletLoad c => c.wf
  | .adminAppletRemove c => c.wf
  | .adminCustodianEnrol c => c.wf
  | .adminCustodianRevoke c => c.wf
  | .adminPolicySet c => c.wf
  | .adminPublisherSet c => c.wf
  | .keyLoad c => c.wf
  | .keySave c => c.wf
  | .keySaveCold c => c.wf
  | .keyAttrGet c => c.wf
  | .keyDerive c => c.wf
  | .keyMeterGet c => c.wf
  | .keyCheckValue c => c.wf
  | .keyGenerate c => c.wf
  | .keyImport c => c.wf
  | .keyExport c => c.wf
  | .keyDelete c => c.wf
  | .keyAttrSet c => c.wf
  | .keyComponent c => c.wf
  | .keyMeterSet c => c.wf
  | .runProgram c => c.wf
  | .runQuery c => c.wf
  | .symEncrypt c => c.wf
  | .symDecrypt c => c.wf
  | .symStream c => c.wf
  | .symMacGen c => c.wf
  | .symMacVerify c => c.wf
  | .symPinTranslate c => c.wf
  | .symPinVerify c => c.wf
  | .symEmvVerify c => c.wf
  | .symCvvGen c => c.wf
  | .symCvvVerify c => c.wf
  | .digestOneshot c => c.wf
  | .digestUpdate c => c.wf
  | .digestFinal c => c.wf
  | .digestMac c => c.wf
  | .digestMacVerify c => c.wf
  | .digestMeasRead c => c.wf
  | .digestMeasExtend c => c.wf
  | .pkSign c => c.wf
  | .pkVerify c => c.wf
  | .pkEncaps c => c.wf
  | .pkDecaps c => c.wf
  | .pkDerive c => c.wf
  | .pkEncrypt c => c.wf
  | .pkDecrypt c => c.wf
  | .rngRead c => c.wf
  | .rngRawRead c => c.wf
  | .rngRestart c => c.wf
  | .rngRawEnable c => c.wf
  | .timeStamp c => c.wf
  | .timeStatus c => c.wf
  | .timePolicy c => c.wf
  | .timeScheduleAdd c => c.wf
  | .timeScheduleCancel c => c.wf
  | .parkStatus c => c.wf
  | .parkJoin c => c.wf
  | .parkLeave c => c.wf
  | .parkEvict c => c.wf
  | .parkResync c => c.wf
  | .parkKeyAgree c => c.wf
  | .tenantVfQuiesce c => c.wf
  | .tenantVfResume c => c.wf
  | .tenantPerfGrant c => c.wf
  | .tenantCreate c => c.wf
  | .tenantDelete c => c.wf
  | .tenantBindVf c => c.wf
  | .tenantUnbindVf c => c.wf
  | .tenantQuotaSet c => c.wf
  | .tenantVfSave c => c.wf
  | .tenantVfRestore c => c.wf
  | .lifeStatus c => c.wf
  | .lifeTransition c => c.wf
  | .lifeDebugOpen c => c.wf
  | .lifeDebugClose c => c.wf
  | .lifeTamperSet c => c.wf
  | .lifeRecommission c => c.wf
  | .eventRead c => c.wf
  | .eventClear c => c.wf
  | .perfRead c => c.wf
  | .perfWindowSet c => c.wf
  | .unknownOpcode c => c.wf
  | .commissioningCeremony _ restA _ restB _ => decide (restA.length = 3273 ∧ restB.length = 3273)
  | .descriptorFetch c _ => c.wf
  | .fenceRelease => true
  | .stageReserve => true
  | .stageStarveTimeout => true
  | .rngWaitTimeout => true
  | .horizonResume => true
  | .releaseTick => true
  | .lateRelease => true
  | .allotmentAbort => true
  | .ladderStep => true
  | .ladderAbort => true
  | .tailRecordTimer => true
  | .sqTail _ _ _ => true
  | .cqHead _ _ _ => true
  | .qpEnable _ _ _ => true
  | .qpDisable _ _ _ => true
  | .fetchEn _ => true
  | .pwrCapWrite _ => true
  | .pwrHoldWrite _ => true
  | .assignLock => true
  | .forceScrub _ _ => true
  | .intStatusW1c _ addr _ => decide (addr < 2 ^ 18)
  | .sdlTimeRead _ => true
  | .latchRead _ _ place size => decide (place.offset < 2 ^ 18) && [1, 2, 4, 8].contains size
  | .registerWrite _ _ place size _ => decide (place.offset < 2 ^ 18) && [1, 2, 4, 8].contains size
  | .mpuRegionWrite _ _ _ => true
  | .flrVf _ => true
  | .flrReadAbandon _ => true
  | .flrComplete _ => true
  | .flrPf => true
  | .conventionalReset => true
  | .d3hotEntry => true
  | .d0Return => true
  | .doeObject _ _ _ => true
  | .ideStreamSecure => true
  | .ideStreamInsecure => true
  | .dmaReadReturn _ _ => true
  | .jobStart _ => true
  | .loadingEnd _ => true
  | .coreGrant _ => true
  | .keyDeliveryDone _ _ => true
  | .clearingEnd _ => true
  | .scrubEnd _ _ => true
  | .cipherPieceStart _ _ => true
  | .cipherPieceEnd _ _ _ => true
  | .bneJobStart _ => true
  | .bneJobEnd _ _ => true
  | .bneClearingEnd _ => true
  | .bneScrubEnd _ _ => true
  | .otsAdvanceConfirm _ => true
  | .objectDrained _ => true
  | .scrubUnit _ => true
  | .ppsEdge _ _ => true
  | .ppsMissing => true
  | .todFrame _ => true
  | .todGapTimeout _ => true
  | .todSilence => true
  | .acquireTimeout => true
  | .alignComplete => true
  | .holdoverLimit => true
  | .holdoverWarn => true
  | .coreFault _ => true
  | .todTxFrame => true
  | .refCheckWindow _ _ => true
  | .scheduleFire => true
  | .sourceWindow _ _ _ _ => true
  | .repetitionFail _ => true
  | .instantiate _ => true
  | .reseedDue _ => true
  | .reseedLimit _ => true
  | .emberRefresh => true
  | .rawReadDone => true
  | .fountainReseed _ => true
  | .fountainSeedArrive _ => true
  | .fountainStop _ => true
  | .powerWindow _ => true
  | .detectorEvent _ _ => true
  | .quenchScrubDone _ _ => true
  | .throttleEnd _ => true
  | .cellDetectorEvent _ _ _ => true
  | .cellFail mv => decide (mv < 2 ^ 13)
  | .quenchOutRelease => true
  | .hoursTick => true
  | .pwrGoodRise _ _ => true
  | .bootKilnReady _ => true
  | .serviceReady _ _ => true
  | .coldRecordReload => true
  | .pwrGoodFall _ vbat => decide (vbat < 2 ^ 13)
  | .resetBall _ => true
  | .fullReset => true
  | .resetDelayEnd => true
  | .watchdog => true
  | .transitionReset => true
  | .shutdownDrained => true
  | .quiesceDrained => true
  | .cardInsert _ _ => true
  | .cardRemove _ => true
  | .cardResponse _ _ _ => true
  | .pin frame => decide (frame.length ≤ 1034)
  | .confirm frame => decide (frame.length ≤ 1034)
  | .component frame => decide (frame.length ≤ 1034)
  | .cancel frame => decide (frame.length ≤ 1034)
  | .start frame => decide (frame.length ≤ 1034)
  | .consoleAck frame => decide (frame.length ≤ 1034)
  | .consoleDiscard _ _ => true
  | .consoleResendTimeout => true
  | .approvalWindowEnd => true
  | .peerLinkUp _ => true
  | .peerLinkDown _ => true
  | .hello f _ state _ _ => f.wf && decide (state < 2 ^ 3)
  | .helloTimer => true
  | .walk f _ _ _ => f.wf
  | .walkFail f cause => f.wf && decide (cause < 2 ^ 8)
  | .walkTimeout => true
  | .assembled f => f.wf
  | .keyDeliver f epoch _ _ _ _ _ => f.wf && decide (epoch < 2 ^ 32)
  | .keyAck f epoch _ => f.wf && decide (epoch < 2 ^ 32)
  | .keyAgreeTimeout => true
  | .keyCommit f epoch switch names => f.wf && decide (epoch < 2 ^ 32) && decide (switch < 2 ^ 64)
      && decide (names < 2 ^ 64)
  | .epochSwitch => true
  | .pnExhaust _ => true
  | .heartbeat f _ declared => f.wf && decide (declared < 2 ^ 64)
  | .heartbeatTimer => true
  | .heartbeatSilence => true
  | .leaseExpire _ => true
  | .takeover f => f.wf
  | .ack f sequence => f.wf && decide (sequence < 2 ^ 64)
  | .ackTimer => true
  | .lostNotice f => f.wf
  | .unreachableTimeout _ => true
  | .prepare f unit counter deadline _ _ => f.wf && decide (unit < 2 ^ 6) && decide (counter < 2 ^ 64)
      && decide (deadline < 2 ^ 64)
  | .vote f unit counter _ _ status detail _ => f.wf && decide (unit < 2 ^ 6) && decide (counter < 2 ^ 64)
      && decide (status < 2 ^ 16) && decide (detail < 2 ^ 16)
  | .prepareDeadline => true
  | .commit f unit counter _ => f.wf && decide (unit < 2 ^ 6) && decide (counter < 2 ^ 64)
  | .commitResend => true
  | .commitLostTimeout => true
  | .committed f unit counter => f.wf && decide (unit < 2 ^ 6) && decide (counter < 2 ^ 64)
  | .complete f unit counter activate units => f.wf && decide (unit < 2 ^ 6) && decide (counter < 2 ^ 64)
      && decide (activate < 2 ^ 64) && decide (units < 2 ^ 64)
  | .activationTick => true
  | .abort f unit counter => f.wf && decide (unit < 2 ^ 6) && decide (counter < 2 ^ 64)
  | .reservationExpire => true
  | .spreadItems f _ head d _ => f.wf && decide (head.tenant < 2 ^ 12) && decide (head.accepted < 2 ^ 64) && d.wf
  | .spreadResult f _ _ status detail written _ => f.wf && decide (status < 2 ^ 16) && decide (detail < 2 ^ 16)
      && decide (written < 2 ^ 32)
  | .spreadLossTimeout _ => true
  | .resyncReq f _ _ _ epoch => f.wf && decide (epoch < 2 ^ 32)
  | .resyncData f _ _ => f.wf
  | .resyncTimeout => true
  | .leave f => f.wf
  | .foreignFrame _ _ => true
  | .kreqEntry entry _ => decide (entry.length = 64)
  | .knoteEntry => true
  | .gatingRequest _ _ => true
  | .holdTimeout _ => true
  | .sliceTimer => true
  | .appletReturn _ status _ => decide (status < 2 ^ 16)
  | .callBudgetExpire _ => true
  | .gateSubmit _ c _ => c.wf
  | .stage2Fault _ => true
  | .mpuDenial _ _ addr _ => decide (addr < 2 ^ 32)
  | .mpuCommit _ => true
  | .mpuDrainDone => true
  | .mpuDrainTimeout => true
  | .debugAccess _ addr _ _ _ => decide (addr < 2 ^ 32)
  | .tapIdcode => true
  | .tapStatus => true
  | .tapBypass => true
  | .tapReset => true
  | .debugSessionEnd => true
  | .quarantineDrained _ _ => true
  | .wedgeTimeout _ _ => true
  | .partTestEnd _ _ _ _ => true
  | .historyFlush => true
  | .pageErase => true
  | .userCodeCompact ident _ => decide (ident < 2 ^ 32)
  | .meterWindow => true
  | .nop _ => true
  | .halt _ => true
  | .haltSt _ => true
  | .haltPr _ => true
  | .sadd _ => true
  | .ssub _ => true
  | .sand _ => true
  | .sor _ => true
  | .sxor _ => true
  | .sshl _ => true
  | .sshr _ => true
  | .smul _ => true
  | .seq _ => true
  | .slt _ => true
  | .sltu _ => true
  | .smov _ => true
  | .saddi _ => true
  | .sli _ => true
  | .slui _ => true
  | .brZ _ => true
  | .brNz _ => true
  | .brLtz _ => true
  | .brGez _ => true
  | .brPany _ => true
  | .brPnone _ => true
  | .jmp _ => true
  | .loopI _ => true
  | .loopS _ => true
  | .loopIShf _ => true
  | .loopSShf _ => true
  | .call _ => true
  | .ret _ => true
  | .jov _ => true
  | .aset _ => true
  | .aadd _ => true
  | .asetLi _ => true
  | .amovS _ => true
  | .qsetS _ => true
  | .qsetR _ => true
  | .pand _ => true
  | .por _ => true
  | .pxor _ => true
  | .pnot _ => true
  | .pmovS _ => true
  | .smovP _ => true
  | .pset _ => true
  | .vaddM _ => true
  | .vsubM _ => true
  | .vnegM _ => true
  | .vmulM _ => true
  | .vmacM _ => true
  | .vmulsM _ => true
  | .vredM _ => true
  | .vchkQ _ => true
  | .vcmpEq _ => true
  | .vcmpLt _ => true
  | .vsel _ => true
  | .vbflyCt _ => true
  | .vbflyGs _ => true
  | .vbflyGf _ => true
  | .vbmulM _ => true
  | .vperm _ => true
  | .vzipLo _ => true
  | .vzipHi _ => true
  | .vuzpEv _ => true
  | .vuzpOd _ => true
  | .vrev _ => true
  | .vbcastL _ => true
  | .vbcastS _ => true
  | .vsampRej _ => true
  | .vsampEtaLo _ => true
  | .vsampEtaHi _ => true
  | .vsampCbd _ => true
  | .vsampCbt _ => true
  | .vsampUnfLo _ => true
  | .vsampUnfHi _ => true
  | .vsampNext _ => true
  | .vcomp _ => true
  | .vdcmp _ => true
  | .vpack _ => true
  | .vunpack _ => true
  | .vgmulF _ => true
  | .vgsqF _ => true
  | .vginvF _ => true
  | .vand _ => true
  | .vor _ => true
  | .vxor _ => true
  | .vnot _ => true
  | .vshlL _ => true
  | .vshrL _ => true
  | .vshlR _ => true
  | .vshrR _ => true
  | .vrotR _ => true
  | .vclmulLo _ => true
  | .vclmulHi _ => true
  | .vp2r _ => true
  | .vdecompN _ => true
  | .vdecompW _ => true
  | .vhintMkN _ => true
  | .vhintMkW _ => true
  | .vhintUseN _ => true
  | .vhintUseW _ => true
  | .vnormGe _ => true
  | .vfaddX _ => true
  | .vfsubX _ => true
  | .vfmulX _ => true
  | .vfcmulX _ => true
  | .vfbflyX _ => true
  | .vfcvtX _ => true
  | .vfrndX _ => true
  | .vld _ => true
  | .vst _ => true
  | .vmov _ => true
  | .vzero _ => true
  | .sget _ => true
  | .sput _ => true
  | .vli _ => true
  | .vkeccakF _ => true
  | .vshaCs _ => true
  | .vshaCl _ => true
  | .cblkE _ => true
  | .cblkD _ => true
  | .cghInit _ => true
  | .cghash _ => true
  | .kldA _ => true
  | .kldB _ => true
  | .kldCa _ => true
  | .kldCb _ => true
  | .kput _ => true
  | .vin _ => true
  | .vaux _ => true
  | .vout _ => true
  | .vconvAb _ => true
  | .vconvBa _ => true
  | .sconvAb _ => true
  | .sconvBa _ => true
  | .vremask _ => true
  | .vtaint _ => true
  | .staint _ => true
  | .vrand _ => true
  | .vdecl _ => true
  | .sdecl _ => true
  | .fcmp _ => true
  | .rngReadDone => true
  | .completionTimeout _ => true
  | .lodgeFault => true
  | .resetNRise => true
  | .perstNRise _ _ => true
  | .cellLow mv => decide (mv < 2 ^ 13)
  | .otsStallEnd => true
  | .poolHorizonResume => true
  | .boundaryScan _ _ => true
  | .debugHalt _ _ => true
  | .scanChain _ => true

end Sys2Proof
end

