-- ==== Sys2Proof/Machine/ClaimsCmd.lean ====
section
/-! DEFINITION. The words in which the statements speak of the opcode rows: what a command served at once, a planned command
and a critical command answer (01_organisation.md R18 to R20; 03_gatehouse.md R88; 04_authority.md R94 to R108). -/

namespace Sys2Proof.Machine

open Sys2Proof

/-- A release-I row whose command is ready and its payload readable: `P` of the command as the checks see it, the state in
which it is counted as accepted, and the next state. -/
def served (op : Nat) (i : Cmd → Instr) (P : Cmd → State → State → Prop) : Prop :=
  ∀ (c : Cmd) (s0 s : State), judgedIn (rowCmd op c) s0 s → ready (rowCmd op c) s = true → payloadGood (rowCmd op c) = true →
    answers (i c) s0 (P (seen (rowCmd op c) s) (counted (seen (rowCmd op c) s) s))

/-- It completes with a status and a detail and no output, and nothing else happens. -/
def ends (x : Cmd) (st dt : Nat) (u t : State) : Prop := completed x st dt 0 0 [] u t ∧ Answering u t

/-- It returns `o`, and nothing else happens. -/
def gives (x : Cmd) (o : Bytes) (u t : State) : Prop := returned x o u t ∧ Answering u t

/-- The job of an accepted command: with its place in the meter's order, and the tick of acceptance. -/
def jobIn (j : Job) (s : State) : Job :=
  { j with
    index := (j.attrA.map (fun a => meterUsed s a.meter)).getD 0, waitOts := isOts j, accepted := now s,
    stream := (takeSegment s j.cmd).2 }

/-- What accepting a planned job may touch: the gatehouse, the tenant view, uses and meters of keys, the counters. -/
def PlanFrame (s t : State) : Prop :=
  t = { s with gth := t.gth, ten := t.ten, kst := t.kst, peat := t.peat, pmc := t.pmc, out := t.out }

/-- The number the job of `j` gets: the next one, behind that of the stream which a first segment opens. -/
def jobNo (j : Job) (s : State) : Nat := (takeSegment s j.cmd).1.gth.nextJob

/-- The single command of job `j` is planned: one new job, at the least loaded pavilion or at the pool, no other job touched;
its meter is charged and its key waits for one more load. -/
def planned (x : Cmd) (j : Job) (s t : State) : Prop :=
  (isPool j = true →
      getJob t (jobNo j s) = some { jobIn j s with base := now s + queueTicks (poolLoad s) (poolSize s) })
  ∧ (isPool j = false → ∀ p, planPav s = some p →
      getJob t (jobNo j s) = some { jobIn j s with
        pav := p, base := now s + queueTicks (pavLoad s p) (engInService s p) })
  ∧ s.gth.nextJob ≤ jobNo j s ∧ (∀ k, k ≠ jobNo j s → getJob t k = getJob s k)
  ∧ t.gth.nextJob = jobNo j s + 1 ∧ t.gth.batches = s.gth.batches ∧ t.gth.held = s.gth.held
  ∧ (∀ a, j.attrA = some a → j.attrB = none → attrFlag a flMetered = true →
      meterWord t a.meter = meterWord s a.meter + chargeOf x a)
  ∧ (∀ b o, j.useA = some b → j.useB = none → kfind s.kst.objs b = some o →
      (kfind t.kst.objs b).map (fun y => y.waiting) = some (o.waiting + 1))
  ∧ PlanFrame s t

/-- A release-G row, its command ready: refused with the error of checks 3 to 8, or planned as a job, or as a batch of as
many items. -/
def plans (op : Nat) (i : Cmd → Instr) : Prop :=
  ∀ (c : Cmd) (s0 s : State) (x : Cmd), judgedIn (rowCmd op c) s0 s → ready (rowCmd op c) s = true →
    coldSave (rowCmd op c) = false → x = seen (rowCmd op c) s →
    (∀ e, planG s x = .error e → answers (i c) s0 (fun t => completed x e.1 e.2 0 0 [] s t
      ∧ Answering { s with kst := t.kst } t ∧ t.gth.jobs = s.gth.jobs))
    ∧ (∀ j rng, planG s x = .ok (j, rng) → stageOk s x j.staged = true → (rng = true → kilnReleasing s = true) →
        otsRoom s j = true → chargesFit s j = true → segmentFits s j = true →
        (isPool j = true ∨ (planPav s).isSome = true) →
        (flBatch x = false → flSpread x = false → answers (i c) s0 (planned x j s))
        ∧ (flBatch x = true → flSpread x = false → answers (i c) s0 (fun t =>
            (∃ b, getBatch t s.gth.nextJob = some b ∧ b.count = items x ∧ b.left = items x ∧ b.ok = 0 ∧ b.spread = false)
            ∧ (∀ k, k < s.gth.nextJob → getJob t k = getJob s k) ∧ t.gth.held = s.gth.held ∧ PlanFrame s t)))

/-- The command that an opcode row brings to the gatehouse (R88). -/
def cmdRow : Instr → Option Cmd
  | .adminIdentify c => some (rowCmd 0x0001 c)
  | .adminAttest c => some (rowCmd 0x0002 c)
  | .adminNop c => some (rowCmd 0x0003 c)
  | .adminAppletCall c => some (rowCmd 0x0004 c)
  | .adminQuarantine c => some (rowCmd 0x0005 c)
  | .adminServiceReturn c => some (rowCmd 0x0006 c)
  | .adminShutdown c => some (rowCmd 0x0007 c)
  | .adminFwUpdate c => some (rowCmd 0x0010 c)
  | .adminFwActivate c => some (rowCmd 0x0011 c)
  | .adminReset c => some (rowSet 0x0012 0x0000 c)
  | .adminResetTime c => some (rowSet 0x0012 0x0001 c)
  | .adminResetCold c => some (rowSet 0x0012 0x0002 c)
  | .adminProgramLoad c => some (rowCmd 0x0013 c)
  | .adminProgramRemove c => some (rowCmd 0x0014 c)
  | .adminAppletLoad c => some (rowSet 0x0015 0x0001 c)
  | .adminAppletRemove c => some (rowSet 0x0015 0x0002 c)
  | .adminCustodianEnrol c => some (rowCmd 0x0016 c)
  | .adminCustodianRevoke c => some (rowCmd 0x0017 c)
  | .adminPolicySet c => some (rowSet 0x0018 0x0001 c)
  | .adminPublisherSet c => some (rowSet 0x0018 0x0002 c)
  | .keyLoad c => some (rowCmd 0x1001 c)
  | .keySave c => some (rowCmd 0x1002 c)
  | .keyAttrGet c => some (rowCmd 0x1003 c)
  | .keyDerive c => some (rowCmd 0x1004 c)
  | .keyMeterGet c => some (rowCmd 0x1005 c)
  | .keyCheckValue c => some (rowCmd 0x1006 c)
  | .keyGenerate c => some (rowCmd 0x1010 c)
  | .keyImport c => some (rowCmd 0x1011 c)
  | .keyExport c => some (rowCmd 0x1012 c)
  | .keyDelete c => some (rowCmd 0x1013 c)
  | .keyAttrSet c => some (rowCmd 0x1014 c)
  | .keyComponent c => some (rowCmd 0x1015 c)
  | .keyMeterSet c => some (rowCmd 0x1016 c)
  | .runProgram c => some (rowCmd 0x2001 c)
  | .runQuery c => some (rowCmd 0x2002 c)
  | .symEncrypt c => some (rowCmd 0x3001 c)
  | .symDecrypt c => some (rowCmd 0x3002 c)
  | .symStream c => some (rowCmd 0x3003 c)
  | .symMacGen c => some (rowCmd 0x3004 c)
  | .symMacVerify c => some (rowCmd 0x3005 c)
  | .symPinTranslate c => some (rowCmd 0x3006 c)
  | .symPinVerify c => some (rowCmd 0x3007 c)
  | .symEmvVerify c => some (rowCmd 0x3008 c)
  | .symCvvGen c => some (rowCmd 0x3009 c)
  | .symCvvVerify c => some (rowCmd 0x300A c)
  | .digestOneshot c => some (rowCmd 0x4001 c)
  | .digestUpdate c => some (rowCmd 0x4002 c)
  | .digestFinal c => some (rowCmd 0x4003 c)
  | .digestMac c => some (rowCmd 0x4004 c)
  | .digestMacVerify c => some (rowCmd 0x4005 c)
  | .digestMeasRead c => some (rowCmd 0x4006 c)
  | .digestMeasExtend c => some (rowCmd 0x4007 c)
  | .pkSign c => some (rowCmd 0x5001 c)
  | .pkVerify c => some (rowCmd 0x5002 c)
  | .pkEncaps c => some (rowCmd 0x5003 c)
  | .pkDecaps c => some (rowCmd 0x5004 c)
  | .pkDerive c => some (rowCmd 0x5005 c)
  | .pkEncrypt c => some (rowCmd 0x5006 c)
  | .pkDecrypt c => some (rowCmd 0x5007 c)
  | .rngRead c => some (rowCmd 0x6001 c)
  | .rngRawRead c => some (rowCmd 0x6002 c)
  | .rngRestart c => some (rowCmd 0x6010 c)
  | .rngRawEnable c => some (rowCmd 0x6011 c)
  | .timeStamp c => some (rowCmd 0x7001 c)
  | .timeStatus c => some (rowCmd 0x7002 c)
  | .timePolicy c => some (rowCmd 0x7010 c)
  | .timeScheduleAdd c => some (rowCmd 0x7011 c)
  | .timeScheduleCancel c => some (rowCmd 0x7012 c)
  | .parkStatus c => some (rowCmd 0x8001 c)
  | .parkJoin c => some (rowCmd 0x8010 c)
  | .parkLeave c => some (rowCmd 0x8011 c)
  | .parkEvict c => some (rowCmd 0x8012 c)
  | .parkResync c => some (rowCmd 0x8013 c)
  | .parkKeyAgree c => some (rowCmd 0x8014 c)
  | .tenantVfQuiesce c => some (rowCmd 0x9001 c)
  | .tenantVfResume c => some (rowCmd 0x9002 c)
  | .tenantPerfGrant c => some (rowCmd 0x9003 c)
  | .tenantCreate c => some (rowCmd 0x9010 c)
  | .tenantDelete c => some (rowCmd 0x9011 c)
  | .tenantBindVf c => some (rowCmd 0x9012 c)
  | .tenantUnbindVf c => some (rowCmd 0x9013 c)
  | .tenantQuotaSet c => some (rowCmd 0x9014 c)
  | .tenantVfSave c => some (rowCmd 0x9015 c)
  | .tenantVfRestore c => some (rowCmd 0x9016 c)
  | .lifeStatus c => some (rowCmd 0xA001 c)
  | .lifeTransition c => some (rowCmd 0xA010 c)
  | .lifeDebugOpen c => some (rowCmd 0xA011 c)
  | .lifeDebugClose c => some (rowCmd 0xA012 c)
  | .lifeTamperSet c => some (rowCmd 0xA013 c)
  | .lifeRecommission c => some (rowCmd 0xA014 c)
  | .eventRead c => some (rowCmd 0xB001 c)
  | .eventClear c => some (rowCmd 0xB010 c)
  | .perfRead c => some (rowCmd 0xC001 c)
  | .perfWindowSet c => some (rowCmd 0xC002 c)
  | .keySaveCold c => some (rowCmd 0x1002 { c with desc := { c.desc with select := c.desc.select ||| 0x20000 } })
  | _ => none

/-- What the completion of a host command touches: its queue pair, the tenant view, records, counters, what is sent. -/
def Posting (s t : State) : Prop :=
  t = { s with gth := t.gth, ten := t.ten, evt := t.evt, pmc := t.pmc, out := t.out }
    ∧ { t.gth with qp := s.gth.qp } = s.gth ∧ { t.ten with vf := s.ten.vf } = s.ten

/-- It completes with status OK. -/
def commits (x : Cmd) (s t : State) : Prop := completed x 0 0 0 0 [] s t

/-- It completes with a status and a detail, and changes nothing. -/
def fails (x : Cmd) (e : Nat × Nat) (s t : State) : Prop := completed x e.1 e.2 0 0 [] s t ∧ Posting s t

/-- No critical command is in the keeper world (R26). -/
def keeperFree (s : State) : Bool :=
  s.aut.mailbox == [] && !keeperHeld s && s.aut.starts == [] && s.aut.startReady.isNone

/-- A critical row whose command, judged in `s`, reaches the keeper world, which is free: the command as the checks see it, and
the state in which its authority block is checked. -/
def reachesKeeper (c : Cmd) (s : State) (x : Cmd) (u : State) : Prop :=
  ready c s = true ∧ isCritical c.desc.opcode = true ∧ c.dma ≠ .payloadFails ∧ c.dma ≠ .authFails ∧ keeperFree s = true
    ∧ x = seen c s ∧ u = pmcDev (counted x s) 167 1

/-- The state past checks 1 to 5 of a block in the normal form: its counter stored, the tick of check 6, and the tokens that
do not count (R98, R107); with the custodians whose approvals count. -/
def checked (x : Cmd) (u v : State) (l : List Nat) : Prop :=
  let a := authParse x.auth
  authForm u x.desc.opcode = .normal ∧ authCheck1 u x a = .ok () ∧ authCheck23 u x a = .ok () ∧ authCheck4 u a = .ok ()
    ∧ (∀ i, i < a.tokens → tokenForm (tokenAt x i) = true)
    ∧ ∃ w r, w = { setCounter u (channelIx a) a.counter with
          aut := { (setCounter u (channelIx a) a.counter).aut with check6 := now u } }
        ∧ r = countTokens w x (sha3_256 (authMessage x a)) (now u) a.tokens 0 ([], 0)
        ∧ v = { w with aut := { w.aut with tokenReject := satAdd 32 w.aut.tokenReject r.2 } }
        ∧ l = channelApproval v x a r.1

/-- The state in which the change of an approved critical command is made (R98, R103, R425). -/
def approved (x : Cmd) (u v : State) : Prop :=
  (authForm u x.desc.opcode = .factory ∧ authCheck1 u x (authParse x.auth) = .ok ()
    ∧ v = { u with aut := { u.aut with check6 := now u } })
  ∨ (x.desc.opcode ≠ 0x0016 ∧ x.desc.opcode ≠ 0x1015 ∧ ∃ l, checked x u v l ∧ required v x ≤ l.length)

/-- A critical row whose command reaches the keeper world and is approved: `P` of the command, the state in which its change
is made, and the next state. -/
def performed (row : Cmd → Cmd) (i : Cmd → Instr) (P : Cmd → State → State → Prop) : Prop :=
  ∀ (c : Cmd) (s0 s : State) (x : Cmd) (u v : State), judgedIn (row c) s0 s → reachesKeeper (row c) s x u → approved x u v →
    answers (i c) s0 (P x v)

/-- A wait at the console begins (R112): what the wait holds, the line the console shows; nothing else changes. -/
def waits (x : Cmd) (required : Nat) (l : List Nat) (presence quorate : Bool) (v t : State) : Prop :=
  t.aut.wait = some { cmd := x, digest := sha3_256 (authMessage x (authParse x.auth)), start := now v,
                      finish := now v + v.aut.policy.consoleWait * 2 ^ 20, required := required, role := (quorumTable v x).2,
                      counted := l, presence := presence, present := [], comps := [], refusals := 0,
                      conSeen := v.aut.consoleUp, quorate := quorate, enrolSlot := none }
    ∧ conNext v 0 0x01 (showText v x (sha3_256 (authMessage x (authParse x.auth)))) ∈ t.out
    ∧ consoleOnly v t

/-- A measurement register after an extend with `e`, the others as before (R266). -/
def extended (i : Nat) (e : Bytes) (s t : State) : Prop :=
  getMeas t i = { value := sha384 ((getMeas s i).value ++ e), count := satInc 32 (getMeas s i).count }
    ∧ (∀ k, k ≠ i → getMeas t k = getMeas s k) ∧ { t.dgs with meas := s.dgs.meas } = s.dgs

/-- A fetched command is considered now: no command of its queue is held, and the link is not blocked. -/
def atGate (c : Cmd) (s : State) : Bool :=
  !s.gth.held.any (fun h => h.cmd.fn == c.fn && h.cmd.queue == c.queue) && !ideBlocked s

/-- FENCE is set and a command of the queue is unfinished (R84). -/
def fenced (c : Cmd) (s : State) : Bool := flFence c && decide (0 < (getQp s (qpIx c.fn c.queue)).inFlight)

/-- Nothing holds the command before its checks. -/
def gateOpen (c : Cmd) (s : State) : Bool :=
  atGate c s && !fenced c s && !horizonPaused s && !(poolCmd c && poolPaused s) && !(isCritical c.desc.opcode && critFull s)

/-- The command is held, behind the commands held before it. -/
def holds (c : Cmd) (why : HoldWhy) (s t : State) : Prop :=
  Quiet { s with gth := { s.gth with
    held := s.gth.held ++ [{ cmd := c, why := why, since := s.tick, tick := now s, plan := none }] } } t

/-- It is refused at acceptance (R19): completed at once with the error; no job, no key, no memory of it is left. -/
def refused (x : Cmd) (e : Nat × Nat) (s t : State) : Prop :=
  completed x e.1 e.2 0 0 [] s t ∧ Answering { s with kst := t.kst } t ∧ t.gth.jobs = s.gth.jobs ∧ t.gth.held = s.gth.held
    ∧ t.kst.objs = s.kst.objs

/-! Sequences of commands -/

/-- A tick brings nothing but time: no completion waits for its tail record, no start, transition, job, entry of the schedule
or applet is under way, and the keeper world has nothing to take up. -/
def nothingDue (s : State) : Bool :=
  s.gth.qp.all (fun e => !e.2.tailDue && !e.2.msiDue) && s.lcs.step.isNone && s.boot.start.isNone && s.aut.mailbox == []
    && s.aut.starts == [] && s.aut.startReady.isNone && s.gth.jobs == [] && s.sdl.sched == [] && s.ldg.parts == []

/-- As many steps as `n` from a state, where each answers a next state. -/
def stepsTo : Nat → State → Option State
  | 0, s => some s
  | n + 1, s => match step s with
    | .next t => stepsTo n t
    | .fault _ => none
    | .refused _ => none

/-- The commands of a list take effect one after the other, each on a state whose queue holds those behind it. -/
def takesAll : List Instr → State → State → Prop
  | [], s, t => t = s
  | i :: r, s, t => ∃ u, exec i { s with pending := r } = .next u ∧ u.pending = r ∧ takesAll r u t

/-- Every command that waits is well formed. -/
def queueWf (s : State) : Bool := s.pending.all (fun i => i.wf)

/-- An event record as it is written (R462). -/
def written (s : State) (ty src sev : Nat) (tn : Option Nat) (pay : Bytes) (seq : Nat) (r : EvtRec) : Prop :=
  r.type = ty ∧ r.source = src ∧ r.severity = sev ∧ r.repeats = 1 ∧ r.firstHours = s.peat.hours ∧ r.lastHours = s.peat.hours
    ∧ r.cycles = s.peat.cycles ∧ r.unit = unitByte s ∧ r.flags % 2 = (if tn.isSome then 1 else 0) ∧ r.tenant = tn.getD 0
    ∧ r.grid = recGrid s ∧ r.seq = seq ∧ r.payload = pay ∧ r.flushed = false

end Sys2Proof.Machine
end

