-- ==== Sys2Proof/Machine/ClaimsIsa.lean ====
section
/-! DEFINITION. One claim for each shape of Isagil instruction (07_isagil_instructions.md R190 to R219): the command named
stands at the PC of its engine, its operands are of the forms and kinds the rule gives, and it retires with the result
stated and nothing else of the engine changed. -/

namespace Sys2Proof.Machine

open Sys2Proof

/-! The operands of a word -/

def sA (x : IsaX) (s : State) : SReg := sget (engOf x s) (wS1 x.w)
def sB (x : IsaX) (s : State) : SReg := sget (engOf x s) (wS2 x.w)
def vA (x : IsaX) (s : State) : VReg := vget (engOf x s) (wS1 x.w)
def vB (x : IsaX) (s : State) : VReg := vget (engOf x s) (wS2 x.w)
/-- The old destination. -/
def vOld (x : IsaX) (s : State) : VReg := vget (engOf x s) (wD x.w)
/-- The q register of the word. -/
def qX (x : IsaX) (s : State) : QReg := qget (engOf x s) (wQ x.w)

/-- The governing predicate of the word. -/
def pG (x : IsaX) (s : State) : PReg := pget (engOf x s) (wPs x.w)

/-- Every source has the kind an instruction needs. -/
def kindsFit (k : Kind) (ts : List Tag) : Bool := ts.all (kindOk k)
def anySecret (ts : List Tag) : Bool := ts.any (·.secret)

/-- The tag of a computed result of kind `k`: secret if a source is, or in a shuffled body (R159, R191, R196). -/
def made (g : Eng) (k : Kind) (ts : List Tag) : Tag := forceTag g (outTag k ts) k

/-- The tag of a value carried from sources of kind `k`: SEALED carried too (R164, R191). -/
def carried (g : Eng) (k : Kind) (ts : List Tag) : Tag := forceTag g (carryTag k ts) .bool

/-- The row whose words are `f` of the words of one, two or three rows. -/
def words1 (m : Mode) (a : Row) (f : Nat → Nat) : Row := wordRow m (fun j => f (word m a j))
def words2 (m : Mode) (a b : Row) (f : Nat → Nat → Nat) : Row := wordRow m (fun j => f (word m a j) (word m b j))
def words3 (m : Mode) (a b c : Row) (f : Nat → Nat → Nat → Nat) : Row :=
  wordRow m (fun j => f (word m a j) (word m b j) (word m c j))

/-! Scalars (R193, R216, R217) -/

/-- The scalar instruction retires at the cost of R189 with sD written. -/
def scalarRetires (i : Instr) (x : IsaX) (s : State) (c : Cost) (ts : List Tag) (v : Nat) (t : Tag) : Prop :=
  retires i x s (fun g' => wroteS (engOf x s) g' (wD x.w) v t ∧ g'.cycles = (engOf x s).cycles + costs (engOf x s) c ts false)

/-- sD := `f` of two scalars. -/
def scalarClaim (i : IsaX → Instr) (op : IsaOp) (c : Cost) (need : Option Kind) (k : Kind) (f : Nat → Nat → Nat) : Prop :=
  ∀ (x : IsaX) (s : State), atPc op x s = true → mayRun (engOf x s) c [(sA x s).tag, (sB x s).tag] false = true →
    wD x.w < 16 → wS1 x.w < 16 → wS2 x.w < 16 → wQ x.w = 0 → wPs x.w = 0 →
    (∀ n, need = some n → kindsFit n [(sA x s).tag, (sB x s).tag] = true) →
    scalarRetires (i x) x s c [(sA x s).tag, (sB x s).tag] (f (sA x s).val.toNat (sB x s).val.toNat)
      (made (engOf x s) k [(sA x s).tag, (sB x s).tag])

/-- sD := sS1 shifted by the public count in sS2; a count of 28 or more gives 0. -/
def scalarShiftClaim (i : IsaX → Instr) (op : IsaOp) (f : Nat → Nat → Nat) : Prop :=
  ∀ (x : IsaX) (s : State), atPc op x s = true →
    wD x.w < 16 → wS1 x.w < 16 → wS2 x.w < 16 → wQ x.w = 0 → wPs x.w = 0 →
    (sB x s).tag.secret = false → kindOk .bool (sA x s).tag = true →
    scalarRetires (i x) x s (.linear, 1, 2, 3) [(sA x s).tag]
      (if 28 ≤ (sB x s).val.toNat then 0 else f (sA x s).val.toNat (sB x s).val.toNat)
      (made (engOf x s) .bool [(sA x s).tag])

/-- sD := `f` of the scalar sS1, for an instruction whose S2, Q and PS are reserved. -/
def scalarMoveClaim (i : IsaX → Instr) (op : IsaOp) (c : Cost) (ok : IsaX → State → Bool) (f : Nat → Nat)
    (tag : IsaX → State → Tag) : Prop :=
  ∀ (x : IsaX) (s : State), atPc op x s = true → mayRun (engOf x s) c [(sA x s).tag] false = true →
    wD x.w < 16 → wS1 x.w < 16 → wS2 x.w = 0 → wQ x.w = 0 → wPs x.w = 0 → ok x s = true →
    scalarRetires (i x) x s c [(sA x s).tag] (f (sA x s).val.toNat) (tag x s)

/-! Predicates (R199) -/

def pA (x : IsaX) (s : State) : PReg := pget (engOf x s) (wS1 x.w)
def pB (x : IsaX) (s : State) : PReg := pget (engOf x s) (wS2 x.w)

/-- The instruction retires at the cost of R189 with pD written, every bit of it. -/
def predicateRetires (i : Instr) (x : IsaX) (s : State) (c : Cost) (ts : List Tag) (v : BitVec 16) (t : Tag) : Prop :=
  retires i x s (fun g' => wroteP (engOf x s) g' (wD x.w) v t ∧ g'.cycles = (engOf x s).cycles + costs (engOf x s) c ts false)

/-- pD := `f` of two predicates. -/
def predicateClaim (i : IsaX → Instr) (op : IsaOp) (c : Cost) (f : BitVec 16 → BitVec 16 → BitVec 16) : Prop :=
  ∀ (x : IsaX) (s : State), atPc op x s = true → mayRun (engOf x s) c [(pA x s).tag, (pB x s).tag] false = true →
    wD x.w < 4 → wS1 x.w < 4 → wS2 x.w < 4 → wQ x.w = 0 → wPs x.w = 0 →
    predicateRetires (i x) x s c [(pA x s).tag, (pB x s).tag] (f (pA x s).val (pB x s).val)
      (made (engOf x s) .bool [(pA x s).tag, (pB x s).tag])

/-- Every bit of pD is written: the governing bit of each word for which `f` holds, 0 elsewhere (R200). -/
def compareClaim (i : IsaX → Instr) (op : IsaOp) (ok : IsaX → State → Bool) (src : IsaX → State → List Tag)
    (f : IsaX → State → Nat → Bool) : Prop :=
  ∀ (x : IsaX) (s : State), atPc op x s = true → mayRun (engOf x s) (.gadget, 1, 6, 14) (src x s) false = true →
    wD x.w < 4 → wPs x.w = 0 → ok x s = true →
    retires (i x) x s (fun g' =>
      g'.cycles = (engOf x s).cycles + costs (engOf x s) (.gadget, 1, 6, 14) (src x s) false
        ∧ ∃ v, wroteP (engOf x s) g' (wD x.w) v (made (engOf x s) .bool (src x s))
          ∧ ∀ b, b < 16 → v.getLsbD b =
              (List.range (wordCount (qX x s).mode)).any (fun j => govBit (qX x s).mode j == b && f x s j))

/-! Vectors under a governing predicate (R190, R200 to R208) -/

/-- vD := the row, under the governing predicate; the result is of kind `k`, which every source has. -/
def vectorClaim (i : IsaX → Instr) (op : IsaOp) (c : IsaX → State → Cost) (ok : IsaX → State → Bool) (m : IsaX → State → Mode)
    (k : IsaX → State → Kind) (src : IsaX → State → List Tag) (row : IsaX → State → Row) : Prop :=
  ∀ (x : IsaX) (s : State), atPc op x s = true → mayRun (engOf x s) (c x s) (src x s) (pG x s).tag.secret = true → ok x s = true →
    kindsFit (k x s) (src x s) = true → govFits (k x s) (engOf x s) x.w (wD x.w) = true →
    retires (i x) x s (fun g' => wroteV (engOf x s) g' [wD x.w]
        (fun d => governed (m x s) (engOf x s) x.w d (row x s))
        (fun d => anySecret (src x s) || govSecret (engOf x s) x.w d)
      ∧ (psFull (pG x s) = true → (vget g' (wD x.w)).tag = made (engOf x s) (k x s) (src x s))
      ∧ g'.cycles = (engOf x s).cycles + costs (engOf x s) (c x s) (src x s) (pG x s).tag.secret)

/-- The same where kind and SEALED are carried from sources of one kind (R191), which a secret old destination must have where
it counts as a source; kind L at 1 / 2 / 3. -/
def carryClaim (i : IsaX → Instr) (op : IsaOp) (ok : IsaX → State → Bool) (m : IsaX → State → Mode)
    (src : IsaX → State → List Tag) (row : IsaX → State → Row) : Prop :=
  ∀ (x : IsaX) (s : State) (k : Kind), atPc op x s = true →
    mayRun (engOf x s) (.linear, 1, 2, 3) (src x s) (pG x s).tag.secret = true → ok x s = true →
    joinKind (src x s) = some k →
    (anySecret (src x s) = true → k ≠ .any → govFits k (engOf x s) x.w (wD x.w) = true) →
    retires (i x) x s (fun g' => wroteV (engOf x s) g' [wD x.w]
        (fun d => governed (m x s) (engOf x s) x.w d (row x s))
        (fun d => anySecret (src x s) || govSecret (engOf x s) x.w d)
      ∧ (psFull (pG x s) = true → (vget g' (wD x.w)).tag = carried (engOf x s) k (src x s))
      ∧ g'.cycles = (engOf x s).cycles + costs (engOf x s) (.linear, 1, 2, 3) (src x s) (pG x s).tag.secret)

/-- The registers `ds` are written whole, whatever the predicate; the new rows and tags. -/
def writeClaim (i : IsaX → Instr) (op : IsaOp) (c : Cost) (ok : IsaX → State → Bool) (ds : IsaX → State → List Nat)
    (src : IsaX → State → List Tag) (row : IsaX → State → Nat → Row) (tag : IsaX → State → Nat → Tag) : Prop :=
  ∀ (x : IsaX) (s : State), atPc op x s = true → mayRun (engOf x s) c (src x s) false = true → ok x s = true →
    retires (i x) x s (fun g' =>
      wroteV (engOf x s) g' (ds x s) (row x s) (fun d => (tag x s d).secret)
      ∧ (∀ d ∈ ds x s, (vget g' d).tag = tag x s d)
      ∧ g'.cycles = (engOf x s).cycles + costs (engOf x s) c (src x s) false)

/-- Two registers are written, each under the governing predicate; all sources `src` have kind `k`; the cost counts `cost`. -/
def pairClaim (i : IsaX → Instr) (op : IsaOp) (c : IsaX → State → Cost) (ok : IsaX → State → Bool)
    (m : IsaX → State → Mode) (k : IsaX → State → Kind) (d2 : IsaX → Nat) (src : IsaX → State → List Tag)
    (row1 row2 : IsaX → State → Row) : Prop :=
  ∀ (x : IsaX) (s : State), atPc op x s = true →
    mayRun (engOf x s) (c x s) (src x s) (pG x s).tag.secret = true → ok x s = true →
    kindsFit (k x s) (src x s) = true → govFits (k x s) (engOf x s) x.w (wD x.w) = true →
    govFits (k x s) (engOf x s) x.w (d2 x) = true →
    retires (i x) x s (fun g' => wroteV (engOf x s) g' [wD x.w, d2 x]
        (fun d => governed (m x s) (engOf x s) x.w d (if d = wD x.w then row1 x s else row2 x s))
        (fun d => anySecret (src x s) || govSecret (engOf x s) x.w d)
      ∧ (psFull (pG x s) = true → ∀ d ∈ [wD x.w, d2 x], (vget g' d).tag = made (engOf x s) (k x s) (src x s))
      ∧ g'.cycles = (engOf x s).cycles + costs (engOf x s) (c x s) (src x s) (pG x s).tag.secret)

/-- The accumulator vD, vD + 1 and the count sS2 are written (R204). -/
def sampleClaim (i : IsaX → Instr) (op : IsaOp) (c : Cost) (ok : IsaX → State → Bool) (src : IsaX → State → List Tag)
    (acc : IsaX → State → Nat → Nat) (count : IsaX → State → Nat) : Prop :=
  ∀ (x : IsaX) (s : State), atPc op x s = true → mayRun (engOf x s) c (src x s) false = true →
    wD x.w % 2 = 0 → wS2 x.w < 16 → ok x s = true → kindsFit (arithOf (qX x s)) [(vOld x s).tag, (vget (engOf x s) (wD x.w + 1)).tag] = true →
    kindOk arithS (sB x s).tag = true →
    retires (i x) x s (fun g' =>
      vget g' (wD x.w) = { val := wordRow (qX x s).mode (acc x s), tag := made (engOf x s) (arithOf (qX x s)) (src x s) }
      ∧ vget g' (wD x.w + 1) = { val := wordRow (qX x s).mode (fun j => acc x s (j + wordCount (qX x s).mode)),
                                 tag := made (engOf x s) (arithOf (qX x s)) (src x s) }
      ∧ sget g' (wS2 x.w) = { val := BitVec.ofNat 28 (count x s), tag := made (engOf x s) arithS (src x s) }
      ∧ (∀ r, r ≠ wD x.w → r ≠ wD x.w + 1 → vget g' r = vget (engOf x s) r)
      ∧ (∀ r, r ≠ wS2 x.w → sget g' r = sget (engOf x s) r)
      ∧ { steady (engOf x s) g' with v := (engOf x s).v, sc := (engOf x s).sc, everSecret := (engOf x s).everSecret } = engOf x s
      ∧ goesOn (engOf x s) g' ∧ g'.cycles = (engOf x s).cycles + costs (engOf x s) c (src x s) false)

/-! Operand memory, ports, keys, input and output (R209 to R215) -/

/-- Away from the END of a loop the PC moves to the next word, loops stay, and, where `on`, aA moves by `inc` modulo 2,048. -/
def stepsOver (g g' : Eng) (w : BitVec 32) (on : Bool) (inc : Int) : Prop :=
  g'.fnt = { g.fnt with rowsDrawn := g'.fnt.rowsDrawn }
    ∧ (atEnd g = false → g'.pc = g.pc + 1 ∧ g'.loops = g.loops
      ∧ ∀ r, (aget g' r : Int) = if on && r == wA w then ((aget g r : Int) + inc) % 2048 else (aget g r : Int))

/-- Where profile `p` masks, the fountain is ready. -/
def masksReady (g : Eng) : Bool := g.profile == 0 || fntReady g

/-- Registers `d` to `d + n - 1` hold the byte string, 28 bytes each, with one tag. -/
def groupHolds (g : Eng) (d n : Nat) (b : Bytes) (t : Tag) : Prop :=
  ∀ k, k < n → vget g (d + k) = { val := bytesRow ((b.drop (28 * k)).take 28), tag := t }

/-- Of pavilion `p` what its shared cores hold may differ (R13). -/
def coresOf (p : Nat) (t u : State) : State := setPav u p { getPav u p with coreState := (getPav t p).coreState }

/-- A core of the engine's pavilion computes `f` of the state group and the block group (R211, R212). -/
def coreClaim (i : IsaX → Instr) (op : IsaOp) (c : Cost) (ns nb : Nat) (ok : IsaX → State → Bool) (f : Bytes → Bytes → Bytes) :
    Prop :=
  ∀ (x : IsaX) (s : State),
    let g := engOf x s
    let ts := groupTags g (wD x.w) ns ++ groupTags g (wS1 x.w) nb
    atPc op x s = true → mayRun g c ts false = true → wS2 x.w = 0 → wQ x.w = 0 → wPs x.w = 0 → ok x s = true →
    kindsFit .bool ts = true →
    retiresIn (coresOf (x.e.val / 17)) (i x) x s (fun g' =>
      groupHolds g' (wD x.w) ns (f (groupBytes g (wD x.w) ns) (groupBytes g (wS1 x.w) nb)) (made g .bool ts)
      ∧ (∀ r, r < wD x.w ∨ wD x.w + ns ≤ r → vget g' r = vget g r)
      ∧ { steady g g' with v := g.v, everSecret := g.everSecret, want := g.want } = g ∧ g'.want = .none
      ∧ goesOn g g' ∧ g'.cycles = g.cycles + costs g c ts false)

/-- The cipher core computes the new bytes of vD from the old vD and vS1; the rest of vD is zero, the result secret (R213). -/
def cipherClaim (i : IsaX → Instr) (op : IsaOp) (ok : CipherCore → Bool) (cyc : Eng → CipherCore → Nat) (old : Bool)
    (f : CipherCore → Bytes → Bytes → Bytes) : Prop :=
  ∀ (x : IsaX) (s : State) (c : CipherCore), atPc op x s = true → masksReady (engOf x s) = true →
    wS2 x.w = 0 → wQ x.w = 0 → wPs x.w = 0 → portOn (engOf x s) 6 = true → (engOf x s).core = some c → ok c = true →
    kindOk .bool (vA x s).tag = true → (old = true → kindOk .bool (vOld x s).tag = true) →
    retires (i x) x s (fun g' =>
      wroteV (engOf x s) g' [wD x.w]
        (fun _ => bytesRow (f c (rowBytes (vOld x s).val) (rowBytes (vA x s).val))) (fun _ => true)
      ∧ (vget g' (wD x.w)).tag.kind = .bool ∧ g'.everSecret = true
      ∧ g'.cycles = (engOf x s).cycles + cyc (engOf x s) c)

/-- Key material lands in the next key row of its position: secret, SEALED, BOOL; beyond the material zero (R214). Before
the delivery has ended the instruction waits, and has asked for it. -/
def keyRowClaim (i : IsaX → Instr) (op : IsaOp) (b : Bool) : Prop :=
  ∀ (x : IsaX) (s : State),
    let g := engOf x s
    let k := keyPort g b
    let en := keyEntry g b
    let r := en.firstRow + k.landed
    atPc op x s = true → masksReady g = true → kldReserved x.w = false → inShuffle g = false → portOn g 2 = true →
    keyDeclared g b = true → k.landed < en.rows →
    (k.valid = true → retires (i x) x s (fun g' =>
      rowGet g' r = { val := bytesRow ((k.material.drop (28 * k.landed)).take 28),
                      kind := if rowSecret g r then .bool else .none, sealed := rowSecret g r }
      ∧ (∀ n, n ≠ r → rowGet g' n = rowGet g n) ∧ keyPort g' b = { k with landed := k.landed + 1 }
      ∧ { setKeyPort (steady g g') b k with rows := g.rows, everSecret := g.everSecret } = g
      ∧ goesOn g g' ∧ g'.cycles = g.cycles + byProfile g 4 6 8))
    ∧ (k.valid = false → answers (i x) s (fun t => engOf x t = { setKeyPort g b { k with requested := true } with grant := none }
      ∧ (∀ n, n ≠ x.e.val → getEng t n = getEng s n) ∧ Quiet { s with eng := t.eng } t))

/-- The cipher core takes the whole material, replacing key and H (R214). -/
def keyCoreClaim (i : IsaX → Instr) (op : IsaOp) (b : Bool) : Prop :=
  ∀ (x : IsaX) (s : State),
    let g := engOf x s
    let k := keyPort g b
    atPc op x s = true → masksReady g = true → kldReserved x.w = false → inShuffle g = false →
    portOn g 2 = true → portOn g 6 = true → keyDeclared g b = true →
    (portAes k.alg || (portTdea k.alg && g.profile != 2)) = true → k.valid = true →
    retires (i x) x s (fun g' =>
      g'.core = some { alg := k.alg, key := k.material, hash := none } ∧ g'.everSecret = true
      ∧ { steady g g' with core := g.core, everSecret := g.everSecret } = g
      ∧ goesOn g g' ∧ g'.cycles = g.cycles + byProfile g 64 96 128)

/-- The next 28 bytes of a buffer, zero-filled, land in register vV or row aA; the pointer advances by 28 (R215). -/
def inputClaim (i : IsaX → Instr) (op : IsaOp) (buf : Eng → Bytes) (len ptr : Eng → Nat) (secret : Eng → Bool)
    (unmoved : Eng → Eng → Eng) : Prop :=
  ∀ (x : IsaX) (s : State),
    let g := engOf x s
    let sec := secret g
    let a := aget g (wA x.w)
    let r := bytesRow (padTo 28 ((((buf g).take (len g)).drop (ptr g)).take 28))
    atPc op x s = true → (sec = true → masksReady g = true) → pReserved x.w = false → wNm1 x.w = 27 →
    inShuffle g = false → portOn g 0 = true → ptr g < len g →
    (wRs x.w = true → a < rowLimit g ∧ rowSecret g a = sec) →
    retires (i x) x s (fun g' =>
      (wRs x.w = false → vget g' (wD x.w) = { val := r, tag := made g .bool [{ secret := sec, kind := .bool, sealed := false }] }
        ∧ g'.rows = g.rows)
      ∧ (wRs x.w = true → rowGet g' a = { val := r, kind := if sec then .bool else .none, sealed := false }
        ∧ (∀ n, n ≠ a → rowGet g' n = rowGet g n) ∧ g'.v = g.v)
      ∧ (∀ n, n ≠ wD x.w → vget g' n = vget g n)
      ∧ ptr g' = ptr g + 28
      ∧ { unmoved g (steady g g') with v := g.v, rows := g.rows, everSecret := g.everSecret } = g
      ∧ stepsOver g g' x.w (wPi x.w) 1 ∧ g'.cycles = g.cycles + (if sec then byProfile g 4 6 8 else 4))

/-- Bytes 0 to NM1 of register vV or row aA are appended to output staging, of which a full half of 16 KiB drains (R170, R215,
R217). -/
def outputClaim (i : IsaX → Instr) (op : IsaOp) (ok : Eng → Tag → Bool) (cyc : Eng → Tag → Nat) : Prop :=
  ∀ (x : IsaX) (s : State),
    let g := engOf x s
    let a := aget g (wA x.w)
    let src : Row × Tag := if wRs x.w then ((rowGet g a).val, rowTag g a) else ((vget g (wD x.w)).val, (vget g (wD x.w)).tag)
    atPc op x s = true → pReserved x.w = false → wNm1 x.w < 28 → inShuffle g = false → portOn g 1 = true →
    (wRs x.w = true → a < rowLimit g) → ok g src.2 = true → (engOutput g).length + wNm1 x.w + 1 ≤ g.outLimit →
    retires (i x) x s (fun g' =>
      engOutput g' = engOutput g ++ (rowBytes src.1).take (wNm1 x.w + 1)
      ∧ (g.staging.length < 16384 → g'.staging.length < 16384 ∧ g'.drained.length % 16384 = g.drained.length % 16384)
      ∧ { steady g g' with staging := g.staging, drained := g.drained } = g
      ∧ stepsOver g g' x.w (wPi x.w) 1 ∧ g'.cycles = g.cycles + cyc g src.2)

/-! Control (R194 to R198, R219) -/

/-- A taken branch to `t` closes the innermost loop: END + 1, and no call suspends END detection. -/
def closes (g : Eng) (t : Nat) : Bool := match g.loops with
  | [] => false
  | f :: _ => f.depth == g.calls.length && t == f.last + 1

/-- A taken branch to `t` keeps the loop structure: no loop, a call of the body, a word of the body, or END + 1. -/
def staysNested (g : Eng) (t : Nat) : Bool := match g.loops with
  | [] => true
  | f :: _ => f.depth != g.calls.length || decide (f.first ≤ t ∧ t ≤ f.last + 1)

/-- A branch: outside shuffled bodies and END words, public condition, TARGET within the overlay. -/
def branchClaim (i : IsaX → Instr) (op : IsaOp) (regs : Nat) (secret taken : IsaX → State → Bool) : Prop :=
  ∀ (x : IsaX) (s : State), atPc op x s = true → wD x.w < regs → bitsOf x.w.toNat 17 12 = 0 →
    inShuffle (engOf x s) = false → atEnd (engOf x s) = false → secret x s = false →
    wTarget x.w < (engOf x s).imem.length → (taken x s = true → staysNested (engOf x s) (wTarget x.w) = true) →
    retires (i x) x s (fun g' =>
      g'.pc = (if taken x s then wTarget x.w else (engOf x s).pc + 1)
      ∧ g'.loops = (if taken x s && closes (engOf x s) (wTarget x.w) then (engOf x s).loops.tail else (engOf x s).loops)
      ∧ g'.cycles = (engOf x s).cycles + 1
      ∧ { g' with pc := (engOf x s).pc, loops := (engOf x s).loops, cycles := (engOf x s).cycles, aNat := (engOf x s).aNat }
          = engOf x s)

/-- A loop may open at the PC: END behind it and within the overlay, fewer than four loops open, nested in the enclosing
one. -/
def mayOpen (x : IsaX) (s : State) : Bool :=
  let g := engOf x s
  !inShuffle g && !atEnd g && decide (g.pc < wTarget x.w ∧ wTarget x.w < g.imem.length ∧ g.loops.length < 4)
    && (match g.loops with
      | [] => true
      | f :: _ => f.depth != g.calls.length || decide (wTarget x.w ≤ f.last))

/-- The count of a scalar loop: reserved bits zero, public, within its bound. -/
def countOk (limit : Nat) (x : IsaX) (s : State) : Bool :=
  bitsOf x.w.toNat 23 16 == 0 && !(sget (engOf x s) (wScnt x.w)).tag.secret
    && decide ((sget (engOf x s) (wScnt x.w)).val.toNat ≤ limit)

/-- A loop of `n` iterations, `n` at least 1, opens. -/
def loopClaim (i : IsaX → Instr) (op : IsaOp) (shuffled : Bool) (n : IsaX → State → Nat) (ok : IsaX → State → Bool) : Prop :=
  ∀ (x : IsaX) (s : State), atPc op x s = true → mayOpen x s = true → ok x s = true → n x s ≠ 0 →
    (shuffled = true → (engOf x s).profile ≠ 0 → fntReady (engOf x s) = true) →
    retires (i x) x s (fun g' => ∃ f, g'.loops = f :: (engOf x s).loops
      ∧ f.first = (engOf x s).pc + 1 ∧ f.last = wTarget x.w ∧ f.idx = 0 ∧ f.count = n x s ∧ f.shuffled = shuffled
      ∧ f.depth = (engOf x s).calls.length
      ∧ (if shuffled && (engOf x s).profile != 0 then f.order.Perm (List.range (n x s)) else f.order = [])
      ∧ g'.pc = (engOf x s).pc + 1 ∧ g'.cycles = (engOf x s).cycles + 1
      ∧ { g' with pc := (engOf x s).pc, loops := (engOf x s).loops, cycles := (engOf x s).cycles, aNat := (engOf x s).aNat,
                  fnt := (engOf x s).fnt } = engOf x s)

/-- A scalar loop whose count is 0 runs no iteration: the PC goes to END + 1, unless END is that of the enclosing loop. -/
def skipClaim (i : IsaX → Instr) (op : IsaOp) : Prop :=
  ∀ (x : IsaX) (s : State), atPc op x s = true → mayOpen x s = true → countOk 0 x s = true →
    (match (engOf x s).loops with
      | [] => true
      | f :: _ => f.depth != (engOf x s).calls.length || f.last != wTarget x.w) = true →
    retires (i x) x s (fun g' => g' = { engOf x s with pc := wTarget x.w + 1, cycles := (engOf x s).cycles + 1 })

/-- aD := the value modulo 2,048, in 1 cycle; nothing else of the engine changes but, in a shuffled body, the note of the
registers that `aset.li` wrote. -/
def addressClaim (i : IsaX → Instr) (op : IsaOp) (ok : IsaX → State → Bool) (v : IsaX → State → Int) : Prop :=
  ∀ (x : IsaX) (s : State), atPc op x s = true → wD x.w < 8 → ok x s = true →
    retires (i x) x s (fun g' =>
      (atEnd (engOf x s) = false → (aget g' (wD x.w) : Int) = v x s % 2048
        ∧ (∀ r, r ≠ wD x.w → aget g' r = aget (engOf x s) r) ∧ g'.pc = (engOf x s).pc + 1
        ∧ g'.loops.map (fun f => { f with aWritten := [] }) = (engOf x s).loops.map (fun f => { f with aWritten := [] }))
      ∧ g'.cycles = (engOf x s).cycles + 1 ∧ steady (engOf x s) g' = engOf x s)

/-- Job `n` has ended at a halt of engine `x.e`: it holds the status, the detail, and with OK the output `out` where that
fits the output room; the engine goes to CLEARING; beside what the job still held nothing differs from `u`. -/
def endsAt (x : IsaX) (s : State) (n : Nat) (j : Job) (st dt : Nat) (early : Bool) (out : Bytes) (u t : State) : Prop :=
  (engOf x t).st = .clearing ∧ (engOf x t).job = none ∧ (engOf x t).grant = none
  ∧ (engOf x t).cycles = (engOf x s).cycles + 1
  ∧ (∀ k, k ≠ x.e.val → getEng t k = getEng s k)
  ∧ (∃ j', getJob t n = some j' ∧ j'.phase = .done ∧ j'.cmd = j.cmd
      ∧ (if st = 0 ∧ outRoom j.cmd < out.length then j'.status = 0x0104 ∧ j'.output = [] ∧ j'.required = out.length
        else j'.status = st ∧ j'.output = (if st = 0 then out else [])
          ∧ (if st = 0x0104 then j'.detail = 0 ∧ j'.required = dt else j'.detail = dt))
      ∧ j'.pair = (if verifyOp j.cmd.desc.opcode then engPair (engOf x s) else 0)
      ∧ (j'.due, j'.late) = (if early ∧ now s ≤ j.base + 2 ∧ j.rel ≠ .immediate then (j.base + 2, false)
          else releaseAt j (now s)))
  ∧ (∀ m, m ≠ n → getJob t m = getJob s m)
  ∧ Quiet { u with eng := t.eng, kst := t.kst, dgs := t.dgs,
                   gth := { u.gth with jobs := t.gth.jobs, streams := t.gth.streams } } t

/-- A halt ends the job (R219). With OK what the program returned over the key path becomes a key object first, its handle
behind the output; where it cannot, the job ends with that error and without output (R214, R229, R247). -/
def haltClaim (i : IsaX → Instr) (op : IsaOp) (ok : IsaX → State → Bool) (st dt : IsaX → State → Nat)
    (early : IsaX → State → Bool) : Prop :=
  ∀ (x : IsaX) (s : State) (n : Nat) (j : Job), atPc op x s = true → wD x.w = 0 → wQ x.w = 0 → wPs x.w = 0 →
    ok x s = true → inShuffle (engOf x s) = false → atEnd (engOf x s) = false →
    (st x s = 0 → keyOwed (engOf x s) = false) → (engOf x s).job = some n → getJob s n = some j →
    (st x s ≠ 0 → answers (i x) s (endsAt x s n j (st x s) (dt x s) (early x s) [] s))
    ∧ (∀ u out, st x s = 0 → returnedKey s j (engOf x s) = .ok (u, out) →
        answers (i x) s (endsAt x s n j 0 (dt x s) (early x s) out u))
    ∧ (∀ d, st x s = 0 → returnedKey s j (engOf x s) = .error d → d.1 ≠ 0 → d.1 ≠ 0x0104 →
        answers (i x) s (endsAt x s n j d.1 d.2 (early x s) [] s))

end Sys2Proof.Machine
end

