-- ==== Sys2Proof/Certificates/Slice0/Obligations.lean ====
section
/-! DEFINITION. The statements for the provers. -/

open Sys2Proof Sys2Proof.Machine

/-! Isagil (07_isagil_instructions.md) -/

/-- R193, R189: the scalar arithmetic, logic and comparisons of two registers, modulo 2^28. -/
def Obligations.ScalarArithmetic : Prop :=
  scalarClaim .sadd .sadd (.linear, 1, 2, 3) (some arithS) arithS (fun a b => (a + b) % 2 ^ 28)
  ∧ scalarClaim .ssub .ssub (.linear, 1, 2, 3) (some arithS) arithS (fun a b => (a + 2 ^ 28 - b) % 2 ^ 28)
  ∧ scalarClaim .sand .sand (.gadget2, 1, 4, 9) (some .bool) .bool (fun a b => a &&& b)
  ∧ scalarClaim .sor .sor (.gadget2, 1, 4, 9) (some .bool) .bool (fun a b => a ||| b)
  ∧ scalarClaim .sxor .sxor (.linear, 1, 2, 3) (some .bool) .bool (fun a b => a ^^^ b)
  ∧ scalarClaim .smul .smul (.gadget2, 2, 8, 18) (some arithS) arithS (fun a b => a * b % 2 ^ 28)
  ∧ scalarClaim .seq .seq (.gadget, 2, 8, 18) none .bool (fun a b => if a = b then 1 else 0)
  ∧ scalarClaim .slt .slt (.gadget, 2, 8, 18) none .bool
    (fun a b => if (BitVec.ofNat 28 a).slt (BitVec.ofNat 28 b) then 1 else 0)
  ∧ scalarClaim .sltu .sltu (.gadget, 2, 8, 18) none .bool (fun a b => if a < b then 1 else 0)

/-- R193: shifts by a public count, the move, and the immediates of format I. -/
def Obligations.ScalarMovesAndShifts : Prop :=
  scalarShiftClaim .sshl .sshl (fun a n => a * 2 ^ n % 2 ^ 28)
  ∧ scalarShiftClaim .sshr .sshr (fun a n => a / 2 ^ n)
  ∧ scalarMoveClaim .smov .smov (.linear, 1, 2, 3) (fun _ _ => true) (fun a => a)
    (fun x s => carried (engOf x s) (sA x s).tag.kind [(sA x s).tag])
  ∧ (∀ (x : IsaX) (s : State), atPc .saddi x s = true → wD x.w < 16 → wS1 x.w < 16 → kindOk arithS (sA x s).tag = true →
      scalarRetires (.saddi x) x s (.linear, 1, 2, 3) [(sA x s).tag]
        (((sA x s).val + (BitVec.ofNat 16 (wImm x.w)).signExtend 28).toNat) (made (engOf x s) arithS [(sA x s).tag]))
  ∧ (∀ (x : IsaX) (s : State), atPc .sli x s = true → wD x.w < 16 →
      scalarRetires (.sli x) x s (.linear, 1, 1, 1) [] (((BitVec.ofNat 16 (wImm x.w)).signExtend 28).toNat)
        (made (engOf x s) .bool []))
  ∧ (∀ (x : IsaX) (s : State), atPc .slui x s = true → wD x.w < 16 → wImm x.w < 2 ^ 12 →
      scalarRetires (.slui x) x s (.linear, 1, 1, 1) []
        ((sget (engOf x s) (wD x.w)).val.toNat % 2 ^ 16 + wImm x.w * 2 ^ 16)
        (forceTag (engOf x s) { (sget (engOf x s) (wD x.w)).tag with sealed := false } .bool))

/-- R199: predicate registers from predicates, scalars and immediates, and scalars from predicates. -/
def Obligations.PredicateRegisters : Prop :=
  predicateClaim .pand .pand (.gadget2, 1, 4, 9) (fun a b => a &&& b)
  ∧ predicateClaim .por .por (.gadget2, 1, 4, 9) (fun a b => a ||| b)
  ∧ predicateClaim .pxor .pxor (.linear, 1, 2, 3) (fun a b => a ^^^ b)
  ∧ (∀ (x : IsaX) (s : State), atPc .pnot x s = true →
      wD x.w < 4 → wS1 x.w < 4 → wS2 x.w = 0 → wQ x.w = 0 → wPs x.w = 0 →
      predicateRetires (.pnot x) x s (.linear, 1, 2, 3) [(pA x s).tag] (~~~(pA x s).val)
        (made (engOf x s) .bool [(pA x s).tag]))
  ∧ (∀ (x : IsaX) (s : State), atPc .pmovS x s = true →
      wD x.w < 4 → wS1 x.w < 16 → wS2 x.w = 0 → wQ x.w = 0 → wPs x.w = 0 → kindOk .bool (sA x s).tag = true →
      predicateRetires (.pmovS x) x s (.linear, 1, 2, 3) [(sA x s).tag] ((sA x s).val.truncate 16)
        (carried (engOf x s) .bool [(sA x s).tag]))
  ∧ (∀ (x : IsaX) (s : State), atPc .smovP x s = true →
      wD x.w < 16 → wS1 x.w < 4 → wS2 x.w = 0 → wQ x.w = 0 → wPs x.w = 0 →
      scalarRetires (.smovP x) x s (.linear, 1, 2, 3) [(pA x s).tag] (pA x s).val.toNat
        (carried (engOf x s) .bool [(pA x s).tag]))
  ∧ (∀ (x : IsaX) (s : State), atPc .pset x s = true → wD x.w < 4 → wS1 x.w = 0 →
      predicateRetires (.pset x) x s (.linear, 1, 1, 1) [] (BitVec.ofNat 16 (wImm x.w)) (made (engOf x s) .bool []))

/-- R199, R152: `qset` writes the q register that 37 bits spell, where R152 gives them a meaning. -/
def Obligations.ModeRegisters : Prop :=
  (∀ (x : IsaX) (s : State) (q : QReg), atPc .qsetS x s = true → wD x.w < 4 → wS1 x.w < 16 → wS1 x.w % 2 = 0 →
    wS2 x.w = 0 → wQ x.w = 0 → wPs x.w = 0 → (sA x s).tag.secret = false →
    (sget (engOf x s) (wS1 x.w + 1)).tag.secret = false →
    qDecode ((sA x s).val.toNat % 2 ^ 9 + (sget (engOf x s) (wS1 x.w + 1)).val.toNat * 2 ^ 9) = some q →
    retires (.qsetS x) x s (fun g' => qget g' (wD x.w) = q ∧ (∀ r, r ≠ wD x.w → qget g' r = qget (engOf x s) r)
      ∧ g'.cycles = (engOf x s).cycles + 32 ∧ { steady (engOf x s) g' with q := (engOf x s).q } = engOf x s ∧ goesOn (engOf x s) g'))
  ∧ (∀ (x : IsaX) (s : State) (q : QReg), atPc .qsetR x s = true → wD x.w < 4 →
    wS2 x.w = 0 → wQ x.w = 0 → wPs x.w = 0 → (vA x s).tag.secret = false →
    qDecode ((vA x s).val.toNat % 2 ^ 37) = some q →
    retires (.qsetR x) x s (fun g' => qget g' (wD x.w) = q ∧ (∀ r, r ≠ wD x.w → qget g' r = qget (engOf x s) r)
      ∧ g'.cycles = (engOf x s).cycles + 32 ∧ { steady (engOf x s) g' with q := (engOf x s).q } = engOf x s ∧ goesOn (engOf x s) g'))

/-- R194, R195: a branch is taken exactly where its condition holds of a public operand, in 1 cycle; taken to END + 1 of the
innermost loop it closes that loop. R195, R196: a loop opens over the words behind it up to END, in 1 cycle; a shuffled loop of
a masking profile runs its iterations in an order that is a permutation of them; a scalar count of 0 goes on at END + 1. -/
def Obligations.BranchesAndLoops : Prop :=
  branchClaim .brZ .brZ 16 (fun x s => (sget (engOf x s) (wD x.w)).tag.secret)
    (fun x s => decide ((sget (engOf x s) (wD x.w)).val = 0))
  ∧ branchClaim .brNz .brNz 16 (fun x s => (sget (engOf x s) (wD x.w)).tag.secret)
    (fun x s => decide ((sget (engOf x s) (wD x.w)).val ≠ 0))
  ∧ branchClaim .brLtz .brLtz 16 (fun x s => (sget (engOf x s) (wD x.w)).tag.secret)
    (fun x s => (sget (engOf x s) (wD x.w)).val.getLsbD 27)
  ∧ branchClaim .brGez .brGez 16 (fun x s => (sget (engOf x s) (wD x.w)).tag.secret)
    (fun x s => !(sget (engOf x s) (wD x.w)).val.getLsbD 27)
  ∧ branchClaim .brPany .brPany 4 (fun x s => (pget (engOf x s) (wD x.w)).tag.secret)
    (fun x s => decide ((pget (engOf x s) (wD x.w)).val ≠ 0))
  ∧ branchClaim .brPnone .brPnone 4 (fun x s => (pget (engOf x s) (wD x.w)).tag.secret)
    (fun x s => decide ((pget (engOf x s) (wD x.w)).val = 0))
  ∧ branchClaim .jmp .jmp 1 (fun _ _ => false) (fun _ _ => true)
  ∧ loopClaim .loopI .loopI false (fun x _ => wCount x.w) (fun _ _ => true)
  ∧ loopClaim .loopIShf .loopIShf true (fun x _ => wCount x.w) (fun x _ => decide (wCount x.w ≤ 256))
  ∧ loopClaim .loopS .loopS false (fun x s => (sget (engOf x s) (wScnt x.w)).val.toNat) (countOk 65535)
  ∧ loopClaim .loopSShf .loopSShf true (fun x s => (sget (engOf x s) (wScnt x.w)).val.toNat) (countOk 256)
  ∧ skipClaim .loopS .loopS ∧ skipClaim .loopSShf .loopSShf

/-- R197: `call` pushes PC + 1 and goes to TARGET, `ret` pops it, `jov` goes to TARGET of another overlay; 1, 1 and 2 cycles
(and the load, for `jov`). -/
def Obligations.CallsAndOverlays : Prop :=
  (∀ (x : IsaX) (s : State), atPc .call x s = true → bitsOf x.w.toNat 19 12 = 0 → wOvl x.w = 0 →
    inShuffle (engOf x s) = false → atEnd (engOf x s) = false → (engOf x s).calls.length < 8 →
    wTarget x.w < (engOf x s).imem.length →
    retires (.call x) x s (fun g' => g' = { engOf x s with
      calls := ((engOf x s).pc + 1) :: (engOf x s).calls, pc := wTarget x.w, cycles := (engOf x s).cycles + 1 }))
  ∧ (∀ (x : IsaX) (s : State) (r : Nat) (l : List Nat), atPc .ret x s = true → bitsOf x.w.toNat 19 12 = 0 → wOvl x.w = 0 →
    wTarget x.w = 0 → inShuffle (engOf x s) = false → atEnd (engOf x s) = false → (engOf x s).calls = r :: l →
    retires (.ret x) x s (fun g' => g' = { engOf x s with calls := l, pc := r, cycles := (engOf x s).cycles + 1 }))
  ∧ (∀ (x : IsaX) (s : State) (code : List (BitVec 32)), atPc .jov x s = true → bitsOf x.w.toNat 19 12 = 0 →
    inShuffle (engOf x s) = false → atEnd (engOf x s) = false → (engOf x s).loops = [] → (engOf x s).calls = [] →
    (envAt x s).overlays[wOvl x.w]? = some code → wTarget x.w < code.length →
    answers (.jov x) s (fun t => settledEng (engOf x s) (engOf x t) = { engOf x s with
        imem := code, overlay := wOvl x.w, pc := wTarget x.w,
        cycles := (engOf x s).cycles + 2 + (envAt x s).loadCycles.getD (wOvl x.w) 0 }
      ∧ (∀ k, k ≠ x.e.val → getEng t k = getEng s k)
      ∧ Quiet { s with eng := t.eng, pav := t.pav, freeCtr := t.freeCtr } t))

/-- R198: address registers, modulo 2,048. -/
def Obligations.AddressRegisters : Prop :=
  addressClaim .aset .aset (fun x _ => decide (wImm x.w < 2048 ∧ isaAs x.w = 0)) (fun x _ => (wImm x.w : Int))
  ∧ addressClaim .aadd .aadd (fun _ _ => true)
    (fun x s => (aget (engOf x s) (isaAs x.w) : Int) + (BitVec.ofNat 16 (wImm x.w)).toInt)
  ∧ addressClaim .asetLi .asetLi (fun _ _ => true)
    (fun x s => (aget (engOf x s) (isaAs x.w) : Int) + iterIndex (engOf x s) * wImm x.w)
  ∧ addressClaim .amovS .amovS
    (fun x s => decide (wImm x.w < 16 ∧ isaAs x.w = 0) && !(sget (engOf x s) (wImm x.w)).tag.secret)
    (fun x s => ((sget (engOf x s) (wImm x.w)).val.toNat : Int))

/-- R219, R175, R214: `nop` does nothing for 1 cycle; a halt ends the job with its status and detail, the engine goes to
CLEARING, and a public rejection of a job that has held no secret is released at its own time. -/
def Obligations.JobControl : Prop :=
  (∀ (x : IsaX) (s : State), atPc .nop x s = true → wD x.w = 0 → wS1 x.w = 0 → wS2 x.w = 0 → wQ x.w = 0 → wPs x.w = 0 →
    retires (.nop x) x s (fun g' => steady (engOf x s) g' = engOf x s ∧ g'.cycles = (engOf x s).cycles + 1
      ∧ goesOn (engOf x s) g'))
  ∧ haltClaim .halt .halt (fun x _ => decide (wS1 x.w = 0 ∧ wS2 x.w = 0)) (fun _ _ => 0) (fun _ _ => 0) (fun _ _ => false)
  ∧ haltClaim .haltSt .haltSt (fun x s => decide (wS1 x.w < 16 ∧ wS2 x.w < 16) && !(sA x s).tag.secret && !(sB x s).tag.secret
      && [0x0000, 0x0101, 0x0206, 0x0401, 0x0402, 0x0403, 0x0404, 0x0405, 0x0104].contains ((sA x s).val.toNat % 2 ^ 16)
      && decide ((sA x s).val.toNat % 2 ^ 16 = 0x0104 ∨ (sB x s).val.toNat % 2 ^ 16 < 0x0140
        ∨ 0x016F < (sB x s).val.toNat % 2 ^ 16))
    (fun x s => (sA x s).val.toNat % 2 ^ 16)
    (fun x s => if (sA x s).val.toNat % 2 ^ 16 = 0x0104 then (sB x s).val.toNat else (sB x s).val.toNat % 2 ^ 16)
    (fun _ _ => false)
  ∧ haltClaim .haltPr .haltPr (fun x s => decide (wS1 x.w < 16 ∧ wS2 x.w < 16) && !(sA x s).tag.secret && !(sB x s).tag.secret
      && [0x0101, 0x0206, 0x0401, 0x0402, 0x0403].contains ((sA x s).val.toNat % 2 ^ 16)
      && decide ((sB x s).val.toNat % 2 ^ 16 < 0x0140 ∨ 0x016F < (sB x s).val.toNat % 2 ^ 16))
    (fun x s => (sA x s).val.toNat % 2 ^ 16) (fun x s => (sB x s).val.toNat % 2 ^ 16) (fun x s => !(engOf x s).everSecret)

/-- R200: word-wise arithmetic mod q, under the governing predicate. -/
def Obligations.VectorModular : Prop :=
  vectorClaim .vaddM .vaddM (fun _ _ => (.linear, 1, 2, 3)) (fun x s => isPrime (qX x s).mode) (fun x s => (qX x s).mode)
    (fun x s => arithOf (qX x s)) (fun x s => [(vA x s).tag, (vB x s).tag])
    (fun x s => words2 (qX x s).mode (vA x s).val (vB x s).val (fun a b => (a + b) % (qX x s).modulus))
  ∧ vectorClaim .vsubM .vsubM (fun _ _ => (.linear, 1, 2, 3)) (fun x s => isPrime (qX x s).mode) (fun x s => (qX x s).mode)
    (fun x s => arithOf (qX x s)) (fun x s => [(vA x s).tag, (vB x s).tag])
    (fun x s => words2 (qX x s).mode (vA x s).val (vB x s).val (subM (qX x s).modulus))
  ∧ vectorClaim .vnegM .vnegM (fun _ _ => (.linear, 1, 2, 3)) (fun x s => wS2 x.w == 0 && isPrime (qX x s).mode)
    (fun x s => (qX x s).mode) (fun x s => arithOf (qX x s)) (fun x s => [(vA x s).tag])
    (fun x s => words1 (qX x s).mode (vA x s).val (subM (qX x s).modulus 0))
  ∧ vectorClaim .vmulM .vmulM (fun _ _ => (.gadget2, 1, 6, 16)) (fun x s => isPrime (qX x s).mode) (fun x s => (qX x s).mode)
    (fun x s => arithOf (qX x s)) (fun x s => [(vA x s).tag, (vB x s).tag])
    (fun x s => words2 (qX x s).mode (vA x s).val (vB x s).val (fun a b => a * b % (qX x s).modulus))
  ∧ vectorClaim .vmacM .vmacM (fun _ _ => (.gadget2, 1, 7, 18)) (fun x s => isPrime (qX x s).mode) (fun x s => (qX x s).mode)
    (fun x s => arithOf (qX x s)) (fun x s => [(vOld x s).tag, (vA x s).tag, (vB x s).tag])
    (fun x s => words3 (qX x s).mode (vOld x s).val (vA x s).val (vB x s).val (fun z a b => (z + a * b) % (qX x s).modulus))
  ∧ vectorClaim .vmulsM .vmulsM (fun _ _ => (.gadget2, 1, 6, 16)) (fun x s => decide (wS2 x.w < 16) && isPrime (qX x s).mode)
    (fun x s => (qX x s).mode) (fun x s => arithOf (qX x s)) (fun x s => [(vA x s).tag, (sB x s).tag])
    (fun x s => words1 (qX x s).mode (vA x s).val (fun a => a * (sB x s).val.toNat % (qX x s).modulus))
  ∧ vectorClaim .vredM .vredM (fun _ _ => (.gadget, 2, 8, 20)) (fun x s => wS2 x.w == 0 && isPrime (qX x s).mode)
    (fun x s => (qX x s).mode) (fun x s => arithOf (qX x s)) (fun x s => [(vA x s).tag])
    (fun x s => words1 (qX x s).mode (vA x s).val (fun a => a % (qX x s).modulus))

/-- R200, R207: compares write every bit of pD; `vsel` takes each word of vS1 where the bit of PS is 1, else of vS2. -/
def Obligations.VectorCompareSelect : Prop :=
  compareClaim .vchkQ .vchkQ
    (fun x s => wS2 x.w == 0 && isPrime (qX x s).mode && kindOk (arithOf (qX x s)) (vA x s).tag)
    (fun x s => [(vA x s).tag]) (fun x s j => decide (word (qX x s).mode (vA x s).val j < (qX x s).modulus))
  ∧ compareClaim .vcmpEq .vcmpEq (fun x s => joinKind [(vA x s).tag, (vB x s).tag] != none)
    (fun x s => [(vA x s).tag, (vB x s).tag])
    (fun x s j => word (qX x s).mode (vA x s).val j == word (qX x s).mode (vB x s).val j)
  ∧ compareClaim .vcmpLt .vcmpLt
    (fun x s => isPrime (qX x s).mode && kindsFit (arithOf (qX x s)) [(vA x s).tag, (vB x s).tag])
    (fun x s => [(vA x s).tag, (vB x s).tag])
    (fun x s j => decide (word (qX x s).mode (vA x s).val j % (qX x s).modulus
      < word (qX x s).mode (vB x s).val j % (qX x s).modulus))
  ∧ compareClaim .vnormGe .vnormGe
    (fun x s => decide (wS2 x.w < 16) && !(sB x s).tag.secret && (qX x s).mode == .pair28
      && kindOk (arithOf (qX x s)) (vA x s).tag)
    (fun x s => [(vA x s).tag])
    (fun x s j => decide ((sB x s).val.toNat ≤ centredMag (qX x s).modulus (word (qX x s).mode (vA x s).val j)))
  ∧ (∀ (x : IsaX) (s : State) (k : Kind), atPc .vsel x s = true → joinKind [(vA x s).tag, (vB x s).tag] = some k →
      (fntReady (engOf x s) || !((pG x s).tag.secret && (engOf x s).profile != 0)) = true →
      retires (.vsel x) x s (fun g' => wroteV (engOf x s) g' [wD x.w]
        (fun _ => maskRow (qX x s).mode (pG x s).val (vB x s).val (vA x s).val)
        (fun _ => (pG x s).tag.secret || anySecret [(vA x s).tag, (vB x s).tag])
        ∧ g'.cycles = (engOf x s).cycles + (if (pG x s).tag.secret then byProfile (engOf x s) 1 6 13
            else costs (engOf x s) (.linear, 1, 2, 3) [(vA x s).tag, (vB x s).tag] false)))

/-- R201: the butterflies, over two registers with SPAN 0 and within one register with SPAN 1 to 4; the cost follows the
twiddle. `f q t a b` is the new pair. -/
def Obligations.Butterflies : Prop :=
  (∀ (i : IsaX → Instr) (op : IsaOp) (modeOk : Mode → Bool) (k : QReg → Kind) (f : QReg → Nat → Nat → Nat → Nat × Nat),
    ((i = .vbflyCt ∧ op = .vbflyCt ∧ modeOk = isPrime ∧ k = arithOf
        ∧ f = fun q t a b => ((a + t * b) % q.modulus, subM q.modulus a (t * b)))
      ∨ (i = .vbflyGs ∧ op = .vbflyGs ∧ modeOk = isPrime ∧ k = arithOf
        ∧ f = fun q t a b => ((a + b) % q.modulus, t * subM q.modulus a b % q.modulus))
      ∨ (i = .vbflyGf ∧ op = .vbflyGf ∧ modeOk = (· == .gf2m) ∧ (k = fun _ => .bool)
        ∧ f = fun q t a b => ((a % 2 ^ q.param) ^^^ gfMul q.param q.modulus t b,
            (b % 2 ^ q.param) ^^^ ((a % 2 ^ q.param) ^^^ gfMul q.param q.modulus t b)))) →
    pairClaim i op
      (fun x s => if (vB x s).tag.secret && anySecret [(vOld x s).tag, (vA x s).tag] then (.gadget, 2, 12, 32)
        else (.linear, 2, 4, 6))
      (fun x s => bitsOf x.w.toNat 3 0 == 0 && wD x.w != wS1 x.w && modeOk (qX x s).mode) (fun x s => (qX x s).mode)
      (fun x s => k (qX x s)) (fun x => wS1 x.w) (fun x s => [(vOld x s).tag, (vA x s).tag, (vB x s).tag])
      (fun x s => words3 (qX x s).mode (vB x s).val (vOld x s).val (vA x s).val (fun t a b => (f (qX x s) t a b).1))
      (fun x s => words3 (qX x s).mode (vB x s).val (vOld x s).val (vA x s).val (fun t a b => (f (qX x s) t a b).2))
    ∧ vectorClaim i op
      (fun x s => if (vB x s).tag.secret && (vOld x s).tag.secret then (.gadget, 2, 12, 32) else (.linear, 2, 4, 6))
      (fun x s => !bitOf x.w.toNat 3 && wS1 x.w == 0 && bitsOf x.w.toNat 2 0 != 0 && decide (bitsOf x.w.toNat 2 0 ≤ 4)
        && modeOk (qX x s).mode && spanDist (qX x s).mode (bitsOf x.w.toNat 2 0) != 0)
      (fun x s => (qX x s).mode) (fun x s => k (qX x s)) (fun x s => [(vOld x s).tag, (vB x s).tag])
      (fun x s =>
        let m := (qX x s).mode
        let d := spanDist m (bitsOf x.w.toNat 2 0)
        let a := word m (vOld x s).val
        let t := word m (vB x s).val
        wordRow m (fun j => if j % (2 * d) < d then (f (qX x s) (t (j + d)) (a j) (a (j + d))).1
          else (f (qX x s) (t j) (a (j - d)) (a j)).2)))

/-- R201, R208: the base multiplication modulo X² − γ with γ public, and the fixed-point complex butterfly. -/
def Obligations.ProductsOfPairs : Prop :=
  vectorClaim .vbmulM .vbmulM (fun _ _ => (.gadget2, 4, 20, 48))
    (fun x s => bitsOf x.w.toNat 3 0 == 0 && (qX x s).mode == .modq && !(vOld x s).tag.secret)
    (fun _ _ => .modq) (fun x s => arithOf (qX x s)) (fun x s => [(vA x s).tag, (vB x s).tag])
    (fun x s =>
      let a := lane (vA x s).val
      let b := lane (vB x s).val
      let q := (qX x s).modulus
      laneRow (fun j => if j % 2 = 0
        then (a j * b j + lane (vOld x s).val j * (a (j + 1) * b (j + 1))) % q
        else (a (j - 1) * b j + a j * b (j - 1)) % q))
  ∧ pairClaim .vfbflyX .vfbflyX
    (fun x s => if (vB x s).tag.secret && anySecret [(vOld x s).tag, (vA x s).tag] then (.gadget, 6, 28, 68)
      else (.linear, 6, 12, 18))
    (fun x s => wD x.w != wS1 x.w && (qX x s).mode == .quad56) (fun _ _ => .quad56) (fun x s => arithOf (qX x s))
    (fun x => wS1 x.w) (fun x s => [(vOld x s).tag, (vA x s).tag, (vB x s).tag])
    (fun x s => wordRow .quad56 (fun j => (word .quad56 (vOld x s).val j
      + cplxMul (qX x s).param (word .quad56 (vB x s).val) (word .quad56 (vA x s).val) j) % 2 ^ 56))
    (fun x s => wordRow .quad56 (fun j => subM (2 ^ 56) (word .quad56 (vOld x s).val j)
      (cplxMul (qX x s).param (word .quad56 (vB x s).val) (word .quad56 (vA x s).val) j)))

/-- R202, R210: permutes of 14-bit lanes, the broadcast of a scalar into words, and the move of a row. -/
def Obligations.Permutes : Prop :=
  carryClaim .vperm .vperm (fun x s => wQ x.w == 0 && !(vB x s).tag.secret) (fun _ _ => .modq) (fun x s => [(vA x s).tag])
    (fun x s => laneRow (fun j => lane (vA x s).val (lane (vB x s).val j % 16)))
  ∧ carryClaim .vzipLo .vzipLo (fun x _ => wQ x.w == 0) (fun _ _ => .modq) (fun x s => [(vA x s).tag, (vB x s).tag])
    (fun x s => laneRow (fun j => if j % 2 = 0 then lane (vA x s).val (j / 2) else lane (vB x s).val (j / 2)))
  ∧ carryClaim .vzipHi .vzipHi (fun x _ => wQ x.w == 0) (fun _ _ => .modq) (fun x s => [(vA x s).tag, (vB x s).tag])
    (fun x s => laneRow (fun j => if j % 2 = 0 then lane (vA x s).val (8 + j / 2) else lane (vB x s).val (8 + j / 2)))
  ∧ carryClaim .vuzpEv .vuzpEv (fun x _ => wQ x.w == 0) (fun _ _ => .modq) (fun x s => [(vA x s).tag, (vB x s).tag])
    (fun x s => laneRow (fun j => if j < 8 then lane (vA x s).val (2 * j) else lane (vB x s).val (2 * j - 16)))
  ∧ carryClaim .vuzpOd .vuzpOd (fun x _ => wQ x.w == 0) (fun _ _ => .modq) (fun x s => [(vA x s).tag, (vB x s).tag])
    (fun x s => laneRow (fun j => if j < 8 then lane (vA x s).val (2 * j + 1) else lane (vB x s).val (2 * j - 15)))
  ∧ carryClaim .vrev .vrev (fun x _ => wQ x.w == 0 && wS2 x.w == 0) (fun _ _ => .modq) (fun x s => [(vA x s).tag])
    (fun x s => laneRow (fun j => lane (vA x s).val (15 - j)))
  ∧ carryClaim .vbcastL .vbcastL (fun x _ => wQ x.w == 0 && decide (wS2 x.w < 16)) (fun _ _ => .modq)
    (fun x s => [(vA x s).tag]) (fun x s => laneRow (fun _ => lane (vA x s).val (wS2 x.w)))
  ∧ carryClaim .vbcastS .vbcastS (fun x s => decide (wS1 x.w < 16) && wS2 x.w == 0 && (qX x s).mode != .none)
    (fun x s => (qX x s).mode) (fun x s => [(sA x s).tag])
    (fun x s => wordRow (qX x s).mode (fun _ => if (qX x s).mode = .quad56 then ((sA x s).val.signExtend 56).toNat
      else (sA x s).val.toNat))
  ∧ carryClaim .vmov .vmov (fun x _ => wQ x.w == 0 && wS2 x.w == 0) (fun _ _ => .modq) (fun x s => [(vA x s).tag])
    (fun x s => (vA x s).val)

/-- R203, R204: sampling from the 56-byte window at OFF into the accumulator, accepted candidates in order from word sS2 on,
and `vsamp.next`. -/
def Obligations.SamplingAccumulators : Prop :=
  (∀ (i : IsaX → Instr) (op : IsaOp) (modeOk : Mode → Bool) (bytes : Nat) (cands : Mode → Nat → Nat → List Nat),
    ((i = .vsampRej ∧ op = .vsampRej ∧ modeOk = isPrime ∧ bytes = 24
        ∧ cands = fun m q v => if m = .modq then ((List.range 16).map (bitField v 12)).filter (· < q)
            else ((List.range 8).map (fun j => bitField v 24 j % 2 ^ 23)).filter (· < q))
      ∨ (i = .vsampEtaLo ∧ op = .vsampEtaLo ∧ modeOk = (· == .pair28) ∧ bytes = 4
        ∧ cands = fun _ q v => (((List.range 8).map (bitField v 4)).filter (· < 15)).map (fun b => subM q 2 (b % 5)))
      ∨ (i = .vsampEtaHi ∧ op = .vsampEtaHi ∧ modeOk = (· == .pair28) ∧ bytes = 4
        ∧ cands = fun _ q v => (((List.range 8).map (bitField v 4)).filter (· < 9)).map (fun b => subM q 4 b))) →
    sampleClaim i op (.gadget, 2, 10, 24)
      (fun x s => wS1 x.w % 2 == 0 && decide (wWinOff x.w + bytes ≤ 56) && modeOk (qX x s).mode
        && kindsFit .bool [(vA x s).tag, (vget (engOf x s) (wS1 x.w + 1)).tag])
      (fun x s => [(sB x s).tag, (vA x s).tag, (vget (engOf x s) (wS1 x.w + 1)).tag,
        (vOld x s).tag, (vget (engOf x s) (wD x.w + 1)).tag])
      (fun x s j =>
        let cs := cands (qX x s).mode (qX x s).modulus (winNat (engOf x s) (wS1 x.w) (wWinOff x.w) bytes)
        let n := (sB x s).val.toNat
        if n ≤ j ∧ j < n + cs.length then cs.getD (j - n) 0 else accWord (qX x s).mode (engOf x s) (wD x.w) j)
      (fun x s => min (2 * wordCount (qX x s).mode) ((sB x s).val.toNat
        + (cands (qX x s).mode (qX x s).modulus (winNat (engOf x s) (wS1 x.w) (wWinOff x.w) bytes)).length)))
  ∧ sampleClaim .vsampNext .vsampNext (.linear, 1, 2, 3)
      (fun x s => wS1 x.w == 0 && wWinOff x.w == 0 && isPrime (qX x s).mode)
      (fun x s => [(sB x s).tag, (vOld x s).tag, (vget (engOf x s) (wD x.w + 1)).tag])
      (fun x s j =>
        let m := (qX x s).mode
        if wordCount m ≤ (sB x s).val.toNat then
          (if j < wordCount m then word m (vget (engOf x s) (wD x.w + 1)).val j else 0)
        else accWord m (engOf x s) (wD x.w) j)
      (fun x s => if wordCount (qX x s).mode ≤ (sB x s).val.toNat then (sB x s).val.toNat - wordCount (qX x s).mode
        else (sB x s).val.toNat)

/-- R204, R205: centred binomial and uniform sampling, compression and packing write whole registers; the window is vS1 and
vS1 + 1 (R203). -/
def Obligations.SamplingRowsAndPacking : Prop :=
  (∀ (i : IsaX → Instr) (op : IsaOp) (mode : Mode) (bytes : Nat) (c : Cost) (f : Nat → Nat → Nat → Nat),
    ((i = .vsampCbd ∧ op = .vsampCbd ∧ mode = .modq ∧ bytes = 8 ∧ c = (.gadget, 2, 12, 30) ∧ f = fun q v j => cbd q 2 v j)
      ∨ (i = .vsampCbt ∧ op = .vsampCbt ∧ mode = .modq ∧ bytes = 12 ∧ c = (.gadget, 2, 12, 30) ∧ f = fun q v j => cbd q 3 v j)
      ∨ (i = .vsampUnfLo ∧ op = .vsampUnfLo ∧ mode = .pair28 ∧ bytes = 18 ∧ c = (.gadget, 2, 10, 24)
        ∧ f = fun q v j => subM q (2 ^ 17) (bitField v 18 j))
      ∨ (i = .vsampUnfHi ∧ op = .vsampUnfHi ∧ mode = .pair28 ∧ bytes = 20 ∧ c = (.gadget, 2, 10, 24)
        ∧ f = fun q v j => subM q (2 ^ 19) (bitField v 20 j))) →
    writeClaim i op c
      (fun x s => wS2 x.w == 0 && wS1 x.w % 2 == 0 && decide (wWinOff x.w + bytes ≤ 56) && (qX x s).mode == mode
        && kindsFit .bool [(vA x s).tag, (vget (engOf x s) (wS1 x.w + 1)).tag])
      (fun x _ => [wD x.w]) (fun x s => [(vA x s).tag, (vget (engOf x s) (wS1 x.w + 1)).tag])
      (fun x s _ => wordRow mode (f (qX x s).modulus (winNat (engOf x s) (wS1 x.w) (wWinOff x.w) bytes)))
      (fun x s _ => made (engOf x s) (arithOf (qX x s)) [(vA x s).tag, (vget (engOf x s) (wS1 x.w + 1)).tag]))
  ∧ writeClaim .vcomp .vcomp (.gadget, 2, 10, 24)
      (fun x s => !bitOf x.w.toNat 8 && wWinOff x.w == 0 && (qX x s).mode == .modq && decide (1 ≤ wS2 x.w ∧ wS2 x.w ≤ 11)
        && kindOk (arithOf (qX x s)) (vA x s).tag)
      (fun x _ => [wD x.w]) (fun x s => [(vA x s).tag])
      (fun x s _ => words1 .modq (vA x s).val (fun a =>
        ((2 * 2 ^ wS2 x.w * a + (qX x s).modulus) / (2 * (qX x s).modulus)) % 2 ^ wS2 x.w))
      (fun x s _ => made (engOf x s) .bool [(vA x s).tag])
  ∧ writeClaim .vdcmp .vdcmp (.gadget, 2, 10, 24)
      (fun x s => !bitOf x.w.toNat 8 && wWinOff x.w == 0 && (qX x s).mode == .modq && decide (1 ≤ wS2 x.w ∧ wS2 x.w ≤ 11)
        && kindOk .bool (vA x s).tag)
      (fun x _ => [wD x.w]) (fun x s => [(vA x s).tag])
      (fun x s _ => words1 .modq (vA x s).val (fun a =>
        ((2 * (qX x s).modulus * a + 2 ^ wS2 x.w) / (2 * 2 ^ wS2 x.w)) % (qX x s).modulus))
      (fun x s _ => made (engOf x s) (arithOf (qX x s)) [(vA x s).tag])
  ∧ writeClaim .vpack .vpack (.linear, 2, 4, 6)
      (fun x s => !bitOf x.w.toNat 8 && wD x.w % 2 == 0 && packMode (qX x s).mode
        && decide (1 ≤ wS2 x.w ∧ wS2 x.w ≤ packMax (qX x s).mode ∧ 8 * wWinOff x.w + wordCount (qX x s).mode * wS2 x.w ≤ 448)
        && kindOk .bool (vA x s).tag
        && (28 ≤ wWinOff x.w || kindOk .bool (vOld x s).tag)
        && (decide (8 * wWinOff x.w + wordCount (qX x s).mode * wS2 x.w ≤ 224)
          || kindOk .bool (vget (engOf x s) (wD x.w + 1)).tag))
      (fun x s => (if wWinOff x.w < 28 then [wD x.w] else [])
        ++ (if 224 < 8 * wWinOff x.w + wordCount (qX x s).mode * wS2 x.w then [wD x.w + 1] else []))
      (fun x s => (vA x s).tag :: ((if wWinOff x.w < 28 then [(vOld x s).tag] else [])
        ++ (if 224 < 8 * wWinOff x.w + wordCount (qX x s).mode * wS2 x.w
            then [(vget (engOf x s) (wD x.w + 1)).tag] else [])))
      (fun x s d =>
        let v := putBits ((vOld x s).val.toNat + (vget (engOf x s) (wD x.w + 1)).val.toNat * 2 ^ 224) (8 * wWinOff x.w)
          (wordCount (qX x s).mode * wS2 x.w)
          (packNat (wS2 x.w) (word (qX x s).mode (vA x s).val) (wordCount (qX x s).mode))
        BitVec.ofNat 224 (if d = wD x.w then v else v / 2 ^ 224))
      (fun x s d => made (engOf x s) .bool [(vA x s).tag, (vget (engOf x s) d).tag])
  ∧ writeClaim .vunpack .vunpack (.linear, 2, 4, 6)
      (fun x s => !bitOf x.w.toNat 8 && wS1 x.w % 2 == 0 && packMode (qX x s).mode
        && decide (1 ≤ wS2 x.w ∧ wS2 x.w ≤ packMax (qX x s).mode ∧ 8 * wWinOff x.w + wordCount (qX x s).mode * wS2 x.w ≤ 448)
        && kindsFit .bool [(vA x s).tag, (vget (engOf x s) (wS1 x.w + 1)).tag])
      (fun x _ => [wD x.w]) (fun x s => [(vA x s).tag, (vget (engOf x s) (wS1 x.w + 1)).tag])
      (fun x s _ => wordRow (qX x s).mode (fun j =>
        leNat (window (vA x s).val (vget (engOf x s) (wS1 x.w + 1)).val) / 2 ^ (8 * wWinOff x.w + wS2 x.w * j) % 2 ^ wS2 x.w))
      (fun x s _ => made (engOf x s) .bool [(vA x s).tag, (vget (engOf x s) (wS1 x.w + 1)).tag])

/-- R206: binary-field, bitwise, shift and carry-less instructions, BOOL in and out. -/
def Obligations.FieldAndBitwise : Prop :=
  (∀ (i : IsaX → Instr) (op : IsaOp) (c : Cost) (two : Bool) (f : Nat → Nat → Nat → Nat → Nat),
    ((i = .vgmulF ∧ op = .vgmulF ∧ c = (.gadget2, 1, 6, 16) ∧ two = true ∧ f = gfMul)
      ∨ (i = .vgsqF ∧ op = .vgsqF ∧ c = (.linear, 1, 2, 3) ∧ two = false ∧ f = fun m low a _ => gfMul m low a a)
      ∨ (i = .vginvF ∧ op = .vginvF ∧ c = (.gadget, 20, 120, 320) ∧ two = false ∧ f = fun m low a _ => gfInv m low a)) →
    vectorClaim i op (fun _ _ => c) (fun x s => (two || wS2 x.w == 0) && (qX x s).mode == .gf2m) (fun _ _ => .gf2m)
      (fun _ _ => .bool) (fun x s => if two then [(vA x s).tag, (vB x s).tag] else [(vA x s).tag])
      (fun x s => words2 .gf2m (vA x s).val (vB x s).val (f (qX x s).param (qX x s).modulus)))
  ∧ (∀ (i : IsaX → Instr) (op : IsaOp) (c : Cost) (f : Row → Row → Row),
    ((i = .vand ∧ op = .vand ∧ c = (.gadget2, 1, 4, 9) ∧ f = fun a b => a &&& b)
      ∨ (i = .vor ∧ op = .vor ∧ c = (.gadget2, 1, 4, 9) ∧ f = fun a b => a ||| b)
      ∨ (i = .vxor ∧ op = .vxor ∧ c = (.linear, 1, 2, 3) ∧ f = fun a b => a ^^^ b)
      ∨ (i = .vclmulLo ∧ op = .vclmulLo ∧ c = (.gadget2, 1, 6, 16)
        ∧ f = fun a b => rowOf 32 7 (fun j => clmul (fieldOf 32 a j) (fieldOf 32 b j) % 2 ^ 32))
      ∨ (i = .vclmulHi ∧ op = .vclmulHi ∧ c = (.gadget2, 1, 6, 16)
        ∧ f = fun a b => rowOf 32 7 (fun j => clmul (fieldOf 32 a j) (fieldOf 32 b j) / 2 ^ 32))) →
    vectorClaim i op (fun _ _ => c) (fun x _ => wQ x.w == 0) (fun _ _ => .modq) (fun _ _ => .bool)
      (fun x s => [(vA x s).tag, (vB x s).tag]) (fun x s => f (vA x s).val (vB x s).val))
  ∧ (∀ (i : IsaX → Instr) (op : IsaOp) (ok : IsaX → State → Bool) (f : IsaX → State → Row → Row),
    ((i = .vnot ∧ op = .vnot ∧ (ok = fun x _ => wS2 x.w == 0) ∧ f = fun _ _ a => ~~~a)
      ∨ (i = .vshlL ∧ op = .vshlL ∧ (ok = fun x _ => decide (wS2 x.w ≤ 13))
        ∧ f = fun x _ a => laneRow (fun j => lane a j * 2 ^ wS2 x.w))
      ∨ (i = .vshrL ∧ op = .vshrL ∧ (ok = fun x _ => decide (wS2 x.w ≤ 13))
        ∧ f = fun x _ a => laneRow (fun j => lane a j / 2 ^ wS2 x.w))
      ∨ (i = .vshlR ∧ op = .vshlR ∧ (ok = fun x s => decide (wS2 x.w < 16) && !(sB x s).tag.secret)
        ∧ f = fun x s (a : Row) => a <<< (sB x s).val.toNat)
      ∨ (i = .vshrR ∧ op = .vshrR ∧ (ok = fun x s => decide (wS2 x.w < 16) && !(sB x s).tag.secret)
        ∧ f = fun x s (a : Row) => a >>> (sB x s).val.toNat)
      ∨ (i = .vrotR ∧ op = .vrotR ∧ (ok = fun x s => decide (wS2 x.w < 16) && !(sB x s).tag.secret)
        ∧ f = fun x s (a : Row) => a.rotateLeft ((sB x s).val.toNat % 224))) →
    vectorClaim i op (fun _ _ => (.linear, 1, 2, 3)) (fun x s => wQ x.w == 0 && ok x s) (fun _ _ => .modq) (fun _ _ => .bool)
      (fun x s => [(vA x s).tag]) (fun x s => f x s (vA x s).val))

/-- R207: the rounding instructions of FIPS 204 write two registers, the hints one, word by word. -/
def Obligations.PairedRounding : Prop :=
  (∀ (i : IsaX → Instr) (op : IsaOp) (f : Nat → Nat × Int),
    ((i = .vp2r ∧ op = .vp2r ∧ f = power2Round) ∨ (i = .vdecompN ∧ op = .vdecompN ∧ f = decompose ((8380417 - 1) / 88))
      ∨ (i = .vdecompW ∧ op = .vdecompW ∧ f = decompose ((8380417 - 1) / 32))) →
    pairClaim i op (fun _ _ => (.gadget, 2, 10, 24))
      (fun x s => wD x.w % 2 == 0 && wS2 x.w == 0 && (qX x s).mode == .pair28 && (qX x s).modulus == 8380417)
      (fun _ _ => .pair28) (fun x s => arithOf (qX x s)) (fun x => wD x.w + 1) (fun x s => [(vA x s).tag])
      (fun x s => words1 .pair28 (vA x s).val (fun a => (f a).1))
      (fun x s => words1 .pair28 (vA x s).val (fun a => ((f a).2 % 8380417).toNat)))
  ∧ (∀ (i : IsaX → Instr) (op : IsaOp) (f : Nat → Nat → Nat),
    ((i = .vhintMkN ∧ op = .vhintMkN ∧ f = makeHint ((8380417 - 1) / 88))
      ∨ (i = .vhintMkW ∧ op = .vhintMkW ∧ f = makeHint ((8380417 - 1) / 32))
      ∨ (i = .vhintUseN ∧ op = .vhintUseN ∧ f = useHint ((8380417 - 1) / 88))
      ∨ (i = .vhintUseW ∧ op = .vhintUseW ∧ f = useHint ((8380417 - 1) / 32))) →
    vectorClaim i op (fun _ _ => (.gadget, 3, 14, 34))
      (fun x s => (qX x s).mode == .pair28 && (qX x s).modulus == 8380417) (fun _ _ => .pair28)
      (fun x s => arithOf (qX x s)) (fun x s => [(vA x s).tag, (vB x s).tag])
      (fun x s => words2 .pair28 (vA x s).val (vB x s).val f))

/-- R208: fixed-point words of 56 bits with F fraction bits; products round to nearest, ties to even, and wrap. -/
def Obligations.QuadFixedPoint : Prop :=
  (∀ (i : IsaX → Instr) (op : IsaOp) (c : Cost) (f : Nat → (Nat → Nat) → (Nat → Nat) → Nat → Nat),
    ((i = .vfaddX ∧ op = .vfaddX ∧ c = (.linear, 1, 2, 3) ∧ f = fun _ a b j => (a j + b j) % 2 ^ 56)
      ∨ (i = .vfsubX ∧ op = .vfsubX ∧ c = (.linear, 1, 2, 3) ∧ f = fun _ a b j => subM (2 ^ 56) (a j) (b j))
      ∨ (i = .vfmulX ∧ op = .vfmulX ∧ c = (.gadget2, 3, 14, 34)
        ∧ f = fun F a b j => wrapTo 56 (roundShift F ((BitVec.ofNat 56 (a j)).toInt * (BitVec.ofNat 56 (b j)).toInt)))
      ∨ (i = .vfcmulX ∧ op = .vfcmulX ∧ c = (.gadget2, 6, 28, 68) ∧ f = cplxMul)) →
    vectorClaim i op (fun _ _ => c) (fun x s => (qX x s).mode == .quad56) (fun _ _ => .quad56) (fun x s => arithOf (qX x s))
      (fun x s => [(vA x s).tag, (vB x s).tag])
      (fun x s => wordRow .quad56 (f (qX x s).param (word .quad56 (vA x s).val) (word .quad56 (vB x s).val))))
  ∧ vectorClaim .vfcvtX .vfcvtX (fun _ _ => (.linear, 1, 2, 3)) (fun x s => decide (wS2 x.w ≤ 3) && (qX x s).mode == .quad56)
      (fun _ _ => .quad56) (fun x s => arithOf (qX x s)) (fun x s => [(vA x s).tag])
      (fun x s => wordRow .quad56 (fun j =>
        wrapTo 56 ((BitVec.ofNat 14 (lane (vA x s).val (4 * wS2 x.w + j))).toInt * 2 ^ (qX x s).param)))
  ∧ (∀ (x : IsaX) (s : State), atPc .vfrndX x s = true →
      mayRun (engOf x s) (.gadget, 2, 10, 24) [(vA x s).tag] (pG x s).tag.secret = true → wS2 x.w ≤ 3 →
      (qX x s).mode = .quad56 → kindOk (arithOf (qX x s)) (vA x s).tag = true → kindOk .bool (vOld x s).tag = true →
      retires (.vfrndX x) x s (fun g' => wroteV (engOf x s) g' [wD x.w]
          (fun _ => laneRow (fun j =>
            if 4 * wS2 x.w ≤ j ∧ j < 4 * wS2 x.w + 4 ∧ (pG x s).val.getLsbD (4 * (j - 4 * wS2 x.w)) then
              wrapTo 14 (roundShift (qX x s).param
                (BitVec.ofNat 56 (word .quad56 (vA x s).val (j - 4 * wS2 x.w))).toInt)
            else lane (vOld x s).val j))
          (fun _ => anySecret [(vA x s).tag, (vOld x s).tag, (pG x s).tag])
        ∧ g'.cycles = (engOf x s).cycles
          + costs (engOf x s) (.gadget, 2, 10, 24) [(vA x s).tag] (pG x s).tag.secret))

/-- R209, R210: loads and stores of operand rows, constants, words between vectors and scalars. EVERY ROW of operand memory
but the one a `vst` stores to keeps its value, kind and SEALED. -/
def Obligations.OperandMemory : Prop :=
  (∀ (x : IsaX) (s : State),
    let g := engOf x s
    let i := aget g (wA x.w) + wOff x.w
    atPc .vld x s = true → (wPi x.w || wInc x.w == 0) = true → i < rowLimit g →
    retires (.vld x) x s (fun g' =>
      vget g' (wD x.w) = { val := (rowGet g i).val, tag := forceTag g (rowTag g i) .bool }
      ∧ (∀ r, r ≠ wD x.w → vget g' r = vget g r)
      ∧ { steady g g' with v := g.v, everSecret := g.everSecret } = g
      ∧ stepsOver g g' x.w (wPi x.w) (BitVec.ofNat 6 (wInc x.w)).toInt
      ∧ g'.cycles = g.cycles + (if rowSecret g i then byProfile g 1 2 3 else 1)))
  ∧ (∀ (x : IsaX) (s : State),
    let g := engOf x s
    let i := aget g (wA x.w) + wOff x.w
    let v := vget g (wD x.w)
    atPc .vst x s = true → (wPi x.w || wInc x.w == 0) = true → i < rowLimit g →
    (rowSecret g i || !(v.tag.secret || inShuffle g)) = true →
    (rowSecret g i = true → v.tag.secret = false → masksReady g = true) →
    retires (.vst x) x s (fun g' =>
      rowGet g' i = { val := v.val, kind := if rowSecret g i then (if v.tag.secret then v.tag.kind else .bool) else .none,
                      sealed := rowSecret g i && v.tag.sealed }
      ∧ (∀ r, r ≠ i → rowGet g' r = rowGet g r)
      ∧ { steady g g' with rows := g.rows, everSecret := g.everSecret } = g
      ∧ stepsOver g g' x.w (wPi x.w) (BitVec.ofNat 6 (wInc x.w)).toInt
      ∧ g'.cycles = g.cycles + (if rowSecret g i then byProfile g 1 2 3 else 1)))
  ∧ writeClaim .vzero .vzero (.linear, 1, 1, 1)
      (fun x _ => wS1 x.w == 0 && wS2 x.w == 0 && wQ x.w == 0 && wPs x.w == 0) (fun x _ => [wD x.w]) (fun _ _ => [])
      (fun _ _ _ => 0) (fun x s _ => made (engOf x s) .bool [])
  ∧ writeClaim .vli .vli (.linear, 1, 1, 1) (fun x _ => wS1 x.w == 0 && decide (wImm x.w < 2 ^ 14)) (fun x _ => [wD x.w])
      (fun _ _ => []) (fun x _ _ => laneRow (fun _ => wImm x.w)) (fun x s _ => made (engOf x s) .bool [])
  ∧ (∀ (x : IsaX) (s : State), atPc .sget x s = true → wD x.w < 16 → wPs x.w = 0 → (qX x s).mode ≠ .quad56 →
      wS2 x.w < wordCount (qX x s).mode →
      scalarRetires (.sget x) x s (.linear, 1, 2, 3) [(vA x s).tag] (word (qX x s).mode (vA x s).val (wS2 x.w))
        (carried (engOf x s) (vA x s).tag.kind [(vA x s).tag]))
  ∧ writeClaim .sput .sput (.linear, 1, 2, 3)
      (fun x s => decide (wS1 x.w < 16) && wPs x.w == 0 && (qX x s).mode != .quad56
        && decide (wS2 x.w < wordCount (qX x s).mode) && joinKind [(sA x s).tag, (vOld x s).tag] != none)
      (fun x _ => [wD x.w]) (fun x s => [(sA x s).tag, (vOld x s).tag])
      (fun x s _ => wordRow (qX x s).mode (fun j =>
        if j = wS2 x.w then (sA x s).val.toNat else word (qX x s).mode (vOld x s).val j))
      (fun x s _ => carried (engOf x s) ((joinKind [(sA x s).tag, (vOld x s).tag]).getD .none)
        [(sA x s).tag, (vOld x s).tag])

/-- R211, R212, R213: the Keccak and SHA-2 cores on groups of registers, the block cipher and GHASH on a register. -/
def Obligations.CoresAndCiphers : Prop :=
  coreClaim .vkeccakF .vkeccakF (.port, 26, 52, 78) 8 0
    (fun x s => wS1 x.w == 0 && wD x.w % 8 == 0 && portOn (engOf x s) 4 && (envAt x s).keccakCore.isSome)
    (fun st _ => keccakBytes (st.take 200) ++ st.drop 200)
  ∧ coreClaim .vshaCs .vshaCs (.port, 66, 72, 78) 2 3
    (fun x s => wD x.w % 2 == 0 && decide (wD x.w + 2 ≤ 32 ∧ wS1 x.w + 3 ≤ 32 ∧ (wD x.w + 2 ≤ wS1 x.w ∨ wS1 x.w + 3 ≤ wD x.w))
      && portOn (engOf x s) 5 && (envAt x s).sha2Core.isSome
      && (portOn (engOf x s) 7 || (engOf x s).profile == 0
        || !anySecret (groupTags (engOf x s) (wD x.w) 2 ++ groupTags (engOf x s) (wS1 x.w) 3)))
    (fun st b => sha256Block (st.take 32) (b.take 64) ++ st.drop 32)
  ∧ coreClaim .vshaCl .vshaCl (.port, 82, 88, 94) 3 5
    (fun x s => decide (wD x.w + 3 ≤ 32 ∧ wS1 x.w + 5 ≤ 32 ∧ (wD x.w + 3 ≤ wS1 x.w ∨ wS1 x.w + 5 ≤ wD x.w))
      && portOn (engOf x s) 5 && (envAt x s).sha2Core.isSome
      && (portOn (engOf x s) 7 || (engOf x s).profile == 0
        || !anySecret (groupTags (engOf x s) (wD x.w) 3 ++ groupTags (engOf x s) (wS1 x.w) 5)))
    (fun st b => sha512Block (st.take 64) (b.take 128) ++ st.drop 64)
  ∧ cipherClaim .cblkE .cblkE (fun _ => true) (fun g c => blockCycles g c.alg) false
    (fun c _ a => cipherEnc c.alg c.key (a.take (cipherBlk c.alg)))
  ∧ cipherClaim .cblkD .cblkD (fun _ => true) (fun g c => blockCycles g c.alg) false
    (fun c _ a => cipherDec c.alg c.key (a.take (cipherBlk c.alg)))
  ∧ cipherClaim .cghash .cghash (fun c => c.hash.isSome && !portTdea c.alg) (fun g _ => byProfile g 8 16 24) true
    (fun c z a => ghashStep (c.hash.getD []) (z.take 16) (a.take 16))
  ∧ (∀ (x : IsaX) (s : State) (c : CipherCore), atPc .cghInit x s = true → masksReady (engOf x s) = true →
      wD x.w = 0 → wS1 x.w = 0 → wS2 x.w = 0 → wQ x.w = 0 → wPs x.w = 0 → portOn (engOf x s) 6 = true →
      (engOf x s).core = some c → portTdea c.alg = false →
      retires (.cghInit x) x s (fun g' =>
        g'.core = some { c with hash := some (aesEnc c.key (List.replicate 16 0)) }
        ∧ { steady (engOf x s) g' with core := (engOf x s).core } = engOf x s ∧ goesOn (engOf x s) g'
        ∧ g'.cycles = (engOf x s).cycles + blockCycles (engOf x s) c.alg))

/-- R214, R215, R217: key material in and out, input and output. -/
def Obligations.KeysInputOutput : Prop :=
  keyRowClaim .kldA .kldA false ∧ keyRowClaim .kldB .kldB true
  ∧ keyCoreClaim .kldCa .kldCa false ∧ keyCoreClaim .kldCb .kldCb true
  ∧ (∀ (x : IsaX) (s : State) (n : Nat),
      let g := engOf x s
      let a := aget g (wA x.w)
      atPc .kput x s = true → wD x.w = 0 → wRs x.w = true → wNm1 x.w < 28 → inShuffle g = false → portOn g 3 = true →
      a < rowLimit g → rowSecret g a = true → g.returnLen = some n → g.returned.length + wNm1 x.w + 1 ≤ n →
      retires (.kput x) x s (fun g' =>
        g'.returned = g.returned ++ (rowBytes (rowGet g a).val).take (wNm1 x.w + 1) ∧ g'.everSecret = true
        ∧ { steady g g' with returned := g.returned, everSecret := g.everSecret } = g
        ∧ stepsOver g g' x.w (wPi x.w) 1 ∧ g'.cycles = g.cycles + byProfile g 4 6 8))
  ∧ inputClaim .vin .vin (·.input) (·.inLen) (·.inPtr) (·.man.inSecret) (fun g g' => { g' with inPtr := g.inPtr })
  ∧ inputClaim .vaux .vaux (·.aux) (·.auxLen) (·.auxPtr) (·.man.auxSecret) (fun g g' => { g' with auxPtr := g.auxPtr })
  ∧ outputClaim .vout .vout (fun _ t => !t.secret) (fun _ _ => 4)
  ∧ outputClaim .vdecl .vdecl (fun g t => g.man.decl.contains (g.overlay, g.pc) && !t.sealed)
    (fun g t => if t.secret then byProfile g 6 8 10 else 6)

/-- R216, R163, R217, R218: conversions of the sharing kind, fresh masks, taint, random rows, declassified scalars, and the
compare pair, which takes the mismatch values at the first difference and keeps its value otherwise. -/
def Obligations.ConversionsAndDeclassify : Prop :=
  writeClaim .vconvAb .vconvAb (.gadget, 1, 24, 60)
    (fun x s => wS2 x.w == 0 && wPs x.w == 0 && convMode (qX x s).mode && kindOk (arithOf (qX x s)) (vA x s).tag)
    (fun x _ => [wD x.w]) (fun x s => [(vA x s).tag])
    (fun x s _ => words1 (qX x s).mode (vA x s).val (canonWord (qX x s)))
    (fun x s _ => carried (engOf x s) .bool [(vA x s).tag])
  ∧ writeClaim .vconvBa .vconvBa (.gadget, 1, 20, 50)
    (fun x s => wS2 x.w == 0 && wPs x.w == 0 && convMode (qX x s).mode && kindOk .bool (vA x s).tag)
    (fun x _ => [wD x.w]) (fun x s => [(vA x s).tag])
    (fun x s _ => words1 (qX x s).mode (vA x s).val (canonWord (qX x s)))
    (fun x s _ => forceTag (engOf x s) (carryTag (arithOf (qX x s)) [(vA x s).tag]) (arithOf (qX x s)))
  ∧ scalarMoveClaim .sconvAb .sconvAb (.gadget, 1, 16, 40) (fun x s => kindOk arithS (sA x s).tag) (fun a => a)
    (fun x s => carried (engOf x s) .bool [(sA x s).tag])
  ∧ scalarMoveClaim .sconvBa .sconvBa (.gadget, 1, 14, 36) (fun x s => kindOk .bool (sA x s).tag) (fun a => a)
    (fun x s => forceTag (engOf x s) (carryTag arithS [(sA x s).tag]) arithS)
  ∧ (∀ (x : IsaX) (s : State), atPc .vremask x s = true → ((vA x s).tag.secret = true → masksReady (engOf x s) = true) →
      wS2 x.w = 0 → wQ x.w = 0 → wPs x.w = 0 →
      retires (.vremask x) x s (fun g' =>
        vget g' (wD x.w) = { val := (vA x s).val, tag := carried (engOf x s) (vA x s).tag.kind [(vA x s).tag] }
        ∧ wroteV (engOf x s) g' [wD x.w] (fun _ => (vA x s).val) (fun _ => (vA x s).tag.secret)
        ∧ g'.cycles = (engOf x s).cycles + costs (engOf x s) (.linear, 1, 2, 3) [(vA x s).tag] false))
  ∧ (∀ (x : IsaX) (s : State), atPc .vtaint x s = true → masksReady (engOf x s) = true →
      wS1 x.w = 0 → wS2 x.w = 0 → wPs x.w = 0 →
      retires (.vtaint x) x s (fun g' =>
        vget g' (wD x.w) = { val := (vOld x s).val, tag := if (vOld x s).tag.secret then (vOld x s).tag
            else { secret := true, kind := if convMode (qX x s).mode then arithOf (qX x s) else .bool, sealed := false } }
        ∧ wroteV (engOf x s) g' [wD x.w] (fun _ => (vOld x s).val) (fun _ => true) ∧ g'.everSecret = true
        ∧ g'.cycles = (engOf x s).cycles + byProfile (engOf x s) 1 2 3))
  ∧ (∀ (x : IsaX) (s : State), atPc .staint x s = true → masksReady (engOf x s) = true →
      wD x.w < 16 → wS1 x.w = 0 → wS2 x.w = 0 → wQ x.w = 0 → wPs x.w = 0 →
      retires (.staint x) x s (fun g' =>
        let z := sget (engOf x s) (wD x.w)
        wroteS (engOf x s) g' (wD x.w) z.val.toNat
          (if z.tag.secret then z.tag else { secret := true, kind := .bool, sealed := false })
        ∧ g'.cycles = (engOf x s).cycles + byProfile (engOf x s) 1 2 3))
  ∧ (∀ (x : IsaX) (s : State), atPc .vrand x s = true → fntReady (engOf x s) = true →
      wS1 x.w = 0 → wS2 x.w = 0 → wQ x.w = 0 → wPs x.w = 0 →
      retires (.vrand x) x s (fun g' =>
        vget g' (wD x.w) = { val := fountainRow (engOf x s).fnt, tag := { secret := true, kind := .bool, sealed := false } }
        ∧ wroteV (engOf x s) g' [wD x.w] (fun _ => fountainRow (engOf x s).fnt) (fun _ => true)
        ∧ g'.fnt.rowsDrawn = (engOf x s).fnt.rowsDrawn + 1
        ∧ g'.cycles = (engOf x s).cycles + byProfile (engOf x s) 1 2 3))
  ∧ (∀ (x : IsaX) (s : State), atPc .sdecl x s = true → wD x.w < 16 → wS1 x.w < 16 → wS2 x.w = 0 → wQ x.w = 0 → wPs x.w = 0 →
      inShuffle (engOf x s) = false → (engOf x s).man.decl.contains ((engOf x s).overlay, (engOf x s).pc) = true →
      (sA x s).tag.sealed = false →
      retires (.sdecl x) x s (fun g' => wroteS (engOf x s) g' (wD x.w) (sA x s).val.toNat pubTag
        ∧ g'.cycles = (engOf x s).cycles + (if (sA x s).tag.secret then byProfile (engOf x s) 2 4 6 else 2)))
  ∧ (∀ (x : IsaX) (s : State),
      let g := engOf x s
      let sec := (vA x s).tag.secret || (vB x s).tag.secret
      let same := (rowBytes (vA x s).val).take (wD x.w + 1) == (rowBytes (vB x s).val).take (wD x.w + 1)
      atPc .fcmp x s = true → wQ x.w = 0 → wPs x.w = 0 → wD x.w < 28 → inShuffle g = false →
      (sec = true → g.man.decl.contains (g.overlay, g.pc) = true ∧ (vA x s).tag.sealed = false ∧ (vB x s).tag.sealed = false) →
      retires (.fcmp x) x s (fun g' =>
        g'.cmpOk = (if same then g.cmpOk else 0) ∧ g'.cmpOkn = (if same then g.cmpOkn else 0xFFFFFFFF)
        ∧ { steady g g' with cmpOk := g.cmpOk, cmpOkn := g.cmpOkn } = g ∧ goesOn g g'
        ∧ g'.cycles = g.cycles + (if sec then byProfile g 2 4 6 else 2)))

/-! The gatehouse (03_gatehouse.md) -/

/-- R64 to R67: doorbells, enabling and disabling a queue pair, FETCH_EN, and the tail record of a queue whose SQ_HEAD has
moved, 64 ticks after the last. `k` is the queue pair, `d` the depth of its rings. -/
def Obligations.QueueRegisters : Prop :=
  (∀ (s : State) (fn : Fin 1024) (q : Fin 16) (value : BitVec 32),
    let k := qpIx fn.val q.val
    let p := getQp s k
    let d := p.depthM1 + 1
    let v := value.toNat % 65536
    queueIs fn.val q.val = true → hostReach s = true → p.enable = true → v < d →
    (ringDist d p.sqHead p.sqTail + ringDist d p.sqTail v ≤ p.depthM1 →
      becomes (.sqTail fn q value) s (setQp s k { p with sqTail := v }))
    ∧ (ringDist d p.cqHead v ≤ ringDist d p.cqHead p.cqTail →
      becomes (.cqHead fn q value) s (setQp s k { p with cqHead := v, fetched := p.fetched - ringDist d p.cqHead v })))
  ∧ (∀ (s : State) (fn : Fin 1024) (q : Fin 16) (value : BitVec 32),
    let k := qpIx fn.val q.val
    let p := getQp s k
    let v := (value ||| 0x10000).toNat
    queueIs fn.val q.val = true → hostReach s = true → p.enable = false → v % 65536 ≠ 0 →
    p.sqBase % 4096 = 0 → p.cqBase % 4096 = 0 → v / 2 ^ 17 % 64 < (if fn.val = 0 then 48 else 4) →
    becomes (.qpEnable fn q value) s
      (setQp { s with gth := { s.gth with
          vfEnable := s.gth.vfEnable || fn.val != 0, passed := s.gth.passed.filter (fun e => e.1 != k) } } k
        { p with depthM1 := v % 65536, enable := true, vector := v / 2 ^ 17 % 64, intEn := v.testBit 23,
                 weight := v / 2 ^ 24 % 16, error := false, sqTail := 0, sqHead := 0, cqTail := 0, cqHead := 0, fetched := 0,
                 headMoved := false, tailTick := s.tick, msiTick := none, tailDue := false, msiDue := false }))
  ∧ (∀ (s : State) (fn : Fin 1024) (q : Fin 16) (value : BitVec 32),
    let k := qpIx fn.val q.val
    let p := getQp s k
    queueIs fn.val q.val = true → hostReach s = true →
    answers (.qpDisable fn q value) s (fun t =>
      (getQp t k).enable = false ∧ (getQp t k).sqBase = p.sqBase ∧ (getQp t k).cqBase = p.cqBase
        ∧ (getQp t k).sqHead = p.sqHead ∧ (getQp t k).cqTail = p.cqTail ∧ (getQp t k).error = p.error
        ∧ (∀ n, n ≠ k → getQp t n = getQp s n)
        ∧ t.gth.held = s.gth.held.filter (fun h => !(h.plan.isNone && h.cmd.fn == fn.val && h.cmd.queue == q.val))
        ∧ t = { s with gth := { s.gth with qp := t.gth.qp, held := t.gth.held } }))
  ∧ (∀ (s : State) (on : Bool), hostReach s = true →
    becomes (.fetchEn on) s { s with gth := { s.gth with fetchEn := on } })
  ∧ (∀ (s : State) (k : Nat), (getQp s k).headMoved = true → (getQp s k).tailTick + 64 ≤ s.tick →
    (s.gth.ideRequired = true → s.gth.ideSecure = true) →
    answers .tailRecordTimer s (fun t => (getQp t k).headMoved = false ∧ (getQp t k).tailTick = s.tick
      ∧ (∃ l, t.out = s.out ++ l
        ∧ .tailRecord (k / 16) (k % 16) (getQp s k).cqTail (getQp s k).sqHead ∈ l)
      ∧ Quiet { s with gth := { s.gth with qp := t.gth.qp } } t))

/-- R68: a doorbell beyond the rings is a queue error. The queue pair has ERROR, nothing is fetched from it; QERR of the
PF, or VF_QERR of the VF, has its bit; the first error fills the error registers, a record is written. -/
def Obligations.QueueErrors : Prop :=
  ∀ (s : State) (fn : Fin 1024) (q : Fin 16) (value : BitVec 32),
    let k := qpIx fn.val q.val
    let p := getQp s k
    let d := p.depthM1 + 1
    let v := value.toNat % 65536
    queueIs fn.val q.val = true → hostReach s = true → p.enable = true →
    let bad := fun (t : State) =>
      getQp t k = { p with error := true } ∧ (∀ n, n ≠ k → getQp t n = getQp s n) ∧ queueReady t k = false
      ∧ (fn.val = 0 → t.gth.qerr = s.gth.qerr ||| 2 ^ q.val)
      ∧ (fn.val ≠ 0 → (kget (fun _ => (0, 0, 0)) t.gth.vfErr fn.val).1.testBit q.val = true)
      ∧ t.gth.intStatus = s.gth.intStatus ||| 1
      ∧ (s.gth.intStatus.testBit 0 = false →
          t.gth.qerrFn = fn.val ∧ t.gth.qerrQueue = q.val ∧ t.gth.qerrCause = 2)
      ∧ (s.gth.intStatus.testBit 0 = true → t.gth.qerrFn = s.gth.qerrFn ∧ t.gth.qerrQueue = s.gth.qerrQueue
          ∧ t.gth.qerrCause = s.gth.qerrCause)
      ∧ Quiet { s with gth := { s.gth with qp := t.gth.qp, qerr := t.gth.qerr, vfErr := t.gth.vfErr,
                                           intStatus := t.gth.intStatus, qerrFn := t.gth.qerrFn,
                                           qerrQueue := t.gth.qerrQueue, qerrCause := t.gth.qerrCause } } t
    (d ≤ v ∨ p.depthM1 < ringDist d p.sqHead p.sqTail + ringDist d p.sqTail v → answers (.sqTail fn q value) s bad)
    ∧ (d ≤ v ∨ ringDist d p.cqHead p.cqTail < ringDist d p.cqHead v → answers (.cqHead fn q value) s bad)

/-- R65, R84, R91, R92, R285, R136, R18: a descriptor that is fetched moves SQ_HEAD and is counted; a held command tries
again once what held it has gone, and is refused after 5 ms at check 9. -/
def Obligations.FetchAndHolds : Prop :=
  (∀ (s : State) (c : Cmd),
    let k := qpIx (c.fn % 1024) (c.queue % 16)
    let q := getQp s k
    queueReady s k = true → horizonPaused s = false → arbPick s = some k →
    ((critFull s && isCritical c.desc.opcode || poolPaused s && poolCmd c) = true → ∀ b,
      becomes (.descriptorFetch c b) s { s with gth := { s.gth with
        passed := (k, !(critFull s && isCritical c.desc.opcode)) :: s.gth.passed.filter (fun e => e.1 != k) } })
    ∧ ((critFull s && isCritical c.desc.opcode || poolPaused s && poolCmd c) = false →
    (∃ s1, getQp s1 k = { q with sqHead := (q.sqHead + 1) % (q.depthM1 + 1), fetched := q.fetched + 1, headMoved := true }
      ∧ (∀ n, n ≠ k → getQp s1 n = getQp s n) ∧ s1.gth.arbFn = k / 16
      ∧ Quiet { s with gth := { s.gth with
          qp := s1.gth.qp, arbFn := s1.gth.arbFn, arbPos := s1.gth.arbPos, passed := s1.gth.passed } } s1
      ∧ becomes (.descriptorFetch c false) s { accept { c with fn := k / 16, queue := k % 16 } s1 with pending := s.pending })
    ∧ answers (.descriptorFetch c true) s (fun t => (getQp t k).error = true ∧ (getQp t k).sqHead = q.sqHead)))
  ∧ (∀ (s u : State) (h : Held), u = settle s → u.gth.held = [h] → noneBehind (resumed u h) = true →
    ((h.why = .fence ∨ h.why = .ide) → becomes .fenceRelease s { resumed u h with pending := s.pending })
    ∧ (h.why = .stage → (resumed u h).gth.batches = [] → becomes .stageReserve s { resumed u h with pending := s.pending })
    ∧ (h.why = .horizon → horizonPaused s = false → (resumed u h).gth.batches = [] →
        becomes .horizonResume s { resumed u h with pending := s.pending })
    ∧ (h.why = .poolHorizon → poolPaused s = false → (resumed u h).gth.batches = [] →
        becomes .poolHorizonResume s { resumed u h with pending := s.pending })
    ∧ (h.why = .ots → becomes .otsStallEnd s { resumed u h with pending := s.pending }))
  ∧ (∀ (s : State) (h : Held), s.gth.held = [h] → h.why = .stage → h.since + 1024 ≤ s.tick → starvedNow s = none →
    becomes .stageStarveTimeout s { s with gth := { s.gth with starved := some (qpIx h.cmd.fn h.cmd.queue) } })
  ∧ (∀ (s u : State) (h : Held), s.gth.held = [h] → h.why = .rng → h.since + 5243 ≤ s.tick → s.aut.kilnWait = none →
    u = { s with gth := { s.gth with held := [] } } →
    becomes .rngWaitTimeout s { completeReject (match h.plan with
      | some j => dropPlan u j
      | none => u) h.cmd stNotReady 0 with pending := s.pending })
  ∧ (∀ (s : State) (n : Nat) (j : Job), getJob s n = some j → j.waitOts = true → j.batch = none →
    answers (.otsAdvanceConfirm n) s (fun t => getJob t n = some { j with waitOts := false }
      ∧ (∀ m, m ≠ n → getJob t m = getJob s m) ∧ Quiet { s with gth := { s.gth with jobs := t.gth.jobs } } t))

/-! Release and aborts (02_sundial.md, 06_engine_model.md) -/

/-- R43, R44, R45, R56, R175, R218: what is due leaves, earlier ticks first and IMMEDIATE jobs last; a job held beyond B + A
counts as an overrun and carries detail 1; a verification whose compare pair does not fit its status leaves with
FAULT_DETECTED; a job still open at its last tick is aborted; a payload that cannot be read ends it. -/
def Obligations.ReleaseAndAborts : Prop :=
  (∀ (s : State) (p : Job → Bool), (dueJobs s p).Pairwise (fun a b =>
    (a.2.rel = .immediate → b.2.rel = .immediate)
      ∧ ((a.2.rel = .immediate ↔ b.2.rel = .immediate) → a.2.due ≤ b.2.due)))
  ∧ (∀ (j : Job) (x : Nat), releaseAt j x = match j.rel with
      | .immediate => (x, false)
      | .grid => if x ≤ j.base + j.allot then (j.base + j.allot, false)
          else if x ≤ j.base + 2 * j.allot then (j.base + 2 * j.allot, true) else (j.base + 4 * j.allot, true)
      | .ladder => ((((List.range j.steps).map (fun i => j.base + j.allot * 2 ^ i)).find? (fun y => decide (x ≤ y))).getD
          (max x (jobLimit j)), false))
  ∧ (∀ (i : Instr) (p : Job → Bool) (s : State) (n : Nat) (j : Job),
    ((i = .releaseTick ∧ p = fun _ => true) ∨ (i = .lateRelease ∧ p = fun j => j.late)
      ∨ (i = .ladderStep ∧ p = fun j => j.rel == .ladder)) →
    dueJobs s (fun _ => true) = [(n, j)] → p j = true → dueEntries s = [] → s.ldg.parts = [] → getJob s n = some j →
    j.batch = none → j.crit = false → isStream j.cmd.desc.opcode = false → j.status ≠ stSquashed → toHost s j.cmd = true →
    pairBad j.cmd.desc.opcode j.status j.pair = false →
    answers i s (fun t =>
      getJob t n = none ∧ (∀ m, m ≠ n → getJob t m = getJob s m)
      ∧ completed j.cmd j.status (if j.late then 1 else j.detail) (if j.status = 0 then j.output.length else j.required) j.pair
          (if directOut j then [] else j.output) s t
      ∧ t.sdl = (if j.late then { s.sdl with overrun := satInc 32 s.sdl.overrun, intStatus := s.sdl.intStatus ||| 2 ^ 4 }
          else s.sdl)
      ∧ Answering { s with sdl := t.sdl, dgs := t.dgs } t))
  ∧ (∀ (s : State) (n : Nat) (j : Job), dueJobs s (fun _ => true) = [(n, j)] → dueEntries s = [] → s.ldg.parts = [] →
    getJob s n = some j → j.batch = none → j.crit = false → j.late = false → j.status ≠ stSquashed → toHost s j.cmd = true →
    pairBad j.cmd.desc.opcode j.status j.pair = true →
    answers .releaseTick s (fun t => getJob t n = none ∧ completed j.cmd 0x0801 0x0159 0 0 [] s t))
  ∧ (∀ (s : State) (n : Nat) (j : Job), getJob s n = some j →
    s.gth.jobs.filter (fun e => jobOpen e.2 && !e.2.ladder && decide (jobLimit e.2 ≤ now s)) = [(n, j)] →
    answers .allotmentAbort s (aborts s n j 0x0601 0x0160 (jobLimit j)))
  ∧ (∀ (s : State) (n : Nat) (j : Job), getJob s n = some j →
    s.gth.jobs.filter (fun e => jobOpen e.2 && e.2.ladder && decide (jobLimit e.2 ≤ now s)) = [(n, j)] →
    answers .ladderAbort s (fun t => aborts s n j 0x0601 0x0161 (jobLimit j) t ∧ recorded 0x0104 t
      ∧ t.sdl = { s.sdl with ladderAbort := satInc 32 s.sdl.ladderAbort, intStatus := s.sdl.intStatus ||| 2 ^ 4 }))
  ∧ (∀ (s : State) (n : Nat), becomes (.dmaReadReturn n false) s s)
  ∧ (∀ (i : Instr) (s : State) (n : Nat) (j : Job), (i = .dmaReadReturn n true ∨ i = .completionTimeout n) →
    getJob s n = some j → jobOpen j = true →
    answers i s (fun t =>
      (∃ k, getJob t n = some k ∧ k.phase = .done ∧ k.status = 0x0106 ∧ k.output = []
        ∧ k.due = (releaseAt j (now s)).1 ∧ k.late = (releaseAt j (now s)).2)
      ∧ (∀ m, m ≠ n → getJob t m = getJob s m) ∧ t.gth.intStatus = s.gth.intStatus ||| 2
      ∧ (j.phase = .queued → t.eng = s.eng ∧ t.bne = s.bne)
      ∧ (∀ x, j.phase = .running → j.part = some x → isPool j = false →
          (getEng t x).st = .clearing ∧ (getEng t x).job = none ∧ ∀ y, y ≠ x → getEng t y = getEng s y)))

/-! Registers (20_register_map.md, 03_gatehouse.md R59, 14_lodge_protection.md) -/

/-- R7, R29, R30, R53, R59, R69, R183, R383, R388, R390, R392, R395, R505 to R507: writes of ones clear, an enable newly
set over a set status sends the vector, a _LO read latches its _HI, accesses that are no aligned words read all ones or
do nothing, a register is written only by the world its column names. R58, R69 and the MSI-X rules of the PCI Express
specification: a message is sent where MSI-X is enabled and neither the function nor the vector is masked; a masked one waits
in its pending bit; the tail record of a tick goes before the message of its queue, which leaves once in the tick; between
them only the wrap of a counter may send its own, vector 57. -/
def Obligations.RegisterAccess : Prop :=
  (∀ (s : State) (v : BitVec 32), live s = true →
    (40 ≤ v.toNat % 128 ∧ v.toNat % 128 ≤ 110 →
      becomes (.pwrCapWrite v) s { s with pwr := { s.pwr with capNext := v.toNat % 128 } })
    ∧ (¬ (40 ≤ v.toNat % 128 ∧ v.toNat % 128 ≤ 110) →
      becomes (.pwrCapWrite v) s { s with pwr := { s.pwr with capErr := true } }))
  ∧ (∀ (s : State) (v : BitVec 20), s.pwr.pendingGate = [] →
    live s = true → becomes (.pwrHoldWrite v) s { s with pwr := { s.pwr with hold := v.toNat } })
  ∧ (∀ (s : State) (v : BitVec 20) (d due : Nat), s.pwr.pendingGate = [(d, due)] → v.toNat.testBit d = false →
    live s = true → becomes (.pwrHoldWrite v) s
      { s with pwr := { s.pwr with hold := v.toNat, pendingGate := [], gated := s.pwr.gated ||| 2 ^ d } })
  ∧ (∀ (s : State), live s = true → becomes .assignLock s { s with ldg := { s.ldg with assignLock := true } })
  ∧ (∀ (s : State) (e : Fin 272),
    ((getEng s e.val).st = .idle →
      becomes (.forceScrub false e) s (setEng s e.val { getEng s e.val with st := .scrubbing, forceScrub := true }))
    ∧ ((getEng s e.val).st ≠ .idle → becomes (.forceScrub false e) s s)
    ∧ (e.val < 32 → (getBne s e.val).st = .idle →
      becomes (.forceScrub true e) s (setBne s e.val { getBne s e.val with st := .scrubbing, forceScrub := true })))
  ∧ (∀ (s : State) (ones : BitVec 32) (a : Nat) (get : State → Nat), (a, get) ∈ intPairs → hostReach s = true →
    answers (.intStatusW1c 0 a ones) s (fun t =>
      (∀ k, (get t).testBit k = ((get s).testBit k && !ones.toNat.testBit k))
      ∧ (∀ b other, (b, other) ∈ intPairs → b ≠ a → other t = other s)
      ∧ (a = 0x2218 → ones.toNat.testBit 0 = true → t.gth.qerrFn = 0 ∧ t.gth.qerrQueue = 0 ∧ t.gth.qerrCause = 0)))
  ∧ (∀ (s : State) (fn : Fin 1024) (ones : BitVec 32), fn.val ≠ 0 → hostReach s = true →
    answers (.intStatusW1c fn 0x88 ones) s (fun t => ∀ k,
      (kget (fun _ => (0, 0, 0)) t.gth.vfErr fn.val).1.testBit k
        = ((kget (fun _ => (0, 0, 0)) s.gth.vfErr fn.val).1.testBit k && !(decide (k < 4) && ones.toNat.testBit k))))
  ∧ (∀ (s : State) (m : Master), readLive s m = true →
    answers (.sdlTimeRead m) s (fun t =>
      t.out = s.out ++ [.readData 0x1008 (s.sdl.grid % 2 ^ 32)]
      ∧ (∀ u : State, u.latch = t.latch → readLive u m = true →
          becomes (.latchRead m 0 ⟨.regs, 0x100C⟩ 4) u
            { u with out := u.out ++ [.readData 0x100C (s.sdl.grid / 2 ^ 32 % 2 ^ 32)] })
      ∧ (∀ other pair, other ≠ m → kget (fun _ => 0) t.latch (latchIx pair other)
          = kget (fun _ => 0) s.latch (latchIx pair other))
      ∧ t = { s with latch := t.latch, freeCtr := t.freeCtr, out := t.out }))
  ∧ (∀ (s : State) (m : Master) (fn : Fin 1024) (a size : Nat) (x : HostSpace), readLive s m = true →
    (size ≠ 4 ∨ a % 4 ≠ 0) →
    becomes (.latchRead m fn ⟨x, a⟩ size) s { s with out := s.out ++ [.readData a (2 ^ (8 * size) - 1)] })
  ∧ (∀ (s : State) (m : Master) (a : Nat), readLive s m = true → a % 4 = 0 → hiPair a = none → loLatch s a = none →
    becomes (.latchRead m 0 ⟨.regs, a⟩ 4) s { s with out := s.out ++ [.readData a (readBar0 s a % 2 ^ 32)] })
  ∧ (∀ (s : State) (fn : Fin 1024) (a : Nat), hostReach s = true → a % 4 = 0 → fn.val ≠ 0 →
    becomes (.latchRead .pf fn ⟨.regs, a⟩ 4) s { s with out := s.out ++ [.readData a (readVf s fn.val a % 2 ^ 32)] })
  ∧ (∀ (s : State) (fn : Fin 1024), hostReach s = true →
    becomes (.latchRead .pf fn ⟨.config, 0⟩ 4) s
      { s with out := s.out ++ [.readData 0 (0x1F5A + 2 ^ 16 * (if fn.val = 0 then 0x0256 else 0x0257))] })
  ∧ (∀ (s : State) (fn : Fin 1024) (i : Nat) (v : BitVec 32), hostReach s = true → i < (if fn.val = 0 then 64 else 4) →
    let e := getMsix s fn.val i
    becomes (.registerWrite .pf fn ⟨.msix, (16 * i)⟩ 4 v) s
      (setMsix s fn.val i { e with addr := e.addr / 2 ^ 32 * 2 ^ 32 + v.toNat })
    ∧ becomes (.registerWrite .pf fn ⟨.msix, (16 * i + 8)⟩ 4 v) s (setMsix s fn.val i { e with data := v.toNat })
    ∧ becomes (.latchRead .pf fn ⟨.msix, (16 * i + 8)⟩ 4) s
        { s with out := s.out ++ [.readData (16 * i + 8) (e.data % 2 ^ 32)] })
  ∧ (∀ (s : State) (m : Master) (fn : Fin 1024) (a size : Nat) (v : BitVec 32) (x : HostSpace), (size ≠ 4 ∨ a % 4 ≠ 0) →
    becomes (.registerWrite m fn ⟨x, a⟩ size v) s s)
  ∧ (∀ (s : State) (v : BitVec 32), hostReach s = true →
    becomes (.registerWrite .pf 0 ⟨.regs, 0x105C⟩ 4 v) s { s with sdl := { s.sdl with schedSel := v.toNat % 256 } }
    ∧ becomes (.registerWrite .pf 0 ⟨.regs, 0x5010⟩ 4 v) s { s with kst := { s.kst with lowMark := v.toNat % 2 ^ 18 } }
    ∧ (s.kst.intStatus &&& intMask 5 v.toNat = s.kst.intStatus &&& intMask 5 v.toNat &&& s.kst.intEnable →
      becomes (.registerWrite .pf 0 ⟨.regs, 0x500C⟩ 4 v) s { s with kst := { s.kst with intEnable := intMask 5 v.toNat } })
    ∧ (s.kst.intStatus &&& intMask 5 v.toNat ≠ s.kst.intStatus &&& intMask 5 v.toNat &&& s.kst.intEnable →
      becomes (.registerWrite .pf 0 ⟨.regs, 0x500C⟩ 4 v) s
        (sendMsix { s with kst := { s.kst with intEnable := intMask 5 v.toNat } } 0 50))
    ∧ (∀ a ∈ [0x1004, 0x5004, 0xA004, 0xAF04, 0xAF08, 0xAF14], becomes (.registerWrite .pf 0 ⟨.regs, a⟩ 4 v) s s))
  ∧ (∀ (s : State) (v : BitVec 32), live s = true →
    becomes (.registerWrite .keeper 0 ⟨.regs, 0x1004⟩ 4 v) s
      { s with sdl := { s.sdl with todTxEn := v.toNat.testBit 0, refEn := v.toNat.testBit 1, ppsPol := v.toNat.testBit 2 } }
    ∧ becomes (.registerWrite .keeper 0 ⟨.regs, 0xAF14⟩ 4 v) s { s with pwr := { s.pwr with holdTimeout := v.toNat % 65536 } }
    ∧ becomes (.registerWrite .keeper 0 ⟨.regs, 0x5010⟩ 4 v) s s
    ∧ ∀ p, p < 16 → becomes (.registerWrite .keeper 0 ⟨.regs, (0x20820 + 0x1000 * p)⟩ 4 v) s
        (setPav s p { getPav s p with intStatus := w1c (getPav s p).intStatus v.toNat }))
  ∧ (∀ (s : State) (m : Fin 24) (r : Fin 16) (b : Bytes), live s = true →
    (regionForm b = true → regionLocked (getRegion s m.val r.val) = false → s.mpu.committing = false →
      becomes (.mpuRegionWrite m r b) s { s with mpu := { s.mpu with
        staged := kset (fun _ => regionReset) s.mpu.staged (mpuIx m.val r.val) (regionParse b) } })
    ∧ (regionForm b = true → regionLocked (getRegion s m.val r.val) = false → s.mpu.committing = true →
      becomes (.mpuRegionWrite m r b) s
        { s with mpu := { s.mpu with heldWrites := s.mpu.heldWrites ++ [(mpuIx m.val r.val, regionParse b)] } })
    ∧ (regionForm b = true → regionLocked (getRegion s m.val r.val) = true →
      answers (.mpuRegionWrite m r b) s (fun t => recorded 0x0A04 t
        ∧ Quiet { s with mpu := { s.mpu with lockedWrite := true } } t))
    ∧ (regionForm b = false → answers (.mpuRegionWrite m r b) s (fun t => recorded 0x0A04 t ∧ Quiet s t)))
  ∧ (∀ (s : State) (fn v : Nat),
    (msixOpen s fn v = true → (sendMsix s fn v).out = s.out ++ [.msix fn v]
      ∧ sendMsix s fn v = { s with pmc := (sendMsix s fn v).pmc, out := (sendMsix s fn v).out })
    ∧ (msixOpen s fn v = false → (msixCtl s fn).testBit 1 = true → sendMsix s fn v = setPending s fn v true)
    ∧ ((msixCtl s fn).testBit 1 = false → sendMsix s fn v = s))
  ∧ (∀ (s : State) (k : Nat), ideBlocked s = false → s.gth.qp = [(k, getQp s k)] →
    let q := getQp s k
    (q.tailDue = true → .tailRecord (k / 16) (k % 16) q.cqTail q.sqHead ∈ (flushTick s).out)
    ∧ (q.tailDue = false → q.msiDue = false → flushTick s = s)
    ∧ (getQp (flushTick s) k).tailDue = false
    ∧ (q.msiDue = true → q.msiTick = some s.tick → ∀ fn v, (fn, v) ≠ (0, 57) →
        (flushTick s).out.count (.msix fn v) = s.out.count (.msix fn v))
    ∧ (q.msiDue = true → q.msiTick ≠ some s.tick → msixOpen s (k / 16) q.vector = true →
        ∃ l, (flushTick s).out = s.out ++ l ++ [.msix (k / 16) q.vector] ∧ ∀ o ∈ l, ∀ fn v, o = .msix fn v → (fn, v) = (0, 57)))

/-! Function-level resets and the link (13_tenancy.md R361 to R363, 03_gatehouse.md R60 to R63) -/

/-- R60 to R63, R72, R361 to R363: a reset of a VF disables its queues, squashes what it has in flight without a completion,
ends 1,048 ticks later; the link, its power states and its encryption. -/
def Obligations.LinkAndResets : Prop :=
  (∀ (s : State) (vf : Fin 1024),
    let v := getVf s vf.val
    vf.val ≠ 0 → hostReach s = true → v.flrBusy = false →
    ((v.st = .quiesced ∨ v.st = .frozen) →
      answers (.flrVf vf) s (fun t =>
        getVf t vf.val = { v with flrBusy := true, flrTick := s.tick, flrPlain := true }
        ∧ (∀ n, n ≠ vf.val → getVf t n = getVf s n)
        ∧ (∀ q, q < 4 → getQp t (qpIx vf.val q) = { getQp s (qpIx vf.val q) with enable := false })
        ∧ (∀ k, k / 16 ≠ vf.val → getQp t k = getQp s k)
        ∧ t = { s with ten := t.ten, gth := { s.gth with qp := t.gth.qp } }))
    ∧ (∀ (n : Nat) (j : Job), v.st = .serving → s.gth.jobs = [(n, j)] → j.cmd.fn = vf.val → j.phase = .queued →
      isStream j.cmd.desc.opcode = false →
      s.gth.held = [] → s.gth.ideHeld = [] → s.gth.batches = [] → s.gth.streams = [] → s.prk.shares = [] → s.ldg.parts = [] →
      s.rng.ports = [] → s.rng.rawReads = [] → keeperFree s = true →
      answers (.flrVf vf) s (fun t => getJob t n = none ∧ (getVf t vf.val).flrBusy = true
        ∧ (getVf t vf.val).flrTick = s.tick ∧ recorded 0x0105 t
        ∧ ∃ l, t.out = s.out ++ l ∧ ∀ o ∈ l, ∀ fn q c, o ≠ .completion fn q c)))
  ∧ (∀ (s : State) (vf : Fin 1024) (n : Nat) (j : Job), vf.val ≠ 0 → (getVf s vf.val).flrBusy = true →
    (getVf s vf.val).flrTick + 944 ≤ s.tick → getJob s n = some j → j.phase = .running → j.part.isSome = true →
    s.gth.jobs.filter (fun e => jobOpen e.2 && e.2.cmd.fn == vf.val) = [(n, j)] →
    (∀ e ∈ s.gth.jobs, e.2.phase = .done → e.2.status ≠ stSquashed) →
    answers (.flrReadAbandon vf) s (aborts s n j stSquashed 0 (now s)))
  ∧ (∀ (s : State) (vf : Fin 1024),
    let v := getVf s vf.val
    vf.val ≠ 0 → v.flrBusy = true → v.flrTick + 1048 ≤ s.tick → v.st ≠ .draining → (v.st = .quiesced → v.quiescer = []) →
    answers (.flrComplete vf) s (fun t =>
      getVf t vf.val = { v with flrBusy := false, flrTick := 0, flrPlain := false }
      ∧ (∀ q, q < 4 → (getQp t (qpIx vf.val q)).enable = false ∧ (getQp t (qpIx vf.val q)).error = false
          ∧ (getQp t (qpIx vf.val q)).inFlight = 0 ∧ (getQp t (qpIx vf.val q)).tailDue = false
          ∧ (getQp t (qpIx vf.val q)).msiDue = false)
      ∧ (∀ k, k / 16 ≠ vf.val → getQp t k = getQp s k)
      ∧ kget (fun _ => (0, 0, 0)) t.gth.vfErr vf.val = (0, 0, 0)
      ∧ t = { s with ten := t.ten, gth := { s.gth with qp := t.gth.qp, vfErr := t.gth.vfErr } }))
  ∧ (∀ (s : State), liveVfs s = [] →
    let off := fun (t : State) => t.gth.vfEnable = false ∧ ∀ q, q < 16 → (getQp t q).enable = false ∧ (getQp t q).error = false
    (hostReach s = true → answers .flrPf s (fun t => off t ∧ ∀ h ∈ t.gth.held, h.plan = none → h.cmd.fn ≠ 0))
    ∧ (s.boot.pwrGood = true → answers .conventionalReset s (fun t => off t ∧ t.gth.linkUp = false ∧ t.gth.linkWidth = 0
        ∧ t.gth.linkSpeed = 0 ∧ t.gth.d3hot = false ∧ t.gth.spdm = 0 ∧ t.gth.ideSecure = false
        ∧ t.gth.pci = pciReset ∧ t.gth.msix = [] ∧ t.gth.pba = [])))
  ∧ (∀ (s : State) (w : Fin 16) (r : Fin 8), s.boot.pwrGood = true → s.gth.linkUp = false →
    becomes (.perstNRise w r) s { s with gth := { s.gth with
      linkUp := true, linkWidth := w.val, linkSpeed := r.val, cfgReset := some (s.tick + 20972) } })
  ∧ (∀ (s : State), hostReach s = true →
    becomes .d3hotEntry s { s with gth := { s.gth with d3hot := true } }
    ∧ becomes .d0Return s { s with gth := { s.gth with d3hot := false } })
  ∧ (∀ (s : State) (size : Nat) (secured : Bool) (r : DoeRequest), hostReach s = true →
    (65536 < size → becomes (.doeObject size secured r) s s)
    ∧ (size ≤ 65536 → s.gth.spdm = 0 → becomes (.doeObject size true r) s { s with out := s.out ++ [.port .doe [0x7F]] })
    ∧ (size ≤ 65536 → (secured = true → s.gth.spdm ≠ 0) →
        (secured = true ∨ (r ≠ .endSession ∧ r ≠ .heartbeat ∧ r ≠ .keyUpdate)) → answers (.doeObject size secured r) s (fun t =>
        (∃ a, t.out = s.out ++ [.port .doe a])
        ∧ t = { s with gth := { s.gth with spdm := t.gth.spdm }, freeCtr := t.freeCtr, out := t.out }
        ∧ (s.gth.spdm ≤ 4 → t.gth.spdm ≤ 4)
        ∧ (∀ x, r = .keyExchange x → t.gth.spdm = (if 4 ≤ s.gth.spdm then s.gth.spdm else s.gth.spdm + 1))
        ∧ (r = .endSession → t.gth.spdm = s.gth.spdm - 1)
        ∧ (r = .certificate 0 →
            t.out = s.out ++ [.port .doe ([0x02] ++ Sys2Proof.Config.attestChain s.lcs.deviceId s.lcs.state)])
        ∧ (r = .digests → t.out = s.out ++ [.port .doe ([0x01, 1]
            ++ sha384 (Sys2Proof.Config.attestChain s.lcs.deviceId s.lcs.state))])
        ∧ (∀ i nonce, i < 32 → r = .measurements (i + 1) nonce → ∃ sg, t.out = s.out ++ [.port .doe ([0x60]
            ++ leBytes 1 (i + 1) ++ (getMeas s i).value ++ nonce ++ sg)]))))
  ∧ (∀ (s : State), hostReach s = true → s.gth.ideSecure = false →
    (s.gth.spdm = 0 → becomes .ideStreamSecure s s)
    ∧ (s.gth.spdm ≠ 0 →
        let u := ideRelease { s with gth := { s.gth with ideSecure := true } }
        (settle u).gth.held.all (fun h => h.why != .ide) = true →
        becomes .ideStreamSecure s { settle u with pending := s.pending }))
  ∧ (∀ (s : State), (ideRelease s).gth.ideHeld = []
    ∧ (s.gth.ideHeld = [] → ideRelease s = s)
    ∧ (∀ fn q c, s.gth.ideHeld = [.completion fn q c] →
        .completion fn q { c with time := now s } ∈ (ideRelease s).out ∧ Answering s (ideRelease s)))
  ∧ (∀ (s : State), s.gth.ideSecure = true →
    (s.gth.ideRequired = false → becomes .ideStreamInsecure s { s with gth := { s.gth with ideSecure := false } })
    ∧ (s.gth.ideRequired = true → answers .ideStreamInsecure s (fun t => recorded 0x0106 t
        ∧ Quiet { s with gth := { s.gth with ideSecure := false, intStatus := s.gth.intStatus ||| 2 ^ 2 } } t)))

/-! Engines and their jobs (01_organisation.md R28, 05 R146, R147, 06 R154, R168 to R176) -/

/-- R28, R154, R168, R171 to R173, R176, R146: the life of an engine, from the start of a job in an issue slot to CLEARING or
SCRUBBING, where every register and row becomes zero; the seeds of its fountain. -/
def Obligations.EngineLife : Prop :=
  (∀ (s : State) (p : Fin 16) (n e : Nat) (j : Job), nextJob s p.val = some (n, j) → freeEngine s p.val = some e →
    isCipher j = false →
    ((getPav s p.val).issued < dutyNow s → ((suspendDetail s).isSome && jobKeyed j) = false → j.cmd.dma ≠ .payloadFails →
      answers (.jobStart p) s (fun t =>
        getEng t e = { getEng s e with
          st := .loading, job := some n, profile := j.profile, progId := j.prog, cycles := 0, probed := [] }
        ∧ (∀ y, y ≠ e → getEng t y = getEng s y)
        ∧ getJob t n = some { j with phase := .running, part := some e, started := now s }
        ∧ (∀ m, m ≠ n → getJob t m = getJob s m)
        ∧ getPav t p.val = { getPav s p.val with issued := ((getPav s p.val).issued + 1) % 64 }
        ∧ Quiet { s with eng := t.eng, pav := t.pav, gth := { s.gth with jobs := t.gth.jobs } } t))
    ∧ ((getPav s p.val).issued < dutyNow s → (suspendDetail s).isSome = true → jobKeyed j = true → j.phase = .queued →
      getJob s n = some j → answers (.jobStart p) s (aborts s n j 0x0601 0x0163 (abortDue s j)))
    ∧ (dutyNow s ≤ (getPav s p.val).issued →
      becomes (.jobStart p) s (setPav s p.val { getPav s p.val with issued := ((getPav s p.val).issued + 1) % 64 })))
  ∧ (∀ (s : State) (e : Fin 272) (n : Nat) (j : Job), (getEng s e.val).st = .loading → (getEng s e.val).job = some n →
    getJob s n = some j →
    (∀ pr, j.kind = .program → kfind s.lib.programs j.prog = some pr →
      answers (.loadingEnd e) s (fun t =>
        let g := getEng t e.val
        g.st = .running ∧ g.pc = 0 ∧ g.overlay = 0 ∧ g.imem = pr.overlays.headD [] ∧ g.man = pr.man ∧ g.job = some n
        ∧ g.package = pr.overlays ∧ g.rowTags = mapTags pr.man (getEng s e.val).profile ∧ g.returnLen = returnLenOf j
        ∧ (sget g 0).val = BitVec.ofNat 28 j.cmd.desc.inLen
        ∧ (sget g 1).val = BitVec.ofNat 28 (min (outRoom j.cmd) pr.man.maxOut)
        ∧ (sget g 2).val = BitVec.ofNat 28 ((if j.item.isSome then 0 else j.cmd.desc.auxLen) + (leadingPub s j).length)
        ∧ (sget g 3).val = BitVec.ofNat 28 (j.item.getD 0)
        ∧ (sget g 6).val = BitVec.ofNat 28 (portMatLen s j.useA) ∧ (sget g 7).val = BitVec.ofNat 28 (portMatLen s j.useB)
        ∧ (∀ i, i < 4 → pget g i = { val := 0xFFFF, tag := pubTag })
        ∧ g.v = [] ∧ g.loops = [] ∧ g.calls = [] ∧ g.everSecret = false ∧ g.cmpOk = cmpMatchOk ∧ g.cmpOkn = cmpMatchOkn
        ∧ (∀ y, y ≠ e.val → getEng t y = getEng s y)))
    ∧ (j.kind = .library → answers (.loadingEnd e) s (fun t =>
        let g := getEng t e.val
        g.st = .running ∧ g.pc = 0 ∧ g.job = some n ∧ g.man = manifestParse (libManifest j.prog)
        ∧ (sget g 0).val = BitVec.ofNat 28 j.cmd.desc.inLen
        ∧ (sget g 2).val = BitVec.ofNat 28 ((if j.item.isSome then 0 else j.cmd.desc.auxLen) + (leadingPub s j).length)
        ∧ g.aux = leadingPub s j ++ j.cmd.aux ∧ g.input = j.cmd.input
        ∧ (∃ kib, 0 < kib ∧ kib ≤ 2 ∧ (getPav t (e.val / 17)).cache.head? = some (j.prog, 0, kib))
        ∧ g.everSecret = false ∧ g.cmpOk = cmpMatchOk ∧ g.cmpOkn = cmpMatchOkn
        ∧ (∀ y, y ≠ e.val → getEng t y = getEng s y))))
  ∧ (∀ (s : State) (e k : Nat) (w : CoreWant), coreFor s e w = some k →
    (∀ c, (getEng s e).grant = some c → c.fresh = false) →
    (w = .keccak → k < 4 ∧ s.rep.kecs.contains (4 * (e / 17) + k) = false)
    ∧ (w = .sha2 → 4 ≤ k ∧ k < 6 ∧ s.rep.shas.contains (2 * (e / 17) + (k - 4)) = false)
    ∧ (∀ y, y / 17 = e / 17 → y ≠ e → (∀ c, (getEng s y).grant = some c → c.core ≠ k)
        ∧ ((getEng s y).want = w → (getEng s e).want = w ∧ (getEng s e).wantSeq ≤ (getEng s y).wantSeq)))
  ∧ (∀ (s : State) (e : Fin 272) (k : Nat), (getEng s e.val).st = .running → (getEng s e.val).want ≠ .none →
    coreFor s e.val (getEng s e.val).want = some k →
    becomes (.coreGrant e) s
      (setPav (setEng s e.val { getEng s e.val with want := .none, grant := some { core := k, fresh := true } }) (e.val / 17)
        { getPav s (e.val / 17) with coreState := kdel (getPav s (e.val / 17)).coreState k }))
  ∧ (∀ (s : State) (e : Fin 272), coreFor s e.val (getEng s e.val).want = none → becomes (.coreGrant e) s s)
  ∧ (∀ (s : State) (e : Fin 272) (n b : Nat) (j : Job) (o : Obj), (getEng s e.val).st = .running →
    (getEng s e.val).job = some n → getJob s n = some j → j.useA = some b → kfind s.kst.objs b = some o → o.st ≠ .damaged →
    (j.kind = .library → j.useB = none →
      answers (.keyDeliveryDone e .clean) s (fun t =>
        getJob t n = some { j with useA := none, useB := none, matA := o.material }
        ∧ (∀ m, m ≠ n → getJob t m = getJob s m)
        ∧ kfind t.kst.objs b = some { o with waiting := o.waiting - 1 }
        ∧ getEng t e.val = { getEng s e.val with rows := leadRows j.prog (getEng s e.val).rows (leadingPub s j) }
        ∧ (∀ y, y ≠ e.val → getEng t y = getEng s y)
        ∧ Quiet { s with gth := t.gth, kst := t.kst, eng := t.eng } t))
    ∧ (j.kind = .program → (getEng s e.val).keyA.requested = true → (getEng s e.val).keyA.valid = false →
      answers (.keyDeliveryDone e .clean) s (fun t =>
        getEng t e.val = { getEng s e.val with keyA := { (getEng s e.val).keyA with material := o.material, valid := true } }
        ∧ getJob t n = some { j with useA := none }
        ∧ Quiet { s with gth := t.gth, kst := t.kst, eng := t.eng } t)))
  ∧ (∀ (s : State) (e : Fin 272), (getEng s e.val).st = .clearing → noWork s = true →
    becomes (.clearingEnd e) s (setEng s e.val { engWipe (getEng s e.val) with st := .idle }))
  ∧ (∀ (s : State) (e : Fin 272), (getEng s e.val).st = .scrubbing → (getEng s e.val).quarAfter = false → noWork s = true →
    (∀ x ∈ s.gth.jobs, x.2.status ≠ stSquashed) →
    answers (.scrubEnd e true) s (fun t =>
      getEng t e.val = { engWipe (getEng s e.val) with st := .idle, forceScrub := false }
      ∧ (∀ y, y ≠ e.val → getEng t y = getEng s y)
      ∧ (∀ n j, getJob s n = some j → j.phase = .scrubWait → isPool j = false → j.part = some e.val → j.part2 = none →
          getJob t n = some { j with phase := .done, part := none, part2 := none, due := max j.due (now s) })
      ∧ t = { s with eng := t.eng, gth := { s.gth with jobs := t.gth.jobs } }))
  ∧ (∀ (s : State) (e : Fin 272), (getEng s e.val).st ≠ .absent →
    ((getEng s e.val).fnt.seeded = false ∨ (getEng s e.val).fnt.stopped = true
      ∨ 2 ^ 20 - 256 ≤ (getEng s e.val).fnt.rowsDrawn ∨ (getEng s e.val).fnt.seedTick + 2 ^ 14 ≤ now s + 1) →
    becomes (.fountainReseed e) s
      (setEng s e.val { getEng s e.val with fnt := { (getEng s e.val).fnt with requested := true } }))
  ∧ (∀ (s : State) (e : Fin 272), (getEng s e.val).fnt.requested = true → kilnReleasing s = true →
    instStalled s 3 = false →
    answers (.fountainSeedArrive e) s (fun t =>
      (getEng t e.val).fnt = { seeded := true, seed := (kilnDraw s 3 32).1, rowsDrawn := 0, seedTick := now s,
                               requested := false, stopped := false }
      ∧ (∀ y, y ≠ e.val → getEng t y = getEng s y) ∧ Quiet { s with eng := t.eng, rng := t.rng } t))
  ∧ (∀ (s : State) (e : Fin 272), (getEng s e.val).fnt.seeded = true → (getEng s e.val).fnt.stopped = false →
    (2 ^ 20 ≤ (getEng s e.val).fnt.rowsDrawn ∨ (getEng s e.val).fnt.seedTick + 2 ^ 14 ≤ now s) → kilnReleasing s = false →
    answers (.fountainStop e) s (fun t =>
      getEng t e.val = { getEng s e.val with fnt := { (getEng s e.val).fnt with stopped := true, seeded := false } }
      ∧ (getPav t (e.val / 17)).intStatus = (getPav s (e.val / 17)).intStatus ||| 2 ^ 2 ∧ recorded 0x0505 t
      ∧ Quiet { s with eng := t.eng, pav := t.pav } t))

/-! Cipher pieces and the big-number pool (09 R257 to R259, 10 R284, R290 to R298) -/

/-- R257, R258, R284, R290, R291, R297, R298: pieces of cipher jobs, jobs of the pool; a failed comparison or check is a
fault, which scrubs and ends the job with FAULT_DETECTED. -/
def Obligations.PiecesAndPool : Prop :=
  (∀ (s : State) (p : Fin 16) (f : StoreFinding) (n e : Nat) (j : Job), nextPiece s p.val = some (n, j) →
    freeEngine s p.val = some e → pieceStarved s e j = false → pieceDry s e j = false →
    let onEngine := fun (t : State) =>
      { getEng t e with want := (getEng s e).want, grant := (getEng s e).grant, wantSeq := (getEng s e).wantSeq }
          = { getEng s e with st := .running, job := some n, profile := j.profile, cycles := 0, probed := [] }
        ∧ (∀ k, pieceCore j ≠ .none → coreFor s e (pieceCore j) = some k →
            (getEng t e).want = .none ∧ (getEng t e).grant = some { core := k, fresh := false })
        ∧ (pieceCore j ≠ .none → coreFor s e (pieceCore j) = none →
            (getEng t e).want = pieceCore j ∧ (getEng t e).grant = none
            ∧ (getPav t p.val).coreWait = satInc 32 (getPav s p.val).coreWait)
        ∧ (∀ m, m ≠ n → getJob t m = getJob s m) ∧ (∀ y, y ≠ e → getEng t y = getEng s y)
    (j.phase = .running → (restoreContext s n j).2 = true →
      answers (.cipherPieceStart p f) s (fun t => getJob t n = some { j with part := some e } ∧ onEngine t))
    ∧ (j.phase = .running → j.pieces ≠ 0 → (restoreContext s n j).2 = false →
      answers (.cipherPieceStart p f) s (fun t => (getEng t e).st = .scrubbing ∧ (getEng t e).faultDetail = 0x015A
        ∧ ∃ k, getJob t n = some k ∧ k.phase = .done ∧ k.status = 0x0801 ∧ k.detail = 0x015A ∧ k.output = []))
    ∧ (j.phase ≠ .running → j.useA = none → j.useB = none → buildsNonce j.cmd = false →
      ((suspendDetail s).isSome && jobKeyed j) = false → j.cmd.dma ≠ .payloadFails → (getPav s p.val).issued < dutyNow s →
      (restoreContext s n j).2 = true →
      answers (.cipherPieceStart p f) s (fun t =>
        getJob t n = some { j with phase := .running, part := some e, started := now s } ∧ onEngine t)))
  ∧ (∀ (s : State) (p : Fin 16) (f : StoreFinding) (n e : Nat) (j : Job), nextPiece s p.val = some (n, j) →
    freeEngine s p.val = some e → pieceMasked j = true → (getEng s e).fnt.seeded = false →
    (getEng s e).fnt.stopped = false → kilnStopped s = false → becomes (.cipherPieceStart p f) s s)
  ∧ (∀ (s : State) (e : Fin 272) (n : Nat) (j : Job), (getEng s e.val).st = .running → (getEng s e.val).job = some n →
    (getEng s e.val).want = .none → getJob s n = some j → isCipher j = true →
    (j.pieces + 1 < j.piecesAll → j.direct = false →
      answers (.cipherPieceEnd e true .good) s (fun t => getJob t n = some { j with pieces := j.pieces + 1 }
        ∧ (∀ m, m ≠ n → getJob t m = getJob s m) ∧ (∀ y, y ≠ e.val → getEng t y = getEng s y)
        ∧ { getEng t e.val with fnt := (getEng s e.val).fnt } = getEng s e.val
        ∧ Quiet { s with gth := t.gth, eng := t.eng } t))
    ∧ (j.pieces + 1 < j.piecesAll → j.direct = false →
      let k := { j with pieces := j.pieces + 1, part := none }
      let u := setJob (pieceCount s e.val j) n k
      let saved := fun (t : State) (x : SavedCtx) => getJob t n = some k ∧ (getEng t e.val).st = .clearing
        ∧ (getEng t e.val).job = none ∧ (getEng t e.val).grant = none ∧ kfind t.dgs.store (ctxSlot n k) = some x
      (clearSave u (e.val / 17) k = true → answers (.cipherPieceEnd e false .good) s (fun t =>
        saved t { wrapped := false, nonce := [], body := ctxBytes u k, tag := [] }))
      ∧ (clearSave u (e.val / 17) k = false → genReady u = true → answers (.cipherPieceEnd e false .good) s (fun t =>
        let nonce := (genDraw u 12).1
        let box := gcmCtr (aesEnc u.dgs.ctxKey) nonce (ctxBytes u k)
        saved t { wrapped := true, nonce := nonce, body := box, tag := gcmTag (aesEnc u.dgs.ctxKey) nonce (ctxAd u k) box })))
    ∧ (j.piecesAll ≤ j.pieces + 1 → j.crit = true → isStream j.cmd.desc.opcode = false → savesKey j = false → (∀ stay,
      answers (.cipherPieceEnd e stay .good) s (fun t =>
        (getEng t e.val).st = .clearing ∧ (getEng t e.val).job = none
        ∧ ∃ k, getJob t n = some k ∧ k.phase = .done ∧ k.status = 0 ∧ k.due = (releaseAt j (now s)).1)))
    ∧ (∀ (how : PieceEnd) (stay : Bool) (dt : Nat), (how = .pairFault ∧ dt = 0x0159) ∨ (how = .wrapFail ∧ dt = 0x015A) →
      j.part = some e.val →
      answers (.cipherPieceEnd e stay how) s (fun t =>
        (getEng t e.val).st = .scrubbing ∧ (getEng t e.val).faultDetail = dt
        ∧ ∃ k, getJob t n = some k ∧ k.phase = .done ∧ k.status = 0x0801 ∧ k.detail = dt ∧ k.output = [])))
  ∧ (∀ (s : State) (f : StoreFinding) (n b : Nat) (more : List Nat) (j : Job), nextPool s = some (n, j) →
    freeBnes s = b :: more → isDual j = false → s.bne.issued < dutyNow s →
    ((suspendDetail s).isSome && jobKeyed j) = false → j.cmd.dma ≠ .payloadFails → j.useA = none → j.useB = none →
    (poolBlinds j = true → kilnReleasing s = true ∧ instStalled s 4 = false) →
    answers (.bneJobStart f) s (fun t =>
      getBne t b = { getBne s b with st := .busy, profile := j.profile, dual := false, alg := j.prog, job := some n, probed := [] }
      ∧ (∀ y, y ≠ b → getBne t y = getBne s y)
      ∧ (∃ k, getJob t n = some k ∧ k.phase = .running ∧ k.part = some b ∧ k.part2 = none ∧ k.started = now s)
      ∧ (∀ m, m ≠ n → getJob t m = getJob s m)))
  ∧ (∀ (s : State) (f : StoreFinding) (n : Nat) (j : Job), nextPool s = some (n, j) → poolBlinds j = true →
    feedHeld s 4 = true → becomes (.bneJobStart f) s s)
  ∧ (∀ (s : State) (b : Fin 32) (n : Nat) (j : Job), (getBne s b.val).st = .busy → (getBne s b.val).job = some n →
    getJob s n = some j → isPool j = true → j.part = some b.val → j.part2 = none →
    (∀ (how : BneEnd) (dt : Nat), (how = .invariant ∧ dt = 0x01C7) ∨ (how = .dualMismatch ∧ dt = 0x01C6 ∧ isDual j = true) →
      answers (.bneJobEnd b how) s (fun t =>
        (getBne t b.val).st = .scrubbing ∧ (getBne t b.val).faultDetail = dt
        ∧ ∃ k, getJob t n = some k ∧ k.phase = .done ∧ k.status = 0x0801 ∧ k.detail = dt ∧ k.output = []))
    ∧ (j.crit = true →
      answers (.bneJobEnd b .good) s (fun t =>
        getBne t b.val = { getBne s b.val with st := .clearing, job := none }
        ∧ ∃ k, getJob t n = some k ∧ k.phase = .done ∧ k.status = 0)))
  ∧ (∀ (s : State) (b : Fin 32), (getBne s b.val).st = .clearing → noWork s = true →
    becomes (.bneClearingEnd b) s (setBne s b.val { getBne s b.val with st := .idle, dual := false, probed := [] }))
  ∧ (∀ (s : State) (b : Fin 32), (getBne s b.val).st = .scrubbing → (getBne s b.val).quarAfter = false → noWork s = true →
    (∀ x ∈ s.gth.jobs, x.2.status ≠ stSquashed) →
    answers (.bneScrubEnd b true) s (fun t =>
      getBne t b.val = { getBne s b.val with st := .idle, dual := false, forceScrub := false, probed := [] }
      ∧ (∀ y, y ≠ b.val → getBne t y = getBne s y)
      ∧ t = { s with bne := t.bne, gth := { s.gth with jobs := t.gth.jobs } }))

/-! The sundial (02_sundial.md) -/

/-- R31 to R38, R40, R46, R47, R50, R53, R488: frames and edges, the run of four qualifying edges and the alignment that
follows, the changes of state, the schedule at its tick. -/
def Obligations.SundialEvents : Prop :=
  (∀ (i : Instr) (s : State) (b : Bytes), (i = .todFrame b ∨ (i = .todGapTimeout b ∧ b ≠ [])) → live s = true →
    let d := s.sdl
    (frameOk b = true → frameTimely s = true →
      answers i s (fun t => t.sdl.todOk = satInc 32 d.todOk ∧ t.sdl.frameIn = true ∧ t.sdl.lastSeconds = leAt b 2 6
        ∧ t.sdl.prevSeconds = d.lastSeconds ∧ t.sdl.lastTrace = leAt b 10 1 ∧ t.sdl.utcOffset = leAt b 8 2
        ∧ t.sdl.lastTod = b ∧ t.sdl.grid = d.grid
        ∧ (d.state = .untraceable → t.sdl.state = if leAt b 10 1 = 0 ∧ d.coreFault = false then .acquire else .untraceable)
        ∧ ((d.state = .acquire ∨ d.state = .holdover) → t.sdl.state = d.state)
        ∧ (d.state = .locked → leAt b 10 1 = 0 → leAt b 2 6 = d.grid / 2 ^ 20 + 1 → t.sdl.state = .locked)
        ∧ (d.state = .locked → leAt b 10 1 ≠ 0 → 1 ≤ d.badTrace → t.sdl.state = .holdover)
        ∧ Quiet { s with sdl := t.sdl } t))
    ∧ ((frameOk b = false ∨ frameTimely s = false) →
      answers i s (fun t => t.sdl = { d with todDiscard := satInc 32 d.todDiscard, intStatus := d.intStatus ||| 2 }
        ∧ Quiet { s with sdl := t.sdl } t)))
  ∧ (∀ (s : State), s.sdl.state = .locked → s.sdl.lastFrameTick + 3 * 2 ^ 20 ≤ s.tick →
    answers .todSilence s (sdlMoves .holdover s))
  ∧ (∀ (s : State) (rising long : Bool) (sub : Fin 65536), (rising = s.sdl.ppsPol ∨ long = false) →
    becomes (.ppsEdge sub ⟨rising, long⟩) s s)
  ∧ (∀ (s : State) (rising : Bool) (sub : Fin 65536), live s = true → rising = !s.sdl.ppsPol →
    let d := s.sdl
    let off : Int := (d.lastSeconds : Int) * 2 ^ 20 - d.grid
    (d.state = .untraceable →
      answers (.ppsEdge sub ⟨rising, true⟩) s (sdlStays (fun e => e.ppsCnt = satInc 32 d.ppsCnt ∧ e.lastEdge = s.tick
        ∧ e.anyEdge = true ∧ e.qualCount = d.qualCount ∧ e.grid = d.grid) s))
    ∧ (d.state ≠ .untraceable → edgeInWindow s = false → (d.missedLast && decide (edgeClock s + 2 ^ 19 < d.nextEdge)) = false →
      answers (.ppsEdge sub ⟨rising, true⟩) s (fun t => t.sdl.qualCount = 0 ∧ t.sdl.ppsReject = satInc 32 d.ppsReject
        ∧ t.sdl.intStatus.testBit 2 = true ∧ t.sdl.grid = d.grid
        ∧ t.sdl.state = (if d.state = .locked ∧ 2 ≤ d.missed then .holdover else d.state)
        ∧ Quiet { s with sdl := t.sdl } t))
    ∧ (d.state ≠ .untraceable → edgeInWindow s = true → frameQualifies d = false →
      answers (.ppsEdge sub ⟨rising, true⟩) s (sdlStays (fun e => e.qualCount = 0 ∧ e.missed = 0 ∧ e.ppsReject = d.ppsReject
        ∧ e.grid = d.grid) s))
    ∧ (d.state ≠ .untraceable → edgeInWindow s = true → frameQualifies d = true →
      ((d.state = .locked ∨ d.qualCount < 3) →
        answers (.ppsEdge sub ⟨rising, true⟩) s (fun t => t.sdl.qualCount = min 255 (d.qualCount + 1) ∧ t.sdl.edge = d.grid
          ∧ t.sdl.missed = 0 ∧ t.sdl.state = d.state ∧ t.sdl.grid = d.grid
          ∧ Quiet { s with sdl := t.sdl, freeCtr := t.freeCtr } t))
      ∧ (d.state ≠ .locked → 3 ≤ d.qualCount → d.slewing = false → d.halfRate = false →
        (off.natAbs ≤ 1 → answers (.ppsEdge sub ⟨rising, true⟩) s (fun t => t.sdl.state = .locked ∧ t.sdl.grid = d.grid))
        ∧ (1 < off.natAbs → off.natAbs ≤ 1024 → answers (.ppsEdge sub ⟨rising, true⟩) s (fun t =>
            t.sdl.state = d.state ∧ t.sdl.slewing = true ∧ t.sdl.offset = off ∧ t.sdl.grid = d.grid))
        ∧ (1024 < off → d.sched = [] → answers (.ppsEdge sub ⟨rising, true⟩) s (fun t =>
            t.sdl.state = .locked ∧ t.sdl.grid = d.lastSeconds * 2 ^ 20))
        ∧ (off < -1024 → -1048576 ≤ off → answers (.ppsEdge sub ⟨rising, true⟩) s (fun t =>
            t.sdl.state = d.state ∧ t.sdl.halfRate = true ∧ t.sdl.offset = off ∧ t.sdl.grid = d.grid))
        ∧ (off < -1048576 → answers (.ppsEdge sub ⟨rising, true⟩) s (fun t =>
            t.sdl.state = d.state ∧ t.sdl.stepBack = true ∧ t.sdl.grid = d.grid)))))
  ∧ (∀ (s : State), s.sdl.state ≠ .untraceable → s.sdl.nextEdge + edgeWindow s.sdl < edgeClock s →
    (s.sdl.strayed = false → answers .ppsMissing s (fun t => t.sdl.qualCount = 0
      ∧ t.sdl.ppsReject = satInc 32 s.sdl.ppsReject ∧ t.sdl.missedLast = true ∧ t.sdl.frameIn = false
      ∧ t.sdl.grid = s.sdl.grid
      ∧ t.sdl.state = (if s.sdl.state = .locked ∧ 2 ≤ s.sdl.missed then .holdover else s.sdl.state)
      ∧ Quiet { s with sdl := t.sdl } t))
    ∧ (s.sdl.strayed = true → becomes .ppsMissing s { s with sdl := { s.sdl with
        nextEdge := s.sdl.nextEdge + 2 ^ 20, missedLast := true, frameIn := false, strayed := false } }))
  ∧ (∀ (s : State), s.sdl.state = .acquire → s.sdl.acqSince + 2 * 2 ^ 20 ≤ s.tick →
    answers .acquireTimeout s (sdlMoves .untraceable s))
  ∧ (∀ (s : State), s.sdl.state ≠ .locked → (s.sdl.slewing || s.sdl.halfRate) = true → s.sdl.offset.natAbs ≤ 1 →
    answers .alignComplete s (sdlMoves .locked s))
  ∧ (∀ (s : State), s.sdl.state = .holdover →
    (s.sdl.limitS ≤ holdSeconds s.sdl → answers .holdoverLimit s (sdlMoves .untraceable s))
    ∧ (s.sdl.limitS * 2 ^ 20 * 9 ≤ (s.sdl.grid - s.sdl.holdoverStart) * 10 →
      answers .holdoverWarn s (fun t => Quiet { s with sdl := { s.sdl with intStatus := s.sdl.intStatus ||| 2 ^ 6 } } t)))
  ∧ (∀ (s : State) (other : Nat),
    (other = s.sdl.grid → becomes (.coreFault other) s s)
    ∧ (other ≠ s.sdl.grid → answers (.coreFault other) s (fun t => t.sdl.coreFault = true ∧ t.sdl.state = .untraceable
        ∧ t.sdl.grid = s.sdl.grid ∧ t.sdl.intStatus.testBit 5 = true ∧ recorded 0x0204 t ∧ Quiet { s with sdl := t.sdl } t)))
  ∧ (∀ (s : State), live s = true → s.sdl.todTxEn = true → 524288 ≤ s.sdl.grid % 2 ^ 20 → s.sdl.txSecond ≤ s.sdl.grid / 2 ^ 20 →
    becomes .todTxFrame s { s with sdl := { s.sdl with txSecond := s.sdl.grid / 2 ^ 20 + 1 },
                                   out := s.out ++ [.port .time (statusFrame s.sdl)] })
  ∧ (∀ (s : State) (clock : Bool) (ppm : Int), live s = true → becomes (.refCheckWindow clock ppm) s
    { s with sdl := { s.sdl with refPresent := clock && decide (-200 ≤ ppm ∧ ppm ≤ 200) } })
  ∧ (∀ (s : State) (e : SchedEntry), dueEntries s = [e] →
    let left := s.sdl.sched.filter (fun x => x.seq != e.seq)
    let told := fun (ty : Nat) (t : State) => recorded ty t ∧ t.sdl = { s.sdl with sched := left, intStatus := s.sdl.intStatus ||| 8 }
    ((e.action = 1 ∨ e.action = 2) → answers .scheduleFire s (fun t =>
      told (if (findObj s e.target).isSome then 0x0202 else 0x0203) t ∧ Quiet { s with sdl := t.sdl } t))
    ∧ (e.action = 3 → s.prk.st = .alone → answers .scheduleFire s (fun t => told 0x0203 t ∧ Quiet { s with sdl := t.sdl } t))
    ∧ (e.action = 3 → s.prk.st ≠ .alone → answers .scheduleFire s (fun t => told 0x0202 t
        ∧ t.prk.portA.rot = s.prk.portA.rot + (if e.target.testBit 0 then 1 else 0)
        ∧ t.prk.portB.rot = s.prk.portB.rot + (if e.target.testBit 1 then 1 else 0)))
    ∧ (∀ b o, e.action = 4 → findObj s e.target = some (b, o) → e.param ≤ topProfile o.attr.alg →
      answers .scheduleFire s (fun t => told 0x0202 t ∧ ∃ o', kfind t.kst.objs b = some o' ∧ o'.attr.floor = e.param
        ∧ o'.material = o.material)))

/-! The kiln (11_random.md) -/

/-- R302 to R306, R308 to R316, R319: windows and exclusions, the kiln's start, reseeding, the ember, the ports. -/
def Obligations.KilnEvents : Prop :=
  (∀ (s : State) (i : Fin 8) (b : Bytes) (alive beat : Nat),
    let v := windowTest ((List.range 1024).map (sampleBit b)) alive beat
    let others := ((List.range 8).filter (fun k => k != i.val && srcPassing s k)).length
    kilnReleasing s = true → srcPassing s i.val = true →
    (v = 0 → answers (.sourceWindow i b alive beat) s (fun t =>
      t.rng.st = s.rng.st ∧ t.rng.rawBits = (s.rng.rawBits + 1024) % 2 ^ 64 ∧ t.rng.blocks.length ≤ 16
      ∧ (getSrc t i.val).beat = min beat 65535 ∧ (getSrc t i.val).aliveLow = min alive 255
      ∧ (∀ k, k ≠ i.val → getSrc t k = getSrc s k) ∧ t = { s with rng := t.rng }))
    ∧ (v ≠ 0 → 2 ≤ others → answers (.sourceWindow i b alive beat) s (fun t =>
      t.rng.st = .degraded ∧ (getSrc t i.val).st = .excluded ∧ (getSrc t i.val).lastFail = v
      ∧ t.rng.intStatus.testBit 1 = true ∧ (∀ k, k ≠ i.val → getSrc t k = getSrc s k) ∧ Quiet { s with rng := t.rng } t))
    ∧ (v ≠ 0 → others < 2 → kilnAlone s = true → answers (.sourceWindow i b alive beat) s (fun t =>
      t.rng.st = .failed ∧ t.rng.cause = 0x01E2 ∧ t.rng.inst = [] ∧ t.rng.blocks = [] ∧ recorded 0x0701 t))
    ∧ (2 ≤ others → answers (.repetitionFail i) s (fun t =>
      t.rng.st = .degraded ∧ (getSrc t i.val).st = .excluded ∧ (getSrc t i.val).lastFail = 1
      ∧ t.rng.rctFail = satInc 32 s.rng.rctFail ∧ t.rng.intStatus.testBit 1 = true ∧ Quiet { s with rng := t.rng } t)))
  ∧ (∀ (s : State), s.rng.st = .warming → kilnAlone s = true →
    (15 ≤ s.rng.blocks.length → 2 ≤ passingCount s → noneDue s = true →
      answers (.instantiate true) s (fun t =>
        t.rng.st = (if passingCount s = 8 then .running else .degraded)
        ∧ (∀ j, j < 5 → (getInst t j).seeded = true ∧ (getInst t j).stalled = false ∧ (getInst t j).seedTick = s.tick)
        ∧ t.rng.blocks = s.rng.blocks.drop 15 ∧ t.rng.emberTick = s.tick
        ∧ t.rng.emberZero = s.peat.ember.all (fun x => x == 0) ∧ recorded 0x0701 t
        ∧ t.peat.meshSeeded = true ∧ (s.peat.meshSeeded = true → t.peat.meshSeed = s.peat.meshSeed)
        ∧ Quiet { s with rng := t.rng, peat := { s.peat with
            ember := t.peat.ember, meshSeed := t.peat.meshSeed, meshSeeded := t.peat.meshSeeded } } t))
    ∧ answers (.instantiate false) s (fun t => t.rng.st = .failed ∧ t.rng.cause = 0x01E4 ∧ t.rng.inst = []))
  ∧ (∀ (s : State) (j : Fin 5), kilnReleasing s = true →
    (reseedDueNow s j.val = true → nearerExists s j.val = false → 2 ≤ s.rng.blocks.length → kilnAlone s = true →
      answers (.reseedDue j) s (fun t => (getInst t j.val).requests = 0 ∧ (getInst t j.val).seedTick = s.tick
        ∧ (getInst t j.val).stalled = false ∧ t.rng.blocks = s.rng.blocks.drop 2 ∧ t.rng.reseeds = satInc 32 s.rng.reseeds
        ∧ (∀ k, k ≠ j.val → getInst t k = getInst s k) ∧ t = { s with rng := t.rng }))
    ∧ ((getInst s j.val).seeded = true → (getInst s j.val).stalled = false →
      ((getInst s j.val).seedTick + 65536 ≤ s.tick ∨ 2 ^ 20 ≤ (getInst s j.val).requests) →
      answers (.reseedLimit j) s (fun t => getInst t j.val = { getInst s j.val with stalled := true }
        ∧ t.rng.stalls = satInc 32 s.rng.stalls ∧ t.rng.intStatus = s.rng.intStatus ||| 2 ^ 3 ∧ recorded 0x0703 t
        ∧ Quiet { s with rng := t.rng } t)))
  ∧ (∀ (s : State), genReady s = true → s.rng.emberTick + 2 ^ 26 ≤ s.tick →
    answers .emberRefresh s (fun t => t.peat = { s.peat with ember := (kilnDraw s 1 64).1 } ∧ t.rng.emberTick = s.tick
      ∧ t = { s with peat := t.peat, rng := t.rng }))
  ∧ (∀ (s : State) (r : PortRead) (rest : List PortRead), s.rng.ports = r :: rest → kilnReleasing s = true →
    r.cmd.desc.select.testBit 0 = false → instStalled s 0 = false →
    r.cmd.desc.outLen * 2 ^ 20 ≤ (s.tick - r.since) * 1000000000 → toHost s r.cmd = true →
    answers .rngReadDone s (fun t => returned r.cmd (kilnDraw s 0 r.cmd.desc.outLen).1 s t
      ∧ t.rng.ports.map (fun x => x.cmd) = rest.map (fun x => x.cmd)
      ∧ t.rng.portBytes = (s.rng.portBytes + r.cmd.desc.outLen) % 2 ^ 64
      ∧ Answering { s with rng := t.rng } t))
  ∧ (∀ (s : State) (r : RawRead), s.rng.rawReads = [r] → 8 * r.cmd.desc.outLen ≤ r.bits.length → toHost s r.cmd = true →
    answers .rawReadDone s (fun t => returned r.cmd (packBits (r.bits.take (8 * r.cmd.desc.outLen))) s t
      ∧ Answering { s with rng := { s.rng with rawReads := [] } } t))
  ∧ (∀ (s : State), (∀ r ∈ s.rng.rawReads, r.bits.length < 8 * r.cmd.desc.outLen) → becomes .rawReadDone s s)

/-! The key store (05_key_store.md) -/

/-- R118, R121, R145, R147, R148, R150: a deleted object is freed when the last job that waits for it has loaded it, and the
generation of its base unit goes on; the scrubber's visits and what they find. -/
def Obligations.KeyStoreEvents : Prop :=
  (∀ (s : State) (b : Fin 196608) (o : Obj), kfind s.kst.objs b.val = some o → o.st = .draining → o.waiting = 0 →
    answers (.objectDrained b) s (fun t => kfind t.kst.objs b.val = none
      ∧ (∀ u, u ≠ b.val → kfind t.kst.objs u = kfind s.kst.objs u)
      ∧ kget (fun _ => 1) t.kst.gens b.val = nextGen o.gen
      ∧ (∀ u, u ≠ b.val → kget (fun _ => 1) t.kst.gens u = kget (fun _ => 1) s.kst.gens u)
      ∧ t.kst.deleted = satInc 32 s.kst.deleted))
  ∧ (∀ (s : State), s.kst.scrubEn = true → s.kst.ready = true → scrubDue s = true → scrubDefers s = false →
    let u := s.kst.scrubPos
    let moved := fun (k : Kst) => k.scrubPos = (if u = 196607 then 0 else u + 1) ∧ k.scrubDone = s.kst.scrubDone + 1
      ∧ k.scrubPass = (if u = 196607 then satInc 32 s.kst.scrubPass else s.kst.scrubPass)
    answers (.scrubUnit .clean) s (fun t => moved t.kst ∧ t.kst.objs = s.kst.objs ∧ Quiet { s with kst := t.kst } t)
    ∧ answers (.scrubUnit .innerCorrected) s (fun t => moved t.kst ∧ t.kst.innerCorr = satInc 32 s.kst.innerCorr
        ∧ t.kst.objs = s.kst.objs ∧ Quiet { s with kst := t.kst } t)
    ∧ answers (.scrubUnit .outerCorrected) s (fun t => moved t.kst ∧ t.kst.outerCorr = satInc 32 s.kst.outerCorr
        ∧ t.kst.intStatus = s.kst.intStatus ||| 1 ∧ recorded 0x0402 t ∧ t.kst.objs = s.kst.objs ∧ Quiet { s with kst := t.kst } t)
    ∧ (∀ b o, 256 ≤ u → 256 ≤ b → coverOf s u = some b → kfind s.kst.objs b = some o → o.st = .active →
      answers (.scrubUnit .uncorrectable) s (fun t => moved t.kst ∧ kfind t.kst.objs b = some { o with st := .damaged }
        ∧ t.kst.uncorr = satInc 32 s.kst.uncorr ∧ recorded 0x0401 t ∧ Quiet { s with kst := t.kst } t)
      ∧ answers (.scrubUnit .tagMismatch) s (fun t => moved t.kst ∧ kfind t.kst.objs b = some { o with st := .damaged }
        ∧ t.kst.tagFail = satInc 32 s.kst.tagFail ∧ recorded 0x0401 t ∧ Quiet { s with kst := t.kst } t))
    ∧ (u < 256 → s.boot.request = none → s.boot.start = none →
      answers (.scrubUnit .tagMismatch) s (fun t => moved t.kst ∧ t.kst.systemFault = true ∧ recorded 0x0404 t
        ∧ t.boot.request = some { cause := 8, due := s.tick, time := false, cold := false })))

/-! Tamper, the quench and the peat domain (15_tamper_peat.md; 01 R28, R29) -/

/-- R28, R29, R399 to R413, R421: the sliding window of a source, the responses, the quench and its end, the cell, the
meters of hours and of power. R482: the setpoint of VDD_CORE moves by 5 mV. -/
def Obligations.TamperAndPeat : Prop :=
  (∀ (s : State) (x : Fin 16) (value : Int),
    let c := getSrcCfg s x.val
    let sampled := fun (t : State) =>
      { s with tmp := t.tmp, peat := { s.peat with vbat := t.peat.vbat, cellLow := t.peat.cellLow } }
    let near := (getCnt s x.val).recent.filter (fun t => decide (s.tick < t + c.w)) ++ [s.tick]
    s.peat.main = true → s.boot.pwrGood = true → s.tmp.halted = false → srcWatched s x.val = true →
    (detects s x.val value = false → becomes (.detectorEvent x value) s (sampleValue s x.val value))
    ∧ (detects s x.val value = true → near.length < c.n → answers (.detectorEvent x value) s (fun t =>
      (getCnt t x.val).recent = near ∧ (getCnt t x.val).events = satInc 16 (getCnt s x.val).events
      ∧ (getCnt t x.val).last = some s.tick ∧ t.tmp.level = s.tmp.level ∧ Quiet (sampled t) t))
    ∧ (detects s x.val value = true → c.n ≤ near.length → s.tmp.quench = none →
      let fires := fun (t : State) => (getCnt t x.val).fired = true ∧ (getCnt t x.val).recent = []
        ∧ t.tmp.lastSource = x.val ∧ t.tmp.lastResp = c.resp ∧ t.tmp.intStatus.testBit 0 = true ∧ recorded 0x0B01 t
      (c.resp = 1 → answers (.detectorEvent x value) s (fun t => fires t ∧ t.tmp.level = s.tmp.level
        ∧ Quiet (sampled t) t))
      ∧ (c.resp = 2 → s.tmp.level < 3 → answers (.detectorEvent x value) s (fun t => fires t ∧ t.tmp.level = 2
        ∧ x.val ∈ t.tmp.throttling ∧ Quiet (sampled t) t))
      ∧ (c.resp = 3 → s.tmp.level < 3 → s.gth.jobs = [] → answers (.detectorEvent x value) s (fun t => fires t
        ∧ t.tmp.level = 3 ∧ t.tmp.intStatus.testBit 1 = true ∧ Quiet (sampled t) t))
      ∧ (4 ≤ c.resp → answers (.detectorEvent x value) s (fun t => fires t ∧ t.tmp.level = c.resp
        ∧ t.tmp.quench = some { since := s.tick, halt := c.resp == 5 }
        ∧ t.peat.latch = some { cause := 1, source := x.val, response := c.resp, onCell := false, hours := s.peat.hours,
                                cycles := s.peat.cycles }
        ∧ t.peat.roots = [] ∧ t.peat.ember = [] ∧ t.peat.chan = [] ∧ t.peat.meters = [] ∧ t.peat.quenchOutLow = true
        ∧ t.gth.jobs = [] ∧ t.gth.held = []
        ∧ Quiet { s with gth := t.gth, tmp := t.tmp, peat := t.peat } t))))
  ∧ (∀ (s : State) (x : Fin 16), x.val ∈ s.tmp.throttling →
    (∀ t, (getCnt s x.val).last = some t → t + (getSrcCfg s x.val).w ≤ s.tick) →
    let l := s.tmp.throttling.filter (fun y => y != x.val)
    (l = [] → s.tmp.level = 2 → becomes (.throttleEnd x) s
      { s with tmp := { s.tmp with throttling := [], level := 0, source := 0 } })
    ∧ (l ≠ [] → becomes (.throttleEnd x) s { s with tmp := { s.tmp with throttling := l } }))
  ∧ (∀ (s : State) (clearNs scrubUs : Fin 65536) (since : Nat),
    let clean := fun (t : State) => t.kst.objs = [] ∧ t.eng = [] ∧ t.bne = bneReset ∧ t.aut.custodians = []
      ∧ t.ten.tenants = [] ∧ t.rng.inst = [] ∧ t.evt.ring = [] ∧ t.evt.history = s.evt.history ∧ t.sdl.sched = []
      ∧ t.tmp.quench = none ∧ t.tmp.defaults = true ∧ t.tmp.clearNs = clearNs.val ∧ t.tmp.scrubUs = scrubUs.val
      ∧ t.peat = s.peat
    (s.tmp.quench = some { since := since, halt := true } →
      answers (.quenchScrubDone clearNs scrubUs) s (fun t => clean t ∧ t.tmp.halted = true ∧ t.tmp.level = 5
        ∧ t.gth.linkUp = false))
    ∧ (s.tmp.quench = some { since := since, halt := false } → s.boot.request = none → s.boot.start = none →
      answers (.quenchScrubDone clearNs scrubUs) s (fun t => clean t ∧ t.tmp.halted = false ∧ t.tmp.level = 0
        ∧ t.boot.request = some { cause := 4, due := s.tick, time := false, cold := false })))
  ∧ (∀ (s : State) (x : Fin 16) (fresh : Bool) (value : Int),
    let c := getSrcCfg s x.val
    let run := if fresh then 1 else (getCnt s x.val).cellRun + 1
    s.peat.main = false → s.peat.latch = none → cellWatched s x.val = true →
    (cellFails s x.val value = false → becomes (.cellDetectorEvent x fresh value) s
      (setCnt s x.val { getCnt s x.val with cellRun := 0 }))
    ∧ (cellFails s x.val value = true → run < c.n → becomes (.cellDetectorEvent x fresh value) s (setCnt s x.val { getCnt s x.val with cellRun := run }))
    ∧ (cellFails s x.val value = true → c.n ≤ run → (10 ≤ x.val ∨ c.cellQuench = true) → answers (.cellDetectorEvent x fresh value) s (fun t =>
      t.peat.latch = some { cause := 1, source := x.val, response := 4, onCell := true, hours := s.peat.hours,
                            cycles := s.peat.cycles }
      ∧ t.peat.roots = [] ∧ t.peat.ember = [] ∧ t.peat.chan = [] ∧ t.peat.meters = [] ∧ t.peat.quenchOutLow = true))
    ∧ (cellFails s x.val value = true → c.n ≤ run → x.val < 10 → c.cellQuench = false → s.peat.cellLog.length < 16 →
      answers (.cellDetectorEvent x fresh value) s (fun t => t.peat.latch = none ∧ t.peat.cellLog = s.peat.cellLog
        ++ [{ source := x.val, hours := s.peat.hours % 2 ^ 28 }])))
  ∧ (∀ (s : State) (mv : Nat), mv < 2200 →
    (s.peat.main = false → serving s = true → s.peat.latch = none → answers (.cellFail mv) s (fun t =>
      t.peat.latch = some { cause := 2, source := 0, response := 0, onCell := true, hours := s.peat.hours,
                            cycles := s.peat.cycles }
      ∧ t.peat.roots = [] ∧ t.peat.ember = [] ∧ t.peat.chan = [] ∧ t.peat.meters = [] ∧ t.peat.vbat = mv))
    ∧ (s.peat.main = true → answers (.cellLow mv) s (fun t => t.tmp.intStatus = s.tmp.intStatus ||| 2 ^ 4
        ∧ t.peat = { s.peat with vbat := mv, cellLow := true } ∧ Quiet { s with tmp := t.tmp, peat := t.peat } t)))
  ∧ (∀ (s : State), s.peat.main = false → s.peat.quenchOutLow = true → s.peat.quenchOutTick + 1048 ≤ s.tick →
    becomes .quenchOutRelease s { s with peat := { s.peat with quenchOutLow := false } })
  ∧ (∀ (s : State), s.peat.main = true → s.peat.hoursAt + 3686400 ≤ s.tick → becomes .hoursTick s
    { s with peat := { s.peat with hours := (s.peat.hours + 1) % 2 ^ 32, hoursAt := s.peat.hoursAt + 3686400 } })
  ∧ (∀ (s : State) (setpoint : Option (Fin 21)), s.pwr.windowTick + 64 ≤ s.tick →
    let mw := powerEstimate s
    answers (.powerWindow setpoint) s (fun t =>
      t.pwr.duty = (if 1000 * s.pwr.capW < mw then s.pwr.duty - 1
        else if mw + 2000 < 1000 * s.pwr.capW ∧ s.pwr.duty < 64 then s.pwr.duty + 1 else s.pwr.duty)
      ∧ t.pwr.estW = mw / 1000 % 128 ∧ t.pwr.capW = s.pwr.capNext ∧ t.pwr.windowTick = s.pwr.windowTick + 64
      ∧ t.pwr.vcoreWant = (match setpoint with
          | some n => if s.boot.phase = .service then 700 + 5 * n.val else s.pwr.vcoreWant
          | none => s.pwr.vcoreWant)
      ∧ (s.tick = s.pwr.windowTick + 64 → t.pwr.activity = 0) ∧ Quiet { s with pwr := t.pwr } t))
  ∧ (∀ (s : State), s.gth.jobs = [] → s.bne.eng = [] → demandNow s = 28500 * 256)
  ∧ (∀ (s : State),
    (s.boot.phase ≠ .service → avsTick s = s)
    ∧ (s.pwr.vcore = s.pwr.vcoreWant → avsTick s = s)
    ∧ (s.boot.phase = .service → s.pwr.vcoreTick + 6 ≤ s.tick → s.pwr.vcore < s.pwr.vcoreWant →
        avsTick s = { s with pwr := { s.pwr with vcore := s.pwr.vcore + 5, vcoreTick := s.tick },
                             out := s.out ++ [.coreSetpoint (s.pwr.vcore + 5)] })
    ∧ (s.boot.phase = .service → s.pwr.vcoreTick + 6 ≤ s.tick → s.pwr.vcoreWant < s.pwr.vcore →
        avsTick s = { s with pwr := { s.pwr with vcore := s.pwr.vcore - 5, vcoreTick := s.tick },
                             out := s.out ++ [.coreSetpoint (s.pwr.vcore - 5)] }))

/-! Starts, resets and shutdown (17_start_up_reset.md) -/

/-- R444 to R452, R466, R485, R486, R508: the three events of a start, the causes of a full reset, shutdown and the fall of
power. -/
def Obligations.StartAndReset : Prop :=
  (∀ (s : State) (head : Bool), s.boot.pwrGood = false → lcsMarks s.lcs = 0 → s.lcs.step = none →
    s.boot.resetLow = false →
    answers (.pwrGoodRise head .intact) s (fun t =>
      t.boot.pwrGood = true ∧ t.boot.phase = .rom ∧ t.boot.cold = true ∧ t.boot.resetCause = 0 ∧ t.boot.resetCount = 0
      ∧ t.boot.start = some { kind := .power, began := s.tick, step := 4, time := true }
      ∧ t.peat.cycles = satInc 24 s.peat.cycles ∧ t.peat.main = true ∧ t.kst.objs = [] ∧ t.gth.jobs = []
      ∧ t.sdl = sdlReset ∧ t.pwr.vcore = 750 ∧ t.pwr.vcoreWant = 750 ∧ t.prk.headStrap = head ∧ (t.rng.st = .warming ∨ t.rng.st = .failed)))
  ∧ (∀ (s : State) (head : Bool), s.boot.pwrGood = false → s.boot.resetLow = true →
    answers (.pwrGoodRise head .intact) s (fun t => t.boot.pwrGood = true ∧ t.boot.held = true ∧ t.rng.st = .off))
  ∧ (∀ (s : State) (f : FlashRead) (x : Machine.Start), s.boot.start = some x → x.step = 4 → kilnReleasing s = true →
    lcsMarks s.lcs = 0 → s.boot.keeperKey = storageKey s 0x04 0 →
    let okA := f.slotA && s.boot.fwA
    let okB := f.slotB && s.boot.fwB
    (∀ m, f.mib = some m → 64 ≤ m → f.dirOk = true → (okA || okB) = true → (f.keeperOk = true ∨ serving s = false) →
      answers (.bootKilnReady f) s (fun t => t.boot.phase = .firmware ∧ t.boot.flashMib = m
        ∧ t.boot.start = some { x with step := 7 } ∧ t.ldg.keeperUp = true ∧ t.ldg.assignLock = true
        ∧ t.boot.slot = (if (if s.boot.dirSlot = 0 then okA else okB) then s.boot.dirSlot else 1 - s.boot.dirSlot)
        ∧ t.evt.historyCap = (min (min m 512 - 49) 128) * 16384 ∧ t.dgs.ctxKeyValid = true))
    ∧ (∀ fail, ((f.mib = none ∧ fail = 4) ∨ (∃ m, f.mib = some m ∧ m < 64 ∧ fail = 4)
        ∨ (∃ m, f.mib = some m ∧ 64 ≤ m ∧ f.dirOk = false ∧ fail = 2)
        ∨ (∃ m, f.mib = some m ∧ 64 ≤ m ∧ f.dirOk = true ∧ (okA || okB) = false ∧ fail = 1)) →
      answers (.bootKilnReady f) s (fun t => t.boot.phase = .halted ∧ t.boot.fail = fail ∧ t.boot.start = none)))
  ∧ (∀ (s : State) (x : Machine.Start), s.boot.start = some x → x.step = 7 → stopped s = false → s.boot.retest = [] →
    answers (.serviceReady [] []) s (fun t => t.boot.phase = .service ∧ t.boot.start = none ∧ t.kst.ready = true
      ∧ t.boot.coldLoad = (s.boot.cold && s.boot.coldRecs != [])
      ∧ t.pwr.vcoreWant = s.pwr.vcoreWant ∧ t.pwr.vcore = s.pwr.vcore
      ∧ t.boot.serviceMs = min ((s.tick - x.began) * 1000 / 2 ^ 20) 65535))
  ∧ (∀ (i : Instr) (s : State) (r : ResetReq), s.boot.request = some r → r.due ≤ s.tick →
    (i = .fullReset ∨ (i = .resetDelayEnd ∧ 1 ≤ r.cause ∧ r.cause ≤ 3)) → s.boot.pwrGood = true → s.tmp.quench = none →
    s.tmp.halted = false → s.dbg.isOpen = false → lcsMarks s.lcs = 0 → s.lcs.step = none → (r.cause = 11 → s.boot.resetLow = false) →
    answers i s (fun t => t.boot.resetCause = r.cause ∧ t.boot.resetCount = satInc 32 s.boot.resetCount
      ∧ t.boot.phase = .rom ∧ t.boot.request = none ∧ t.boot.cold = r.cold ∧ t.gth.jobs = [] ∧ t.gth.held = []
      ∧ t.gth.qp = [] ∧ t.aut.mailbox = []
      ∧ (∃ x, t.boot.start = some x ∧ x.began = s.tick ∧ x.step = 4)))
  ∧ (∀ (s : State), s.boot.request = none → s.boot.start = none → s.boot.pwrGood = true → stopped s = false →
    becomes .watchdog s { s with boot := { s.boot with
      request := some { cause := 6, due := s.tick, time := false, cold := false } } })
  ∧ (∀ (s : State), becomes (.resetBall false) s s
    ∧ (s.boot.pwrGood = false → becomes (.resetBall true) s { s with boot := { s.boot with resetLow := true } })
    ∧ (s.boot.pwrGood = true → stopped s = false → s.boot.request = none → s.boot.start = none →
      s.dbg.isOpen = false →
      answers (.resetBall true) s (fun t => t.boot.resetCause = 11 ∧ t.boot.held = true ∧ t.boot.phase = .rom
        ∧ t.boot.resetCount = satInc 32 s.boot.resetCount ∧ t.gth.jobs = []))
    ∧ (s.boot.held = false → becomes .resetNRise s { s with boot := { s.boot with resetLow := false } }))
  ∧ (∀ (s : State), s.boot.coldLoad = true →
    (s.boot.coldRecs.length ≤ s.boot.coldNext →
      becomes .coldRecordReload s { s with boot := { s.boot with coldLoad := false } })
    ∧ (∀ r rest, s.boot.coldRecs.drop s.boot.coldNext = r :: rest →
      answers .coldRecordReload s (fun t => t.boot.coldNext = s.boot.coldNext + 1
        ∧ ((t.boot.coldLoaded = min (s.boot.coldLoaded + 1) 262143 ∧ t.boot.coldFailed = s.boot.coldFailed)
          ∨ (t.boot.coldLoaded = s.boot.coldLoaded ∧ t.boot.coldFailed = satInc 16 s.boot.coldFailed ∧ recorded 0x0E04 t)))))
  ∧ (∀ (s : State) (fn q tag : Nat), s.boot.shutdown = [(fn, q, tag)] → allDrained s = true →
    (∀ n, 1 ≤ n → n < 1024 → (getVf s n).st ≠ .draining) → hasQueue fn = true → q < 256 →
    (s.gth.ideRequired && !s.gth.ideSecure) = false →
    answers .shutdownDrained s (fun t => t.boot.phase = .shut ∧ t.boot.shutdown = []
      ∧ ∃ l dt, t.out = s.out ++ l ∧ .completion fn q
          { tag := tag, status := 0, detail := dt, written := 0, time := now s, pair := 0, unit := unitByte s } ∈ l))
  ∧ (∀ (s : State) (vbat : Nat), s.boot.pwrGood = true →
    answers (.pwrGoodFall true vbat) s (fun t => t.boot.pwrGood = false ∧ t.peat.main = false ∧ t.gth = gthReset
      ∧ t.kst.objs = [] ∧ t.evt.ring = [] ∧ t.boot.phase = .rom ∧ t.peat.vbat = vbat)
    ∧ becomes (.pwrGoodFall false vbat) s s)
  ∧ (∀ (s : State), live s = true → s.lcs.step = some 6 → s.lcs.doneTick + 1048 ≤ s.tick → s.boot.request = none →
    s.boot.start = none →
    becomes .transitionReset s { s with boot := { s.boot with
      request := some { cause := 5, due := s.tick, time := false, cold := false } } })

/-! The operator port and the cards (04_command_authority.md) -/

/-- R101, R102, R108 to R114, R489: frames of the console, cards and their steps, the wait and its end, the commands a console
starts, the ceremony from its start to the keys it leaves. -/
def Obligations.ConsoleAndCards : Prop :=
  let idle := fun (s : State) => s.aut.mailbox = [] ∧ s.aut.starts = [] ∧ s.aut.startReady = none
  (∀ (i : Instr) (ty : Nat) (s : State) (f : Bytes),
    ((i = .pin f ∧ ty = 0x81) ∨ (i = .confirm f ∧ ty = 0x82) ∨ (i = .component f ∧ ty = 0x83) ∨ (i = .cancel f ∧ ty = 0x84)
      ∨ (i = .start f ∧ ty = 0x85) ∨ (i = .consoleAck f ∧ ty = 0x87)) → keeperRests s = true →
    (live s = true → (conParse f).all (fun x => x.1 != ty) = true →
      becomes i s { s with aut := { s.aut with conDiscard := satInc 32 s.aut.conDiscard } })
    ∧ (live s = false → becomes i s s))
  ∧ (∀ (s : State) (b : Bytes) (gap : Bool), live s = true →
    becomes (.consoleDiscard b gap) s (if gap || (conParse b).isNone then
      { s with aut := { s.aut with conDiscard := satInc 32 s.aut.conDiscard } } else s))
  ∧ (∀ (s : State) (f p : Bytes) (seq : Nat), live s = true → conParse f = some (0x81, seq, p) → slotOf p < 2 →
    (getCard s (slotOf p)).step = .pin → 5 ≤ p.length → p.length ≤ 13 →
    ((p.drop 1).all isDigit = true → answers (.pin f) s (fun t =>
      getCard t (slotOf p) = { getCard s (slotOf p) with step := .verify } ∧ t.aut.consoleUp = true
      ∧ t.out = s.out ++ [conAck s seq, .port (cardPort (slotOf p)) ([0x00, 0x20] ++ p.drop 1)] ∧ consoleOnly s t))
    ∧ ((p.drop 1).all isDigit = false → answers (.pin f) s (fun t =>
      getCard t (slotOf p) = getCard s (slotOf p) ∧ t.out = s.out ++ [conAck s seq] ∧ consoleOnly s t)))
  ∧ (∀ (s : State) (f p : Bytes) (seq : Nat) (w : Wait), live s = true → s.aut.ceremony = none →
    conParse f = some (0x82, seq, p) → slotOf p < 2 → s.aut.wait = some w → (getCard s (slotOf p)).step = .confirm →
    (leAt p 1 1 = 1 → ∀ ix pk, (getCard s (slotOf p)).ident = some (ix, pk) → answers (.confirm f) s (fun t =>
      getCard t (slotOf p) = { getCard s (slotOf p) with step := .approve }
      ∧ t.out = s.out ++ [conAck s seq, .port (cardPort (slotOf p)) ([0x80, 0xA2] ++ statement w ix)]
      ∧ t.aut.wait = some { w with conSeen := true } ∧ consoleOnly s t))
    ∧ (leAt p 1 1 ≠ 1 → (getCard s (1 - slotOf p)).present = false → answers (.confirm f) s (fun t =>
      getCard t (slotOf p) = { getCard s (slotOf p) with step := .done, comp := [] } ∧ t.out = s.out ++ [conAck s seq]
      ∧ t.aut.wait = some { w with conSeen := true } ∧ consoleOnly s t)))
  ∧ (∀ (s : State) (f p : Bytes) (seq : Nat) (w : Wait), live s = true → s.aut.ceremony = none → s.aut.startReady = none →
    conParse f = some (0x83, seq, p) → slotOf p < 2 → s.aut.wait = some w → (getCard s (slotOf p)).step = .component →
    let alg := leAt w.cmd.input 2 2
    let typed := (hexBytes (p.drop 1)).getD []
    let good := typed.length = componentLen alg ∧ ∃ b, b ∈ typed ∧ b ≠ 0
    (good → answers (.component f) s (fun t =>
      getCard t (slotOf p) = { getCard s (slotOf p) with step := .confirm, comp := typed }
      ∧ t.out = s.out ++ [conAck s seq, conNext s 1 0x05 (leBytes 1 (w.comps.length + 1) ++ leBytes 3 (kcvOf alg typed)),
                          conNext s 2 0x03 (leBytes 1 (slotOf p) ++ w.digest.take 3)]
      ∧ t.aut.wait = some { w with conSeen := true } ∧ consoleOnly s t))
    ∧ (¬ good → w.refusals < 2 → answers (.component f) s (fun t =>
      t.out = s.out ++ [conAck s seq, conNext s 1 0x04 (leBytes 1 (slotOf p) ++ leBytes 1 (w.comps.length + 1)
        ++ leBytes 1 (2 * componentLen alg))]
      ∧ t.aut.wait = some { w with conSeen := true, refusals := w.refusals + 1 } ∧ consoleOnly s t))
    ∧ (¬ good → 2 ≤ w.refusals → idle s → toHost s w.cmd = true → answers (.component f) s (waitFails w s)))
  ∧ (∀ (s : State) (f p : Bytes) (seq : Nat), live s = true → conParse f = some (0x84, seq, p) →
    (s.aut.ceremony = none → s.aut.wait = none → answers (.cancel f) s (fun t => t.out = s.out ++ [conAck s seq]
      ∧ t.aut.wait = none ∧ consoleOnly s t))
    ∧ (∀ w, s.aut.ceremony = none → s.aut.wait = some w → idle s → toHost s w.cmd = true →
        answers (.cancel f) s (waitFails w s))
    ∧ (∀ c, s.aut.ceremony = some c → idle s → answers (.cancel f) s (fun t => t.aut.ceremony = none
        ∧ t.aut.custodians = s.aut.custodians ∧ t.aut.chanKey = s.aut.chanKey ∧ t.aut.card0.step = .none
        ∧ t.aut.card1.step = .none ∧ consoleOnly s t)))
  ∧ (∀ (s : State) (f p : Bytes) (seq : Nat), live s = true → conParse f = some (0x85, seq, p) → keeperRests s = true →
    let buf := s.aut.startBuf ++ p
    let c := startCommand buf
    let refusedWith := fun (st dt : Nat) (t : State) => t.aut.startBuf = [] ∧ t.aut.starts = s.aut.starts ∧ ∃ l, t.out = s.out ++ l
        ∧ .completion c.fn 0 { tag := c.desc.tag, status := st, detail := dt, written := 0, time := now s, pair := 0,
                               unit := unitByte s } ∈ l
    ((buf.length < 128 ∨ (128 + c.desc.inLen ≤ 65536 ∧ buf.length < 128 + c.desc.inLen)) → answers (.start f) s (fun t =>
      t.aut.startBuf = buf ∧ t.out = s.out ++ [conAck s seq] ∧ consoleOnly s t))
    ∧ (128 ≤ buf.length → (65536 < 128 + c.desc.inLen ∨ 65536 < buf.length) → answers (.start f) s (refusedWith 0x0102 0))
    ∧ (128 + c.desc.inLen ≤ buf.length → buf.length ≤ 65536 →
      let whole := (c.desc.inAddr = 0 ∧ c.desc.outAddr = 0 ∧ c.desc.auxAddr = 0 ∧ c.desc.authAddr = 0)
      let u := conSeen s 0x85 seq
      let verdict := startAdmit c { u with aut := { u.aut with startBuf := [] } }
      (¬ whole → answers (.start f) s (refusedWith 0x0101 0x0028))
      ∧ (whole → ∀ e, verdict = some e → answers (.start f) s (refusedWith e.1 e.2))
      ∧ (whole → verdict = none → keeperHeld s = true → answers (.start f) s (fun t => t.aut.startBuf = []
          ∧ t.aut.starts = s.aut.starts ++ [c] ∧ t.out = s.out ++ [conAck s seq] ∧ consoleOnly s t))
      ∧ (whole → verdict = none → keeperHeld s = false → c.fn ≠ 1088 → cardReady s.aut.card0 = true →
          answers (.start f) s (fun t => t.aut.startBuf = [] ∧ t.aut.starts = [] ∧ t.aut.startCmd = some (c, 0)
            ∧ t.aut.card0 = { s.aut.card0 with step := .startIdent }
            ∧ t.out = s.out ++ [conAck s seq, .port .card0 [0x80, 0xA0]] ∧ consoleOnly s t))))
  ∧ (∀ (s : State) (f p : Bytes) (seq : Nat), live s = true → conParse f = some (0x87, seq, p) →
    becomes (.consoleAck f) s { s with aut := { s.aut with
      consoleUp := true, wait := s.aut.wait.map (fun w => { w with conSeen := true }),
      conOut := s.aut.conOut.filter (fun x => x.seq != leAt p 0 2) } })
  ∧ (∀ (s : State),
    let due := s.aut.conOut.filter (fun x => decide (x.due ≤ s.tick))
    (due = [] → becomes .consoleResendTimeout s s)
    ∧ (due ≠ [] → (∀ x ∈ due, x.resent < 3) → becomes .consoleResendTimeout s { s with
      aut := { s.aut with conOut := s.aut.conOut.map (fun x =>
        if x.due ≤ s.tick then { x with resent := x.resent + 1, due := s.tick + 104858 } else x) },
      out := s.out ++ due.map (fun x => .port .console x.bytes) })
    ∧ ((∃ x ∈ due, 3 ≤ x.resent) →
      (s.aut.wait = none → answers .consoleResendTimeout s (fun t => t.aut.consoleUp = false ∧ t.aut.ceremony = none
        ∧ t.out = s.out ∧ consoleOnly s t))
      ∧ (∀ w, s.aut.ceremony = none → s.aut.wait = some w → w.conSeen = true → idle s → toHost s w.cmd = true →
        answers .consoleResendTimeout s (fun t => t.aut.consoleUp = false ∧ waitFails w s t))))
  ∧ (∀ (s : State) (w : Wait), s.aut.wait = some w →
    (now s < w.finish → becomes .approvalWindowEnd s s)
    ∧ (w.finish ≤ now s → idle s → toHost s w.cmd = true → answers .approvalWindowEnd s (waitFails w s)))
  ∧ (∀ (s : State) (slot : Fin 2) (cls : CardClass), live s = true →
    let pins := if cls = .c then [Output.cardPins slot.val true false]
      else [Output.cardPins slot.val true false, .cardPins slot.val false false, .cardPins slot.val true true]
    let k := { cardReset with present := true, vccEn := true, cls := if cls = .c then .c else .b, order := s.aut.cardOrder }
    (cls ≠ .neither → s.aut.wait = none → answers (.cardInsert slot ⟨cls, true⟩) s (fun t =>
      getCard t slot.val = k ∧ t.aut.cardOrder = s.aut.cardOrder + 1
      ∧ getCard t (1 - slot.val) = getCard s (1 - slot.val) ∧ t.out = s.out ++ pins ∧ consoleOnly s t))
    ∧ (∀ w, cls ≠ .neither → s.aut.wait = some w → (getCard s (1 - slot.val)).present = false →
      answers (.cardInsert slot ⟨cls, true⟩) s (fun t => getCard t slot.val = { k with step := .identify }
        ∧ t.out = s.out ++ pins ++ [.port (cardPort slot.val) [0x80, 0xA0]] ∧ consoleOnly s t))
    ∧ (∀ t1, (t1 = false ∨ cls = .neither) → answers (.cardInsert slot ⟨cls, t1⟩) s (fun t =>
        (getCard t slot.val).step = .ignored ∧ (getCard t slot.val).vccEn = false ∧ recorded 0x0305 t
        ∧ (∃ l, t.out = s.out ++ pins ++ [.cardPins slot.val false false] ++ l) ∧ Quiet { s with aut := t.aut } t)))
  ∧ (∀ (s : State) (slot : Fin 2), let st := (getCard s slot.val).step
    (st ≠ .tag → st ≠ .startIdent → s.aut.wait = none → idle s → answers (.cardRemove slot) s (fun t =>
      getCard t slot.val = cardReset ∧ t.aut.ceremony = none ∧ t.out = s.out ++ [.cardPins slot.val false false]
      ∧ (s.aut.ceremony = none → getCard t (1 - slot.val) = getCard s (1 - slot.val)) ∧ consoleOnly s t))
    ∧ (∀ c, st = .tag → s.aut.startCmd = some (c, slot.val) → s.aut.wait = none → s.aut.ceremony = none → idle s →
      1024 ≤ c.fn → answers (.cardRemove slot) s (fun t => getCard t slot.val = cardReset ∧ t.aut.startCmd = none
        ∧ completed c 0x0301 0x0101 0 0 [] s t))
    ∧ (∀ w, st ≠ .tag → st ≠ .startIdent → s.aut.wait = some w → s.aut.ceremony = none → s.aut.startReady = none →
      answers (.cardRemove slot) s (fun t => getCard t slot.val = cardReset
        ∧ (∃ w', t.aut.wait = some w' ∧ w'.counted = w.counted ∧ w'.present = w.present ∧ w'.cmd = w.cmd
            ∧ w'.finish = w.finish)
        ∧ consoleOnly s t)))
  ∧ (∀ (s : State) (slot : Fin 2) (data : Bytes) (w : Wait), live s = true → s.aut.startReady = none →
    s.aut.ceremony = none →
    let k := getCard s slot.val
    s.aut.wait = some w → cardReady k = true → w.presence = false → w.cmd.desc.opcode ≠ 0x0016 →
    w.cmd.desc.opcode ≠ 0x1015 →
    (∀ c, k.step = .identify → kfind s.aut.custodians (leAt data 0 1) = some c → c.sigEc = (data.drop 1).take 97 →
      (leAt data 0 1) ∉ w.counted → answers (.cardResponse slot true data) s (fun t =>
        getCard t slot.val = { k with step := .pin, ident := some (leAt data 0 1, (data.drop 1).take 97) }
        ∧ t.out = s.out ++ [conNext s 0 0x02 (leBytes 1 slot.val)] ∧ consoleOnly s t))
    ∧ (k.step = .verify →
      answers (.cardResponse slot true data) s (fun t => getCard t slot.val = { k with step := .confirm, pinOk := true }
        ∧ t.out = s.out ++ [conNext s 0 0x03 (leBytes 1 slot.val ++ w.digest.take 3)] ∧ consoleOnly s t)
      ∧ answers (.cardResponse slot false data) s (fun t => getCard t slot.val = { k with step := .pin }
        ∧ t.out = s.out ++ [conNext s 0 0x02 (leBytes 1 slot.val)] ∧ consoleOnly s t))
    ∧ (∀ ix pk c, k.step = .approve → k.comp = [] → k.ident = some (ix, pk) → kfind s.aut.custodians ix = some c →
      approvalCounts s w.cmd ix = true →
      approvalSigned c (statement w ix) (data.take 96) ((data.drop 96).take 3309) = true →
      (addOnce w.counted ix).length < w.required →
      answers (.cardResponse slot true data) s (fun t => (getCard t slot.val).step = .done
        ∧ t.aut.wait = some { w with counted := addOnce w.counted ix } ∧ consoleOnly s t)))
  ∧ (∀ (s : State) (slot : Fin 2) (data : Bytes) (c : Cmd) (m : Custodian), live s = true → s.aut.startReady = none →
    let k := getCard s slot.val
    cardReady k = true → k.step = .startIdent → s.aut.startCmd = some (c, slot.val) → c.auth.length = 64 → 1024 ≤ c.fn →
    kfind s.aut.custodians (c.fn - 1024) = some m → leAt data 0 1 = c.fn - 1024 → (data.drop 1).take 97 = m.sigEc →
    answers (.cardResponse slot true data) s (fun t => getCard t slot.val = { k with step := .tag } ∧ consoleOnly s t
      ∧ ∃ blk, leAt blk 8 8 = (chanCounter s c.fn + 1) % 2 ^ 64
        ∧ t.out = s.out ++ [.port (cardPort slot.val) ([0x80, 0xA3] ++ authMessage { c with auth := blk } (authParse blk))]))
  ∧ (∀ (s : State) (ixA ixB : Fin 64) (a b : Bytes) (alg : Fin 65536), live s = true →
    let ra := leBytes 1 ixA.val ++ [0xFF, 0, 0, 0, 0, 0, 0] ++ a ++ List.replicate 15 0
    let rb := leBytes 1 ixB.val ++ [0xFF, 0, 0, 0, 0, 0, 0] ++ b ++ List.replicate 15 0
    (s.aut.custodians ≠ [] → becomes (.commissioningCeremony ixA a ixB b alg) s s)
    ∧ (s.aut.custodians = [] → s.ldg.keeperUp = true → cardReady s.aut.card0 = true → cardReady s.aut.card1 = true →
      keeperHeld s = false → feedHeld s 1 = false → a.length = 3273 → b.length = 3273 → ixA ≠ ixB →
      componentLen alg.val ≠ 0 → answers (.commissioningCeremony ixA a ixB b alg) s (fun t =>
        t.aut.ceremony = some { recs := [ra, rb], alg := alg.val, stage := 1, slot := 0, keys := [], comps := [], refusals := 0 }
        ∧ t.aut.card0 = { s.aut.card0 with step := .pin } ∧ t.out = s.out ++ [conNext s 0 0x02 [0]] ∧ consoleOnly s t)))
  ∧ (∀ (s : State) (f p : Bytes) (seq : Nat) (c : Ceremony) (ra rb ka kb a : Bytes), live s = true →
    conParse f = some (0x82, seq, p) → slotOf p = 1 → leAt p 1 1 = 1 → s.aut.ceremony = some c → c.stage = 3 → c.slot = 1 →
    s.aut.card1.step = .confirm → c.recs = [ra, rb] → c.keys = [ka, kb] → c.comps = [a] → s.aut.custodians = [] →
    leAt ra 0 1 ≠ leAt rb 0 1 →
    (∀ key, combine c.alg [a, s.aut.card1.comp] = some key → answers (.confirm f) s (fun t =>
      kfind t.aut.custodians (leAt ra 0 1) = some (custodianParse ra)
      ∧ kfind t.aut.custodians (leAt rb 0 1) = some (custodianParse rb)
      ∧ t.aut.custodians.length = 2 ∧ kfind t.aut.chanKey 0 = some key ∧ chanCounter t 0 = 0
      ∧ kfind t.aut.chanKey (1024 + leAt ra 0 1) = some ka ∧ kfind t.aut.chanKey (1024 + leAt rb 0 1) = some kb
      ∧ chanCounter t (1024 + leAt ra 0 1) = 0 ∧ chanCounter t (1024 + leAt rb 0 1) = 0
      ∧ t.aut.ceremony = none ∧ t.aut.card0.comp = [] ∧ t.aut.card1.comp = [] ∧ recorded 0x0306 t))
    ∧ (combine c.alg [a, s.aut.card1.comp] = none → answers (.confirm f) s (fun t => t.aut.ceremony = none
      ∧ t.aut.custodians = [] ∧ t.aut.chanKey = s.aut.chanKey ∧ t.aut.card1.comp = [])))

/-! The park (12_park.md) -/

/-- R324 to R335, R340: frames refused, passed on and answered; links, HELLO, the walk, the park key and its switch, leases
and heartbeats, losses. -/
def Obligations.ParkLink : Prop :=
  (∀ (i : Instr) (f : FrameIn) (ty : Nat) (s : State), frameOf i = some (f, ty) →
    let formed := live s = true ∧ frameForm f.bytes = true ∧ frType f.bytes = ty
    (live s = false → becomes i s s)
    ∧ (live s = true → (frameForm f.bytes = false ∨ frType f.bytes ≠ ty) → answers i s (fun t =>
      t.prk = { s.prk with discard := satInc 32 s.prk.discard } ∧ parkOnly s t))
    ∧ (formed → openType ty = false → currentAssoc s f = false → answers i s (fun t =>
      t.prk = { s.prk with macsecDrop := satInc 32 s.prk.macsecDrop } ∧ parkOnly s t))
    ∧ (formed → (openType ty = true ∨ currentAssoc s f = true) → ((signedType ty = true ∧ f.signed = false)
        ∨ (frUnaddressed f.bytes = false ∧ frSrc f.bytes = s.prk.address ∧ s.prk.addressed = true)) →
      answers i s (fun t => t.prk = s.prk ∧ parkOnly s t))
    ∧ (formed → openType ty = true → s.prk.st = .alone → ty ≠ 0x02 → answers i s (fun t => t.prk.st = .alone
      ∧ t.prk.peers = s.prk.peers ∧ parkOnly s t))
    ∧ (taken f ty s = true → forUs f ty s = false →
      (2 ≤ frTtl f.bytes → (port s (!f.portB)).linkUp = true → answers i s (fun t =>
        .port (if f.portB then .peerA else .peerB)
          (onWire s (!f.portB) 0 (sealFrame (f.bytes.take 5 ++ leBytes 1 (frTtl f.bytes - 1) ++ f.bytes.drop 6))) ∈ t.out
        ∧ t.prk.peers = s.prk.peers ∧ t.prk.st = s.prk.st ∧ parkOnly s t))
      ∧ (frTtl f.bytes ≤ 1 → answers i s (fun t => t.prk.discard = satInc 32 s.prk.discard ∧ parkOnly s t)))
    ∧ (taken f ty s = true → forUs f ty s = true → frBcast f.bytes = false → outsider f ty s = true →
      answers i s (fun t => sentOver s f.portB (frSrc f.bytes) 0x13 [] t ∧ t.prk.peers = s.prk.peers ∧ parkOnly s t))
    ∧ (taken f ty s = true → forUs f ty s = true → outsider f ty s = false → sequenced f ty = true →
      let p := getPeer s (frSrc f.bytes)
      let behind := (List.range (frFrag f.bytes)).all (fun k => seqSeen p (frSeq f.bytes - 1 - k))
      (seqSeen p (frSeq f.bytes) = true → answers i s (fun t =>
        t.prk.ackOwed = s.prk.ackOwed ||| 2 ^ frSrc f.bytes ∧ t.prk.peers = s.prk.peers ∧ parkOnly s t))
      ∧ (seqSeen p (frSeq f.bytes) = false → frLast f.bytes = false → answers i s (fun t =>
        t.prk.ackOwed = s.prk.ackOwed ||| 2 ^ frSrc f.bytes
        ∧ getPeer t (frSrc f.bytes) = acceptSeq p (frSeq f.bytes) ∧ t.prk.st = s.prk.st ∧ parkOnly s t))
      ∧ (seqSeen p (frSeq f.bytes) = false → frLast f.bytes = true → behind = false → answers i s (fun t =>
        t.prk.ackOwed = s.prk.ackOwed ∧ t.prk.peers = s.prk.peers ∧ parkOnly s t))))
  ∧ (∀ (s : State) (b : Bool) (bytes : Bytes),
    (live s = true → answers (.foreignFrame b bytes) s (fun t =>
      t.prk = { s.prk with discard := satInc 32 s.prk.discard } ∧ parkOnly s t))
    ∧ (live s = false → becomes (.foreignFrame b bytes) s s))
  ∧ (∀ (s : State) (b : Bool),
    (live s = true → s.rep.peers.contains (b2n b) = false → (s.prk.st ≠ .walking ∨ s.prk.headStrap = false) →
      becomes (.peerLinkUp b) s (setPort s b { port s b with linkUp := true, fecLock := true }))
    ∧ ((live s = false ∨ s.rep.peers.contains (b2n b) = true) → becomes (.peerLinkUp b) s s)
    ∧ becomes (.peerLinkDown b) s (setPort s b { port s b with linkUp := false, fecLock := false, neighbour := none }))
  ∧ (∀ (i : Instr) (s : State), live s = true → s.prk.st = .walking → s.prk.headStrap = true → s.prk.portB.linkUp = true →
    s.prk.walkNext ≤ s.tick → ((i = .walkTimeout ∧ s.prk.portA.linkUp = true)
      ∨ (i = .peerLinkUp false ∧ s.rep.peers.contains 0 = false)) →
    let u := { s with prk := { s.prk with address := 0, addressed := true, portA := { s.prk.portA with linkUp := true } } }
    answers i s (fun t => t.prk.walks = satInc 32 s.prk.walks ∧ t.prk.walkSince = some s.tick
      ∧ t.prk.walkNext = s.tick + 2 ^ 20 ∧ t.prk.address = 0 ∧ t.prk.addressed = true ∧ t.prk.portA.linkUp = true
      ∧ toldOn u false 0x02 0 0x3F (leBytes 1 1 ++ s.prk.parkId ++ s.prk.rosterDigest) t
      ∧ parkDrew 2 s t))
  ∧ (∀ (s : State), s.tick < s.prk.walkNext → becomes .walkTimeout s s)
  ∧ (∀ (s : State), live s = true → s.prk.st ≠ .alone → s.prk.helloTick + 1024 ≤ s.tick →
    answers .helloTimer s (fun t => told s 0x01 (helloPayload s) t ∧ t.prk.helloTick = s.tick
      ∧ t.prk.bcastSeq = s.prk.bcastSeq + (framesOf s 0x01 fcBcast 0x3F s.prk.bcastSeq (helloPayload s)).length
      ∧ t.prk.st = s.prk.st ∧ parkDrew 2 s t))
  ∧ (∀ (s : State), (live s = false ∨ s.prk.st = .alone ∨ s.tick < s.prk.helloTick + 1024) → becomes .helloTimer s s)
  ∧ (∀ (s : State), (live s = false ∨ s.boot.phase = .shut ∨ s.tick < s.prk.beatTick + 64
      ∨ (s.prk.st ≠ .assembled ∧ s.prk.st ≠ .formed)) → becomes .heartbeatTimer s s)
  ∧ (∀ (s : State), live s = true → s.boot.phase ≠ .shut → (s.prk.st = .assembled ∨ s.prk.st = .formed) →
    s.prk.beatTick + 64 ≤ s.tick → answers .heartbeatTimer s (fun t => t.prk.beats = (s.prk.beats + 1) % 2 ^ 32 ∧ t.prk.beatTick = s.tick ∧ t.prk.declare = 0
      ∧ (∃ u : State, u = { s with prk := { s.prk with beats := (s.prk.beats + 1) % 2 ^ 32, beatTick := s.tick, declare := 0 } }
          ∧ told s 0x10 (statusWord u ++ leBytes 8 s.prk.declare) t)
      ∧ parkOnly s t))
  ∧ (∀ (s : State) (f : FrameIn) (key kem x : Bytes) (st u : Nat), heard f 0x01 s = true →
    rosterIx s (sha3_256 key) = some u →
    ((s.prk.st ≠ .walking ∨ st ≠ 3) → answers (.hello f key st kem x) s (fun t =>
      (getPeer t u).kemPk = kem ∧ (getPeer t u).xPk = x ∧ (∀ v, v ≠ u → getPeer t v = getPeer s v) ∧ t.prk.st = s.prk.st
      ∧ (frTtl f.bytes = 63 → (port t f.portB).neighbour = some (sha3_256 key, u)) ∧ parkOnly s t))
    ∧ (s.prk.st = .walking → st = 3 → answers (.hello f key st kem x) s (fun t => t.prk.st = .detached
      ∧ t.prk.addressed = true ∧ t.prk.address = (rosterIx s (ownDigest s)).getD 0x3F ∧ t.prk.intStatus.testBit 0 = true
      ∧ t.prk.intStatus.testBit 4 = true ∧ recorded 0x0801 t ∧ parkOnly s t)))
  ∧ (∀ (s : State) (f : FrameIn) (next : Nat) (parkId digest : Bytes), heard f 0x02 s = true → frBcast f.bytes = false →
    let fails := fun (cause : Nat) (t : State) => toldOn s true 0x03 0 0x3F (leBytes 1 cause) t ∧ t.prk.st = s.prk.st
      ∧ t.prk.address = s.prk.address ∧ parkOnly s t
    let good := f.portB = true ∧ parkId = s.prk.parkId ∧ digest = s.prk.rosterDigest ∧ s.prk.st = .walking
    (f.portB = false → answers (.walk f next parkId digest) s (fails 4))
    ∧ (f.portB = true → (parkId ≠ s.prk.parkId ∨ digest ≠ s.prk.rosterDigest ∨ s.prk.st = .alone) →
      answers (.walk f next parkId digest) s (fails 1))
    ∧ (good → s.prk.headStrap = false → s.prk.roster.getD next [] ≠ ownDigest s →
      answers (.walk f next parkId digest) s (fails 2))
    ∧ (good → s.prk.headStrap = true → (next ≠ parkN s ∨ s.prk.walkSince = none) →
      answers (.walk f next parkId digest) s (fails 3))
    ∧ (good → s.prk.headStrap = false → s.prk.roster.getD next [] = ownDigest s →
      answers (.walk f next parkId digest) s (fun t => t.prk.address = next ∧ t.prk.addressed = true ∧ t.prk.st = .walking
        ∧ toldOn { s with prk := { s.prk with address := next, addressed := true } } false 0x02 0 0x3F
            (leBytes 1 (next + 1) ++ parkId ++ digest) t
        ∧ parkDrew 2 s t))
    ∧ (good → s.prk.headStrap = true → next = parkN s → s.prk.walkSince.isSome = true →
      answers (.walk f next parkId digest) s (fun t => t.prk.st = .assembled ∧ t.prk.walkSince = none ∧ told s 0x04 [] t
        ∧ recorded 0x0801 t ∧ parkOnly s t)))
  ∧ (∀ (s : State) (f : FrameIn) (cause : Nat), heard f 0x03 s = true →
    (s.prk.st = .walking → frBcast f.bytes = false → s.prk.headStrap = true → answers (.walkFail f cause) s (fun t =>
      t.prk.walkSince = none ∧ t.prk.st = .walking ∧ t.prk.walkNext = s.prk.walkNext ∧ parkOnly s t))
    ∧ (s.prk.st = .walking → frBcast f.bytes = false → s.prk.headStrap = false → answers (.walkFail f cause) s (fun t =>
      toldOn s true 0x03 0 0x3F (leBytes 1 cause) t ∧ parkOnly s t))
    ∧ (∀ r, s.prk.st ≠ .walking → cause = 1 → s.prk.resync = some r → noneQueued s = true → toHost s r.cmd = true →
      answers (.walkFail f cause) s (fun t => t.prk.st = .detached ∧ t.prk.resync = none
        ∧ completed r.cmd 0x0606 0x0207 0 0 [] s t)))
  ∧ (∀ (s : State) (f : FrameIn), heard f 0x04 s = true →
    (s.prk.st = .walking → s.prk.addressed = true → answers (.assembled f) s (fun t => t.prk.st = .assembled
      ∧ t.prk.address = s.prk.address ∧ recorded 0x0801 t ∧ parkOnly s t))
    ∧ (s.prk.st ≠ .walking → answers (.assembled f) s (fun t => t.prk.st = s.prk.st ∧ parkOnly s t)))
  ∧ (∀ (s : State) (f : FrameIn) (epoch : Nat) (c xh nonce box tag : Bytes), heard f 0x05 s = true → frBcast f.bytes = false →
    let xu := ecPubOf 0x0332 s.prk.xSk
    let kek := parkKek (mlkemDecaps 0x0203 s.prk.kemSk c) (xFun 0x0332 s.prk.xSk xh) c xh xu
    let key := gcmCtr (aesEnc kek) nonce box
    let ad := s.prk.parkId ++ leBytes 4 epoch ++ leBytes 1 s.prk.address
    let inPark := s.prk.st = .assembled ∨ s.prk.st = .formed ∨ s.prk.st = .resyncing
    let ackOf := leBytes 4 epoch ++ kmac256 key ad (ascii "SX256Q PARKACK") 32
    ((¬ inPark ∨ gcmTag (aesEnc kek) nonce ad box ≠ tag) → answers (.keyDeliver f epoch c xh nonce box tag) s (fun t =>
      t.prk.next = s.prk.next ∧ t.prk.key = s.prk.key ∧ t.prk.epoch = s.prk.epoch ∧ parkOnly s t))
    ∧ (gcmTag (aesEnc kek) nonce ad box = tag → (s.prk.st = .assembled ∨ s.prk.st = .formed) →
      answers (.keyDeliver f epoch c xh nonce box tag) s (fun t =>
        t.prk.next = some { epoch := epoch, key := key, switch := none } ∧ t.prk.key = s.prk.key ∧ t.prk.epoch = s.prk.epoch
        ∧ sentTo (got f 0x05 s) (frSrc f.bytes) 0x06 ackOf t ∧ parkOnly s t))
    ∧ (gcmTag (aesEnc kek) nonce ad box = tag → s.prk.st = .resyncing →
      answers (.keyDeliver f epoch c xh nonce box tag) s (fun t => t.prk.key = key ∧ t.prk.epoch = epoch
        ∧ t.prk.portA.rot = 0 ∧ t.prk.portA.pn = 1 ∧ t.prk.portB.rot = 0 ∧ t.prk.portB.pn = 1 ∧ t.prk.st = .resyncing
        ∧ sentTo { got f 0x05 s with prk := { (got f 0x05 s).prk with epoch := epoch } } (frSrc f.bytes) 0x06 ackOf t
        ∧ parkOnly s t)))
  ∧ (∀ (s : State) (f : FrameIn) (epoch : Nat) (mac : Bytes) (a : KeyAgree), heard f 0x06 s = true → s.prk.agree = some a →
    let u := frSrc f.bytes
    let good := a.epoch = epoch ∧ a.switch = none ∧ a.sent.testBit u = true
      ∧ mac = kmac256 a.key (s.prk.parkId ++ leBytes 4 epoch ++ leBytes 1 u) (ascii "SX256Q PARKACK") 32
    (¬ good → answers (.keyAck f epoch mac) s (fun t => t.prk.agree = some a ∧ parkOnly s t))
    ∧ (good → a.acked ||| 2 ^ u ≠ a.sent → answers (.keyAck f epoch mac) s (fun t =>
      t.prk.agree = some { a with acked := a.acked ||| 2 ^ u } ∧ parkOnly s t))
    ∧ (good → a.acked ||| 2 ^ u = a.sent → answers (.keyAck f epoch mac) s (fun t =>
      t.prk.agree = some { a with acked := a.sent ||| 2 ^ s.prk.address, switch := some (now s + 1024) }
      ∧ t.prk.next = some { epoch := a.epoch, key := a.key, switch := some (now s + 1024) } ∧ parkOnly s t)))
  ∧ (∀ (s : State) (a : KeyAgree), s.prk.agree = some a → a.switch = none →
    (now s < a.first + 65536 → becomes .keyAgreeTimeout s s)
    ∧ (a.first + 65536 ≤ now s → answers .keyAgreeTimeout s (fun t =>
      t.prk.agree = some { a with acked := a.acked ||| 2 ^ s.prk.address, switch := some (now s + 1024) }
      ∧ t.prk.next = some { epoch := a.epoch, key := a.key, switch := some (now s + 1024) }
      ∧ told s 0x07 (leBytes 4 a.epoch ++ leBytes 8 (now s + 1024) ++ leBytes 8 (a.acked ||| 2 ^ s.prk.address)) t
      ∧ parkOnly s t)))
  ∧ (∀ (s : State) (f : FrameIn) (epoch switch names : Nat) (n : NewEpoch), heard f 0x07 s = true → s.prk.next = some n →
    answers (.keyCommit f epoch switch names) s (fun t => t.prk.named = s.prk.named ||| names
      ∧ t.prk.next = some (if n.epoch = epoch ∧ names.testBit s.prk.address = true then { n with switch := some switch } else n)
      ∧ parkOnly s t))
  ∧ (∀ (s : State) (n : NewEpoch) (x : Nat), s.prk.next = some n → n.switch = some x →
    let moved := fun (t : State) => t.prk.epoch = n.epoch ∧ t.prk.key = n.key ∧ t.prk.prevUntil = x + 1024 ∧ t.prk.next = none
      ∧ t.prk.st = .formed ∧ t.prk.portA.rot = 0 ∧ t.prk.portA.pn = 1 ∧ t.prk.portB.rot = 0 ∧ t.prk.portB.pn = 1
    let member := s.prk.st = .assembled ∨ s.prk.st = .formed
    (now s < x → becomes .epochSwitch s s)
    ∧ (x ≤ now s → ¬ member → s.prk.agree = none → becomes .epochSwitch s { s with prk := { s.prk with next := none } })
    ∧ (x ≤ now s → member → s.prk.agree = none → answers .epochSwitch s (fun t => moved t ∧ parkOnly s t))
    ∧ (∀ a, x ≤ now s → member → s.prk.agree = some a → noneQueued s = true → toHost s a.cmd = true → answers .epochSwitch s (fun t =>
      moved t ∧ t.prk.agree = none ∧ t.aut.busy = none
      ∧ completed a.cmd (if coversAll s a.acked then 0 else 1) 0 0 a.acked [] s t)))
  ∧ (∀ (s : State) (b : Bool),
    ((s.prk.epoch = 0 ∨ (port s b).pn < 2 ^ 63) → becomes (.pnExhaust b) s s)
    ∧ (s.prk.epoch ≠ 0 → 2 ^ 63 ≤ (port s b).pn → answers (.pnExhaust b) s (fun t => (port t b).rot = (port s b).rot + 1 ∧ (port t b).pn = 1
      ∧ (port t b).nextInstalled = false ∧ port t (!b) = port s (!b) ∧ recorded 0x0804 t ∧ parkOnly s t)))
  ∧ (∀ (s : State) (u : Fin 64),
    let p := getPeer s u.val
    let arc := arcOf s u.val
    let other := if arc then p.heardA else p.heardB
    let fresh := ∃ x, other = some x ∧ s.tick < x + 256
    let due := u.val < parkN s ∧ isEvicted s u.val = false ∧ isSelf s u.val = false
      ∧ (s.prk.st = .assembled ∨ s.prk.st = .formed) ∧ p.silentSince = none
      ∧ (if p.lease then p.renewed else s.prk.beatsSince) + 256 ≤ s.tick
    (¬ due → becomes (.leaseExpire u) s s)
    ∧ (due → ¬ fresh → becomes (.leaseExpire u) s (setPeer
        { s with prk := { s.prk with leaseExpired := satInc 32 s.prk.leaseExpired } } u.val
        { p with lease := false, silentSince := some s.tick }))
    ∧ (due → fresh → answers (.leaseExpire u) s (fun t =>
      (getPeer t u.val).lease = true ∧ (getPeer t u.val).arcB = (!arc) ∧ (getPeer t u.val).renewed = s.tick
      ∧ t.prk.leaseExpired = satInc 32 s.prk.leaseExpired ∧ t.prk.switchovers = satInc 32 s.prk.switchovers
      ∧ t.prk.intStatus.testBit 2 = true
      ∧ (∃ h ∈ (port t (!arc)).held ++ (port t (!arc)).waiting, h.dst = u.val ∧ h.seq = p.txSeq ∧ frType h.bytes = 0x11)
      ∧ parkOnly s t)))
  ∧ (∀ (s : State) (f : FrameIn), heard f 0x11 s = true →
    answers (.takeover f) s (fun t => (getPeer t (frSrc f.bytes)).lease = true ∧ (getPeer t (frSrc f.bytes)).arcB = f.portB
      ∧ parkOnly s t))
  ∧ (∀ (s : State) (f : FrameIn) (seq : Nat), heard f 0x12 s = true → frBcast f.bytes = false → s.prk.portA.waiting = [] →
    s.prk.portB.waiting = [] →
    answers (.ack f seq) s (fun t => (∀ b, (port t b).held = (port s b).held.filter (fun h =>
        !(h.dst == frSrc f.bytes && decide (h.seq ≤ seq))))
      ∧ t.prk.unanswered = s.prk.unanswered.filter (fun x => !(x.1 == frSrc f.bytes && decide (x.2.1 ≤ seq)))
      ∧ parkOnly s t))
  ∧ (∀ (s : State), ((s.prk.ackOwed = 0 ∨ s.tick < s.prk.ackTick + 16 ∨ live s = false) → becomes .ackTimer s s)
    ∧ (live s = true → s.prk.ackOwed ≠ 0 → s.prk.ackTick + 16 ≤ s.tick → answers .ackTimer s (fun t => t.prk.ackOwed = 0
      ∧ t.prk.ackTick = s.tick ∧ parkOnly s t))
    ∧ (∀ u, live s = true → u < 64 → s.prk.ackOwed = 2 ^ u → 0 < (getPeer s u).rxSeq → s.prk.ackTick + 16 ≤ s.tick → answers .ackTimer s
      (sentTo s u 0x12 (leBytes 8 ((getPeer s u).rxSeq - 1)))))
  ∧ (∀ (s : State) (f : FrameIn) (status : Bytes), heard f 0x10 s = true →
    let u := frSrc f.bytes
    answers (.heartbeat f status 0) s (fun t => (getPeer t u).status = padTo 16 status
      ∧ (if f.portB then (getPeer t u).heardB = some s.tick else (getPeer t u).heardA = some s.tick)
      ∧ t.prk.heardTick = s.tick
      ∧ ((f.portB = arcOf s u ∨ (getPeer s u).silentSince ≠ none) → (getPeer t u).lease = true
          ∧ (getPeer t u).arcB = f.portB ∧ (getPeer t u).renewed = s.tick ∧ (getPeer t u).silentSince = none)
      ∧ (f.portB ≠ arcOf s u → (getPeer s u).silentSince = none →
          (getPeer t u).lease = (getPeer s u).lease ∧ (getPeer t u).renewed = (getPeer s u).renewed)
      ∧ (leAt status 12 4 < (getPeer s u).beatsSeen → (getPeer t u).rxSeq = 0)
      ∧ (∀ v, v ≠ u → getPeer t v = getPeer s v) ∧ t.prk.lost = s.prk.lost ∧ parkOnly s t))
  ∧ (∀ (s : State) (f : FrameIn) (status : Bytes) (v : Nat), heard f 0x10 s = true → v < parkN s → v < 64 →
    isSelf s v = false → isEvicted s v = false →
    answers (.heartbeat f status (2 ^ v)) s (fun t => t.prk.lost = s.prk.lost ||| 2 ^ v ∧ parkOnly s t))
  ∧ (∀ (s : State), s.prk.st = .formed → s.prk.heardTick + 65536 ≤ s.tick →
    answers .heartbeatSilence s (fun t => t.prk.st = .detached ∧ t.prk.intStatus.testBit 4 = true ∧ recorded 0x0801 t
      ∧ parkOnly s t))
  ∧ (∀ (s : State) (f : FrameIn), heard f 0x13 s = true →
    answers (.lostNotice f) s (fun t => t.prk.st = (if s.prk.st = .formed then .detached else s.prk.st) ∧ parkOnly s t))
  ∧ (∀ (s : State) (u : Fin 64) (x : Nat), (getPeer s u.val).silentSince = some x →
    ((s.tick < x + 65536 ∨ s.prk.st ≠ .formed) → becomes (.unreachableTimeout u) s s)
    ∧ (x + 65536 ≤ s.tick → s.prk.st = .formed → isLost s u.val = false → isEvicted s u.val = false → u.val < parkN s →
      isSelf s u.val = false → answers (.unreachableTimeout u) s (fun t => t.prk.lost = s.prk.lost ||| 2 ^ u.val
        ∧ t.prk.declare = s.prk.declare ||| 2 ^ u.val ∧ t.prk.lostDecl = satInc 32 s.prk.lostDecl
        ∧ t.prk.intStatus.testBit 1 = true ∧ recorded 0x0802 t ∧ parkOnly s t)))
  ∧ (∀ (s : State) (f : FrameIn), heard f 0x42 s = true →
    answers (.leave f) s (fun t => t.prk.evicted = s.prk.evicted ||| 2 ^ frSrc f.bytes
      ∧ t.prk.left = s.prk.left ||| 2 ^ frSrc f.bytes ∧ (t.prk.rejoin).testBit (frSrc f.bytes) = false
      ∧ t.prk.st = s.prk.st ∧ ((∀ e ∈ s.kst.objs, e.2.st ≠ .reserved) → t.kst = s.kst)))

/-- R121, R336 to R348: the two-phase commit as initiator and as participant, spread shares and results, resynchronisation. -/
def Obligations.ParkTransactions : Prop :=
  (∀ (s : State) (f : FrameIn) (unit counter deadline attempt : Nat) (ch : ParkChange), heard f 0x20 s = true →
    noPart s unit counter = true →
    let g := got f 0x20 s
    let id : TxnId := { unit := unit, counter := counter }
    let no := fun (st dt : Nat) (t : State) => sentTo g unit 0x21 (txnIdBytes id ++ leBytes 1 attempt ++ leBytes 1 0
      ++ leBytes 2 st ++ leBytes 2 dt) t ∧ t.prk.parts = s.prk.parts ∧ t.kst = s.kst ∧ parkOnly s t
    (s.prk.st ≠ .formed → s.prk.st ≠ .resyncing →
      answers (.prepare f unit counter deadline attempt ch) s (no 0x0606 0x0200))
    ∧ (s.prk.st = .formed → (parkFlag s = true ∨ peerDebug (getPeer s unit) = true) →
      answers (.prepare f unit counter deadline attempt ch) s (no 0x0606 0x0208))
    ∧ (s.prk.st = .formed → parkFlag s = false → peerDebug (getPeer s unit) = false → snapshotOut s = true →
      answers (.prepare f unit counter deadline attempt ch) s (no 0x0606 0x0200))
    ∧ (∀ h, ch = .delete h → s.prk.st = .formed → parkFlag s = false → peerDebug (getPeer s unit) = false →
      snapshotOut s = false → handleBusy s id ch = false → suspendDetail s = none →
      ((parkKeyOf s h).isNone = true → answers (.prepare f unit counter deadline attempt ch) s (no 0x0201 0))
      ∧ ((parkKeyOf s h).isSome = true → answers (.prepare f unit counter deadline attempt ch) s (fun t =>
        { id := id, change := ch, deadline := deadline, committed := false, activate := none, units := 0 } ∈ t.prk.parts
        ∧ sentTo g unit 0x21 (txnIdBytes id ++ leBytes 1 attempt ++ leBytes 1 1 ++ leBytes 2 0 ++ leBytes 2 0) t
        ∧ t.kst = s.kst ∧ parkOnly s t)))
    ∧ (∀ e, prepareCheck g id ch = .error e →
      answers (.prepare f unit counter deadline attempt ch) s (no e.1 e.2))
    ∧ (∀ g1, prepareCheck g id ch = .ok g1 →
      answers (.prepare f unit counter deadline attempt ch) s (fun t =>
        { id := id, change := ch, deadline := deadline, committed := false, activate := none, units := 0 } ∈ t.prk.parts
        ∧ t.kst = g1.kst ∧ t.sdl = g1.sdl
        ∧ sentTo g1 unit 0x21 (txnIdBytes id ++ leBytes 1 attempt ++ leBytes 1 1 ++ leBytes 2 0 ++ leBytes 2 0
            ++ ((changeObjs ch).map (fun o => unitGen g o.base)).flatMap (leBytes 1)) t)))
  ∧ (∀ (s : State) (f : FrameIn) (t0 : Txn) (yes : Bool) (st dt : Nat) (gens : List Nat), heard f 0x21 s = true →
    findTxn s t0.id = some t0 → t0.commitFirst = none → t0.members.testBit (frSrc f.bytes) = true →
    let i := Instr.vote f t0.id.unit t0.id.counter t0.attempt yes st dt gens
    let t1 := { t0 with yes := t0.yes ||| 2 ^ frSrc f.bytes,
                        gens := (List.range t0.gens.length).map (fun k => max (t0.gens.getD k 0) (gens.getD k 0)) }
    (yes = true → (∃ u ∈ bitUnits t0.members, t1.yes.testBit u = false) → answers i s (fun t =>
      findTxn t t0.id = some t1 ∧ t.kst = s.kst ∧ parkOnly s t))
    ∧ (∀ u, yes = true → bitUnits t0.members = [u] → u = frSrc f.bytes → isLost s u = false → t0.committed.testBit u = false →
      cancelsLate s t0.change = false → answers i s (fun t => findTxn t t0.id = some { t1 with commitFirst := some (now s), commitLast := now s }
        ∧ sentTo (got f 0x21 s) u 0x22 (txnIdBytes t0.id ++ (t1.gens.map (fun x => if x = 0 then 1 else x)).flatMap (leBytes 1)) t))
    ∧ (∀ u c, yes = true → bitUnits t0.members = [u] → u = frSrc f.bytes → cancelsLate s t0.change = true →
      t0.cmd = some c → noneQueued s = true → toHost s c = true → answers i s (fun t => findTxn t t0.id = none
        ∧ completed c 0x0101 0x0010 0 0 [] s t ∧ t.prk.txnAbort = satInc 32 s.prk.txnAbort ∧ t.aut.busy = none))
    ∧ (∀ c, yes = false → (changeObjs t0.change = [] ∨ dt ≠ 0x0112 ∨ 3 ≤ t0.attempt) → t0.cmd = some c →
      noneQueued s = true → toHost s c = true → answers i s (fun t => findTxn t t0.id = none
        ∧ completed c (t0.no.getD (st, dt)).1 (t0.no.getD (st, dt)).2 0 0 [] s t ∧ t.prk.txnAbort = satInc 32 s.prk.txnAbort
        ∧ t.prk.intStatus.testBit 5 = true ∧ t.aut.busy = none)))
  ∧ (∀ (s : State),
    let late := s.prk.txns.filter (fun t => t.commitFirst.isNone && decide (t.deadline ≤ now s))
    (late = [] → becomes .prepareDeadline s s)
    ∧ (∀ t0, late = [t0] → t0.cmd = none → answers .prepareDeadline s (fun t => findTxn t t0.id = none
        ∧ t.prk.serving = none ∧ t.prk.txnAbort = satInc 32 s.prk.txnAbort))
    ∧ (∀ t0 c, late = [t0] → t0.cmd = some c → noneQueued s = true → toHost s c = true →
      answers .prepareDeadline s (fun t => findTxn t t0.id = none
        ∧ completed c 0x0603 0x0205 0 (t0.members - (t0.members &&& t0.yes)) [] s t
        ∧ t.prk.txnAbort = satInc 32 s.prk.txnAbort ∧ t.aut.busy = none)))
  ∧ (∀ (s : State),
    let due := s.prk.txns.filter (fun t => t.commitFirst.isSome && t.activate.isNone && decide (t.commitLast + 4096 ≤ now s))
    ((due = [] ∨ live s = false) → becomes .commitResend s s)
    ∧ (∀ t0, live s = true → due = [t0] → answers .commitResend s (fun t => findTxn t t0.id = some { t0 with commitLast := now s }
      ∧ (∀ u, txnSilent s t0 = [u] → sentTo s u 0x22 (commitPayload t0) t) ∧ t.kst = s.kst ∧ parkOnly s t)))
  ∧ (∀ (s : State),
    (s.prk.unanswered = [] → s.prk.txns = [] → becomes .commitLostTimeout s s)
    ∧ (∀ u seq x, s.prk.unanswered = [(u, seq, x)] → x + 65536 ≤ now s → s.prk.txns = [] → u < parkN s → isSelf s u = false →
      isEvicted s u = false → answers .commitLostTimeout s (fun t => t.prk.lost = s.prk.lost ||| 2 ^ u
        ∧ t.prk.unanswered = [] ∧ parkOnly s t))
    ∧ (∀ t0 u x, s.prk.unanswered = [] → s.prk.txns = [t0] → t0.commitFirst = some x → x + 65536 ≤ now s → t0.activate = none →
      txnSilent s t0 = [u] → u < parkN s → isSelf s u = false → isEvicted s u = false →
      answers .commitLostTimeout s (fun t => t.prk.lost = s.prk.lost ||| 2 ^ u
        ∧ findTxn t t0.id = some { t0 with activate := some (now s + 1024) })))
  ∧ (∀ (s : State) (f : FrameIn) (t0 : Txn), heard f 0x23 s = true → findTxn s t0.id = some t0 → t0.commitFirst.isSome = true →
    t0.activate = none → t0.members.testBit (frSrc f.bytes) = true →
    let t1 := { t0 with committed := t0.committed ||| 2 ^ frSrc f.bytes }
    (txnSilent s t1 ≠ [] → answers (.committed f t0.id.unit t0.id.counter) s (fun t =>
      findTxn t t0.id = some t1 ∧ t.kst = s.kst ∧ parkOnly s t))
    ∧ (txnSilent s t1 = [] → answers (.committed f t0.id.unit t0.id.counter) s (fun t =>
      findTxn t t0.id = some { t1 with activate := some (now s + 1024) }
      ∧ (∀ u, bitUnits t1.committed = [u] → sentTo (got f 0x23 s) u 0x24 (txnIdBytes t0.id ++ leBytes 8 (now s + 1024)
          ++ leBytes 8 (t1.committed ||| 2 ^ s.prk.address)) t))))
  ∧ (∀ (s : State) (f : FrameIn) (unit counter activate units : Nat) (gens : List Nat), noPart s unit counter = true →
    let refused := fun (ty : Nat) (t : State) => sentTo (got f ty s) unit 0x21 (txnIdBytes { unit := unit, counter := counter }
      ++ leBytes 1 255 ++ leBytes 1 0 ++ leBytes 2 0x0606 ++ leBytes 2 0x0200) t ∧ t.kst = s.kst ∧ parkOnly s t
    (heard f 0x22 s = true → answers (.commit f unit counter gens) s (refused 0x22))
    ∧ (heard f 0x24 s = true → answers (.complete f unit counter activate units) s (refused 0x24))
    ∧ (heard f 0x25 s = true → answers (.abort f unit counter) s (fun t => t.prk.parts = s.prk.parts ∧ t.kst = s.kst
        ∧ parkOnly s t)))
  ∧ (∀ (s : State) (f : FrameIn) (p : PartTxn) (gens : List Nat), heard f 0x22 s = true → findPart s p.id = some p →
    answers (.commit f p.id.unit p.id.counter gens) s (fun t => findPart t p.id = some { p with committed := true }
      ∧ (changeObjs p.change = [] → t.kst = s.kst ∧ sentTo (got f 0x22 s) p.id.unit 0x23 (txnIdBytes p.id) t)
      ∧ (∀ o x n, changeObjs p.change = [o] → gens = [n] → kfind s.kst.objs o.base = some x → x.st = .reserved →
          x.txn = txnNo p.id → unitGen t o.base = n ∧ ∃ y, kfind t.kst.objs o.base = some y ∧ y.gen = n ∧ y.st = .reserved
          ∧ y.attr.handle = handleOf o.base n ∧ y.material = x.material)))
  ∧ (∀ (s : State) (f : FrameIn) (p : PartTxn) (activate units : Nat), heard f 0x24 s = true → findPart s p.id = some p →
    let i := Instr.complete f p.id.unit p.id.counter activate units
    ((p.committed = false ∨ p.activate.isSome = true) → answers i s (fun t => t.prk.parts = s.prk.parts ∧ t.kst = s.kst
      ∧ parkOnly s t))
    ∧ (p.committed = true → p.activate = none →
      ((∀ es, p.change ≠ .sched es) → now s < activate → answers i s (fun t =>
        findPart t p.id = some { p with activate := some activate, units := units } ∧ t.kst = s.kst ∧ parkOnly s t))
      ∧ (∀ h b o, p.change = .delete h → activate ≤ now s → parkKeyOf s h = some (b, o) → o.waiting = 0 →
        answers i s (fun t => findPart t p.id = none ∧ kfind t.kst.objs b = none
          ∧ (∀ u, u ≠ b → kfind t.kst.objs u = kfind s.kst.objs u)))
      ∧ (∀ e, p.change = .sched [e] → findObj s e.target = none → answers i s (fun t => findPart t p.id = none
        ∧ t.sdl.sched = putEntry s.sdl.sched { e with armed := true } ∧ t.kst = s.kst))))
  ∧ (∀ (s : State) (p : PartTxn) (x : Nat), s.prk.parts = [p] → s.prk.txns = [] → p.activate = some x →
    (now s < x → becomes .activationTick s s)
    ∧ (∀ o y, x ≤ now s → p.change = .create [o] → kfind s.kst.objs o.base = some y → y.st = .reserved → y.txn = txnNo p.id →
      answers .activationTick s (fun t => t.prk.parts = [] ∧ kfind t.kst.objs o.base = some { y with st := .active, txn := 0 }
        ∧ (∀ u, u ≠ o.base → kfind t.kst.objs u = kfind s.kst.objs u)))
    ∧ (∀ h b o, x ≤ now s → p.change = .delete h → parkKeyOf s h = some (b, o) → o.waiting = 0 →
      answers .activationTick s (fun t => t.prk.parts = [] ∧ kfind t.kst.objs b = none
        ∧ (∀ u, u ≠ b → kfind t.kst.objs u = kfind s.kst.objs u))))
  ∧ (∀ (s : State) (t0 : Txn) (c : Cmd) (x h b : Nat) (o : Obj), s.prk.parts = [] → s.prk.txns = [t0] → t0.activate = some x →
    x ≤ now s → t0.cmd = some c → t0.change = .delete h → parkKeyOf s h = some (b, o) → o.waiting = 0 → t0.output = [] →
    noneQueued s = true → toHost s c = true →
    let units := t0.committed ||| 2 ^ s.prk.address
    answers .activationTick s (fun t => t.prk.txns = [] ∧ kfind t.kst.objs b = none ∧ t.aut.busy = none
      ∧ completed c (if coversAll s units then 0 else 1) 0 0 units [] s t
      ∧ t.prk.txnOk = (if coversAll s units then satInc 32 s.prk.txnOk else s.prk.txnOk)
      ∧ t.prk.txnPartial = (if coversAll s units then s.prk.txnPartial else satInc 32 s.prk.txnPartial)))
  ∧ (∀ (s : State) (f : FrameIn) (p : PartTxn), heard f 0x25 s = true → findPart s p.id = some p →
    answers (.abort f p.id.unit p.id.counter) s (fun t => findPart t p.id = none
      ∧ (∀ b o, kfind s.kst.objs b = some o → o.st = .reserved → o.txn = txnNo p.id → kfind t.kst.objs b = none)))
  ∧ (∀ (s : State),
    let old := s.prk.parts.filter (fun p => !p.committed && decide (p.deadline + 65536 ≤ now s))
    (old = [] → becomes .reservationExpire s s)
    ∧ (∀ p, old = [p] → answers .reservationExpire s (fun t => findPart t p.id = none
      ∧ t.prk.st = (if s.prk.st = .formed then .detached else s.prk.st)
      ∧ (∀ b o, kfind s.kst.objs b = some o → o.st = .reserved → o.txn = txnNo p.id → kfind t.kst.objs b = none))))
  ∧ (∀ (s : State) (f : FrameIn) (batch tenant accepted : Nat) (d : Desc) (its : List (Nat × Bytes)), heard f 0x30 s = true →
    let g := got f 0x30 s
    ((s.prk.st ≠ .formed ∨ its = []) → answers (.spreadItems f batch ⟨tenant, accepted⟩ d its) s (fun t =>
      sentTo g (frSrc f.bytes) 0x31 (leBytes 4 batch ++ leBytes 4 (2 ^ 32 - 1) ++ leBytes 2 0x0606 ++ leBytes 2 0x0200 ++ leBytes 4 0) t
      ∧ t.gth = s.gth ∧ t.prk.spreadIn = s.prk.spreadIn ∧ parkOnly s t))
    ∧ (s.prk.st = .formed → its ≠ [] → answers (.spreadItems f batch ⟨tenant, accepted⟩ d its) s (fun t =>
      t.prk.spreadIn = satInc 32 s.prk.spreadIn ∧ t.prk.shares = s.prk.shares)))
  ∧ (∀ (s : State) (f : FrameIn) (batch i st dt wr : Nat) (o : Bytes), heard f 0x31 s = true →
    (s.prk.shares.any (fun x => x.batch == batch && x.unit == frSrc f.bytes && x.items.contains i) = false →
      answers (.spreadResult f batch (some i) st dt wr o) s (fun t => t.prk.shares = s.prk.shares ∧ t.gth = s.gth ∧ parkOnly s t))
    ∧ (∀ x b, s.prk.shares = [x] → x.batch = batch → x.unit = frSrc f.bytes → i ∈ x.items → getBatch s batch = some b →
      b.spread = true → 1 < b.left → b.plan.cmd.fn < 1024 → (s.gth.ideRequired && !s.gth.ideSecure) = false →
      answers (.spreadResult f batch (some i) st dt wr o) s (fun t =>
        t.prk.shares = [{ x with items := x.items.filter (fun k => k != i), ok := x.ok + (if st = 0 then 1 else 0),
                                 failed := x.failed + (if st = 0 then 0 else 1) }]
        ∧ getBatch t batch = some { b with left := b.left - 1, ok := b.ok + (if st = 0 then 1 else 0) }
        ∧ .itemStatus b.plan.cmd.fn b.plan.cmd.queue b.plan.cmd.desc.tag i st dt wr x.unit ∈ t.out)))
  ∧ (∀ (s : State) (u : Fin 64),
    let gone := isLost s u.val = true ∨ s.prk.st = .alone ∨ ∃ x, (getPeer s u.val).silentSince = some x ∧ x + 4096 ≤ s.tick
    ((¬ gone ∨ u.val = s.prk.address) → becomes (.spreadLossTimeout u) s s)
    ∧ (∀ x b i, gone → u.val ≠ s.prk.address → s.prk.shares = [x] → x.unit = u.val → x.items = [i] →
      getBatch s x.batch = some b → retryOk s b.plan.cmd = false → 1 < b.left →
      (s.gth.ideRequired && !s.gth.ideSecure) = false → answers (.spreadLossTimeout u) s (fun t =>
        t.prk.shares = [{ x with items := [], outcome := 2 }] ∧ getBatch t x.batch = some { b with left := b.left - 1 }
        ∧ .itemStatus b.plan.cmd.fn b.plan.cmd.queue b.plan.cmd.desc.tag i 0x0603 0 0 0xFF ∈ t.out)))
  ∧ (∀ (s : State) (f : FrameIn) (digest kem x : Bytes) (epoch : Nat), heard f 0x40 s = true →
    let u := frSrc f.bytes
    let wanted := isLost s u = true ∨ (isEvicted s u = true ∧ s.prk.rejoin.testBit u = true) ∨ s.prk.named.testBit u = false
    ((s.prk.st ≠ .formed ∨ s.prk.serving.isSome = true ∨ parkN s ≤ u) → answers (.resyncReq f digest kem x epoch) s (fun t =>
      t.prk.serving = s.prk.serving ∧ t.prk.txns = s.prk.txns ∧ parkOnly s t))
    ∧ (s.prk.st = .formed → s.prk.serving = none → u < parkN s → (digest ≠ s.prk.rosterDigest ∨ ¬ wanted) →
      answers (.resyncReq f digest kem x epoch) s (fun t => sentTo (got f 0x40 s) u 0x03 (leBytes 1 1) t
        ∧ t.prk.serving = none ∧ parkOnly s t))
    ∧ (s.prk.st = .formed → s.prk.serving = none → u < parkN s → digest = s.prk.rosterDigest → wanted →
      answers (.resyncReq f digest kem x epoch) s (fun t => t.prk.serving = some u ∧ t.prk.servingSince = s.tick
        ∧ (getPeer t u).kemPk = kem ∧ (getPeer t u).xPk = x ∧ (getPeer t u).rxSeq = 0
        ∧ (epoch = s.prk.epoch → ∃ y ∈ t.prk.txns, y.change = .joins u ∧ y.cmd = none ∧ y.members.testBit u = true)
        ∧ (epoch ≠ s.prk.epoch → t.prk.txns = s.prk.txns))))
  ∧ (∀ (s : State) (f : FrameIn) (objs : List ParkObj) (es : List SchedEntry) (r : Resync), heard f 0x41 s = true →
    s.prk.resync = some r →
    (r.loaded = true → answers (.resyncData f objs es) s (fun t => t.prk.resync = some r ∧ t.kst = s.kst ∧ parkOnly s t))
    ∧ (∀ g, r.loaded = false → loadSnapshot (got f 0x41 s) objs es = .ok g → answers (.resyncData f objs es) s (fun t =>
      t.prk.resync = some { r with server := some (frSrc f.bytes), loaded := true } ∧ t.kst = g.kst ∧ t.sdl = g.sdl))
    ∧ (∀ e, r.loaded = false → loadSnapshot (got f 0x41 s) objs es = .error e → noneQueued s = true → toHost s r.cmd = true →
      answers (.resyncData f objs es) s (fun t => t.prk.st = .detached ∧ t.prk.resync = none ∧ t.kst.objs = s.kst.objs
        ∧ completed r.cmd e.1 e.2 0 0 [] s t)))
  ∧ (∀ (s : State),
    let stale := s.prk.serving.isSome = true ∧ snapshotOut s = false ∧ s.prk.servingSince + 2 ^ 20 ≤ s.tick
    (s.prk.resync = none → ¬ stale → becomes .resyncTimeout s s)
    ∧ (s.prk.resync = none → stale → becomes .resyncTimeout s { s with prk := { s.prk with serving := none } })
    ∧ (∀ r, s.prk.resync = some r → r.server = none → s.tick < r.since + 2 ^ 20 → becomes .resyncTimeout s s)
    ∧ (∀ r, s.prk.resync = some r → (r.since + 2 ^ 20 ≤ s.tick ∨ ∃ u, r.server = some u ∧ isLost s u = true) →
      noneQueued s = true → toHost s r.cmd = true → answers .resyncTimeout s (fun t => t.prk.st = .detached
        ∧ t.prk.resync = none ∧ t.aut.busy = none ∧ completed r.cmd 0x0603 0x0205 0 0 [] s t)))

/-! The Lodge and the protection units (14_lodge_protection.md, 01_organisation.md R28 to R30) -/

/-- R375, R379 to R381, R384, R385, R389, R391, R392, R395, R450: slices, ends of applet calls, gates, faults, denials,
commits, mailbox entries and gating requests. -/
def Obligations.LodgeEvents : Prop :=
  (∀ (s : State), (s.ldg.visitorUp = false ∨ s.tick < s.ldg.sliceTick + 64) → becomes .sliceTimer s s)
  ∧ (∀ (s : State), s.ldg.visitorUp = true → s.ldg.sliceTick + 64 ≤ s.tick →
    (nextPart { s with ldg := { s.ldg with cores := [] } } = none →
      becomes .sliceTimer s { s with ldg := { s.ldg with cores := [], sliceTick := s.tick } })
    ∧ (∀ p, nextPart { s with ldg := { s.ldg with cores := [] } } = some p →
      answers .sliceTimer s (fun t => kfind t.ldg.cores 4 = some p ∧ t.ldg.sliceTick = s.tick ∧ t = { s with ldg := t.ldg })))
  ∧ (∀ (s : State) (p : Fin 64) (a : Applet) (r : Call) (st : Nat) (o : Bytes), kfind s.ldg.parts p.val = some a →
    a.running = some r → a.gateOut = 0 → a.removing = none → toHost s r.cmd = true →
    let ends := fun (i : Instr) (P : State → Prop) => answers i s (fun t => P t
      ∧ (a.queue = [] → kfind t.ldg.parts p.val = some { a with running := none }) ∧ Answering s t)
    (st = 0 → ends (.appletReturn p st o) (returned r.cmd o s))
    ∧ ((st = 0x0101 ∨ st = 0x0606 ∨ st = 0x0405) → ends (.appletReturn p st o) (completed r.cmd st 0 0 0 [] s))
    ∧ (st = 0x0104 → ends (.appletReturn p st o) (completed r.cmd 0x0104 0 o.length 0 [] s))
    ∧ (appletStatuses.contains st = false → ends (.appletReturn p st o) (completed r.cmd 0x0701 0x014E 0 0 [] s))
    ∧ (r.since + a.budget ≤ s.tick → ends (.callBudgetExpire p) (completed r.cmd 0x0601 0x0247 0 0 [] s))
    ∧ (s.tick < r.since + a.budget → becomes (.callBudgetExpire p) s s))
  ∧ (∀ (s : State) (p : Fin 64) (a : Applet) (st : Nat) (o : Bytes), kfind s.ldg.parts p.val = some a →
    (a.running = none → becomes (.appletReturn p st o) s s)
    ∧ (∀ r, a.running = some r → a.gateOut ≠ 0 → answers (.appletReturn p st o) s (fun t =>
      kfind t.ldg.parts p.val = some { a with running := some { r with ret := some (st, o) } } ∧ t = { s with ldg := t.ldg })))
  ∧ (∀ (s : State) (p : Fin 64) (a : Applet) (r : Call) (c : Cmd) (st : Nat) (o : Bytes), kfind s.ldg.parts p.val = some a →
    a.running = some r → a.gateOut = 0 → a.removing = some c → toHost s r.cmd = true → toHost s c = true → noneQueued s = true →
    answers (.appletReturn p st o) s (fun t => kfind t.ldg.parts p.val = none ∧ completed r.cmd 0x0606 0x0244 0 0 [] s t
      ∧ completed c 0 0 0 0 [] s t ∧ t.aut.busy = none ∧ t.mpu.epoch = (s.mpu.epoch + 1) % 2 ^ 32))
  ∧ (∀ (s : State) (p : Fin 64) (a : Applet) (c : Cmd) (b : Bool), kfind s.ldg.parts p.val = some a →
    ((a.running = none ∨ 64 ≤ a.gateOut ∨ (∃ r, a.running = some r ∧ r.ret.isSome = true)) → becomes (.gateSubmit p c b) s s)
    ∧ (∀ r, a.running = some r → a.gateOut < 64 → r.ret = none → r.cmd.fn < 1024 →
      let gate := 256 + 64 * a.calls + p.val
      let s1 := settle { s with ldg := { s.ldg with parts := kins s.ldg.parts p.val { a with gateOut := a.gateOut + 1 } } }
      let fails := fun (st dt : Nat) (t : State) => kfind t.ldg.parts p.val = some a
        ∧ ∃ l, t.out = s.out ++ l ∧ .completion r.cmd.fn gate
            { tag := c.desc.tag, status := st, detail := dt, written := 0, time := now s, pair := 0, unit := unitByte s } ∈ l
      (gateOpcode c.desc.opcode = false → answers (.gateSubmit p c b) s (fails 0x0101 0x0021))
      ∧ (gateOpcode c.desc.opcode = true → b = false → answers (.gateSubmit p c b) s (fails 0x0106 0))
      ∧ (gateOpcode c.desc.opcode = true → b = true → s1.gth.held.any (fun h => h.cmd.fn == r.cmd.fn && h.cmd.queue == gate) = true →
        answers (.gateSubmit p c b) s (fun t => t.ldg = s1.ldg ∧ t.gth.held = s1.gth.held
          ++ [{ cmd := { c with fn := r.cmd.fn, queue := gate }, why := .order, since := s.tick, tick := now s, plan := none }]))))
  ∧ (∀ (i : Instr) (s : State), (i = .stage2Fault 0 ∨ i = .lodgeFault) → s.boot.request = none → s.boot.start = none →
    becomes i s { s with boot := { s.boot with request := some { cause := 7, due := s.tick, time := false, cold := false } } })
  ∧ (∀ (s : State) (p : Fin 64) (a : Applet) (r : Call), p.val ≠ 0 → kfind s.ldg.parts p.val = some a → a.removing = none →
    a.running = some r → a.queue = [] → toHost s r.cmd = true →
    answers (.stage2Fault p) s (fun t => completed r.cmd 0x0601 0x0246 0 0 [] s t
      ∧ kfind t.ldg.parts p.val = some { a with running := none, gateOut := 0, faulted := true }
      ∧ t.ldg.intStatus.testBit 1 = true ∧ recorded 0x0A02 t ∧ Answering s t))
  ∧ (∀ (s : State) (m : Fin 24) (x : Fin 1024) (addr : Nat) (k : Access) (job : Option Nat),
    let granted := ∃ r, firstMatch s m.val x.val addr = some r ∧ r.perm.testBit (accessRight k) = true
    let byMap := firstMatch s m.val x.val addr = none ∧ defaultMap s m.val x.val k = true
    let denied := fun (t : State) => t.mpu.denied = satInc 32 s.mpu.denied ∧ (getFault t m.val).addr = addr
      ∧ (getFault t m.val).master = x.val ∧ (getFault t m.val).write = (k == .write)
      ∧ (getFault t m.val).noMatch = (firstMatch s m.val x.val addr).isNone
      ∧ (getFault t m.val).count = (if (getFault s m.val).count < 255 then (getFault s m.val).count + 1 else 255)
      ∧ (∀ n, n ≠ m.val → getFault t n = getFault s n) ∧ t.ldg.intStatus.testBit 0 = true
    ((granted ∨ byMap) → becomes (.mpuDenial m x addr ⟨k, job⟩) s s)
    ∧ (¬ granted → ¬ byMap → x.val ≠ 1 → ¬ (0x040 ≤ x.val ∧ x.val < 0x080) → (x.val ≠ 0x100 ∨ job = none) →
      answers (.mpuDenial m x addr ⟨k, job⟩) s (fun t => denied t ∧ recorded 0x0A01 t ∧ Quiet { s with mpu := t.mpu, ldg := t.ldg } t))
    ∧ (∀ n j, ¬ granted → ¬ byMap → x.val = 0x100 → job = some n → getJob s n = some j → jobOpen j = true →
      answers (.mpuDenial m x addr ⟨k, job⟩) s (fun t => denied t ∧ aborts s n j stFault 0x024A (abortDue s j) t))
    ∧ (¬ granted → ¬ byMap → x.val = 1 → s.boot.request = none → s.boot.start = none →
      answers (.mpuDenial m x addr ⟨k, job⟩) s (fun t => denied t
        ∧ t.boot.request = some { cause := 7, due := s.tick, time := false, cold := false })))
  ∧ (∀ (s : State) (old : Nat),
    (s.mpu.committing = true → becomes (.mpuCommit old) s s)
    ∧ (s.mpu.committing = false → becomes (.mpuCommit old) s { s with mpu := { s.mpu with
        active := s.mpu.staged, epoch := (s.mpu.epoch + 1) % 2 ^ 32, commits := satInc 32 s.mpu.commits,
        committing := decide (0 < old), draining := old, drainTick := s.tick } })
    ∧ (s.mpu.committing = true → s.mpu.heldWrites = [] → becomes .mpuDrainDone s { s with mpu := { s.mpu with
        committing := false, draining := 0 } })
    ∧ (∀ ix r, s.mpu.committing = true → s.mpu.heldWrites = [(ix, r)] → becomes .mpuDrainDone s { s with mpu := { s.mpu with
        committing := false, draining := 0, staged := kset (fun _ => regionReset) s.mpu.staged ix r, heldWrites := [] } })
    ∧ (s.mpu.committing = true → 0 < s.mpu.draining → s.mpu.drainTick + 3 ≤ s.tick → s.boot.request = none →
      s.boot.start = none → answers .mpuDrainTimeout s (fun t => t.mpu = { s.mpu with drainTimeout := true }
        ∧ t.ldg.intStatus.testBit 4 = true ∧ recorded 0x0A05 t
        ∧ t.boot.request = some { cause := 9, due := s.tick, time := false, cold := false })))
  ∧ (∀ (s : State) (entry : Bytes) (known : Bool),
    let ring := if s.ldg.kreq.length < 64 then s.ldg.kreq ++ [entry] else s.ldg.kreq
    let e := ring.headD []
    let good := known = true ∧ leAt e 2 2 ≤ 56 ∧ leAt e 4 4 = s.ldg.kreqSeq
    (live s = false → becomes (.kreqEntry entry known) s s)
    ∧ (live s = true → good → answers (.kreqEntry entry known) s (fun t =>
      Quiet { s with ldg := { s.ldg with kreq := ring.drop 1, kreqSeq := (s.ldg.kreqSeq + 1) % 2 ^ 32 } } t))
    ∧ (live s = true → ¬ good → answers (.kreqEntry entry known) s (fun t => t.ldg.kreqSeq = s.ldg.kreqSeq
      ∧ t.ldg.kreq = ring.drop 1 ∧ t.ldg.discards = (if s.ldg.discards < 65535 then s.ldg.discards + 1 else 65535)
      ∧ t.ldg.intStatus.testBit 5 = true ∧ recorded 0x0A03 t ∧ Quiet { s with ldg := t.ldg } t)))
  ∧ (∀ (s : State), live s = true → answers .knoteEntry s (fun t => ∃ type len payload : Bytes,
    let entry := type ++ len ++ leBytes 4 s.ldg.knoteSeq ++ payload
    type.length = 2 ∧ len.length = 2 ∧ leNat len ≤ 56 ∧ payload.length = 56
    ∧ Quiet { s with
        freeCtr := t.freeCtr,
        ldg := { s.ldg with
          knoteSeq := (s.ldg.knoteSeq + 1) % 2 ^ 32,
          knote := (if s.ldg.knote.length < 64 then s.ldg.knote ++ [entry] else s.ldg.knote).drop 1 } } t))
  ∧ (∀ (s : State) (d : Fin 20) (b : Bool), live s = false → becomes (.gatingRequest d b) s s)
  ∧ (∀ (s : State) (d : Fin 20), live s = true →
    let busy := (kfind s.pwr.pendingGate d.val).isSome = true ∨ domainInUse s d.val = true
    let denied := fun (t : State) => Quiet { s with ldg := { s.ldg with intStatus := s.ldg.intStatus ||| 2 ^ 3 } } t
    (s.pwr.gated.testBit d.val = true →
      becomes (.gatingRequest d true) s { s with pwr := { s.pwr with gated := s.pwr.gated - 2 ^ d.val } })
    ∧ (s.pwr.gated.testBit d.val = false → becomes (.gatingRequest d true) s s)
    ∧ (busy → answers (.gatingRequest d false) s denied)
    ∧ (¬ busy → s.pwr.hold.testBit d.val = false →
      becomes (.gatingRequest d false) s { s with pwr := { s.pwr with gated := s.pwr.gated ||| 2 ^ d.val } })
    ∧ (¬ busy → s.pwr.hold.testBit d.val = true → s.pwr.holdTimeout = 0 → answers (.gatingRequest d false) s denied)
    ∧ (¬ busy → s.pwr.hold.testBit d.val = true → s.pwr.holdTimeout ≠ 0 → answers (.gatingRequest d false) s (fun t =>
      kfind t.pwr.pendingGate d.val = some (s.tick + s.pwr.holdTimeout) ∧ t.pwr.gated = s.pwr.gated
      ∧ t.ldg.intStatus = s.ldg.intStatus ||| 2 ^ 2 ∧ Quiet { s with pwr := t.pwr, ldg := t.ldg } t))
    ∧ (∀ due, kfind s.pwr.pendingGate d.val = some due →
      (s.tick < due → becomes (.holdTimeout d) s s)
      ∧ (due ≤ s.tick → answers (.holdTimeout d) s (fun t => kfind t.pwr.pendingGate d.val = none
        ∧ t.pwr.gated = s.pwr.gated ∧ t.ldg.intStatus = s.ldg.intStatus ||| 2 ^ 3 ∧ recorded 0x0A06 t
        ∧ Quiet { s with pwr := t.pwr, ldg := t.ldg } t))))

/-! Debug and the test access port (16_life_cycle_debug.md; 14 R394) -/

/-- R310, R394, R408, R431, R436, R437, R440, R494: what a probe may do with debug closed and open. -/
def Obligations.DebugAndTap : Prop :=
  (∀ (i : Instr) (s : State) (x : Bool) (b : Bytes) (core : Fin 8) (op : Fin 4) (n : Nat), live s = false →
    (i = .tapIdcode ∨ i = .tapStatus ∨ i = .tapBypass ∨ i = .boundaryScan x b ∨ i = .debugHalt core op ∨ i = .scanChain n) →
    becomes i s s)
  ∧ (∀ (s : State), live s = true → becomes .tapIdcode s { s with
      tap := { s.tap with instr := .idcode, data := 0x1025655B }, out := s.out ++ [.port .tap (leBytes 4 0x1025655B)] })
  ∧ (∀ (s : State), live s = true →
    let v := b2n s.dbg.isOpen + 2 * b2n s.dbg.suspending + 4 * b2n s.dbg.resetPending + 8 * b2n (parkFlag s)
    becomes .tapStatus s { s with tap := { s.tap with instr := .status, data := v }, out := s.out ++ [.port .tap (leBytes 4 v)] })
  ∧ (∀ (i : Instr) (s : State) (x : Bool) (b : Bytes) (core : Fin 8) (op : Fin 4) (n : Nat), live s = true →
    (i = .tapBypass ∨ (i = .boundaryScan x b ∧ debugRight s 1 = false)
      ∨ (i = .debugHalt core op ∧ debugRight s (if core.val < 2 then 5 else 4) = false)
      ∨ (i = .scanChain n ∧ debugRight s 8 = false)) →
    becomes i s { s with tap := { s.tap with instr := .bypass, data := 0 } })
  ∧ (∀ (s : State), becomes .tapReset s { s with tap := { instr := .idcode, data := 0x1025655B, boundary := [], extest := false,
                                                          halted := [] } })
  ∧ (∀ (s : State) (x : Bool) (b : Bytes), live s = true → debugRight s 1 = true → becomes (.boundaryScan x b) s { s with
    tap := { s.tap with instr := if x then .extest else .samplePreload, boundary := b, extest := x },
    out := s.out ++ [.port .tap s.tap.boundary] })
  ∧ (∀ (s : State) (core : Fin 8), live s = true → debugRight s (if core.val < 2 then 5 else 4) = true →
    let others := s.tap.halted.filter (fun x => x != core.val)
    becomes (.debugHalt core 0) s { s with tap := { s.tap with halted := others ++ [core.val] } }
    ∧ becomes (.debugHalt core 1) s { s with tap := { s.tap with halted := others } }
    ∧ (∀ op : Fin 4, 2 ≤ op.val → core.val ∉ s.tap.halted → becomes (.debugHalt core op) s s)
    ∧ (∀ op : Fin 4, 2 ≤ op.val → core.val ∈ s.tap.halted → becomes (.debugHalt core op) s { s with
      freeCtr := s.freeCtr + 1,
      out := s.out ++ [.port .tap (leBytes 8 (Config.debugRead s.freeCtr (24 + core.val) op.val))] }))
  ∧ (∀ (s : State) (n : Nat), live s = true → debugRight s 8 = true → becomes (.scanChain n) s { s with
    tap := { s.tap with instr := .scan }, freeCtr := s.freeCtr + 1,
    out := s.out ++ [.port .tap (leBytes (n / 8 + 1) (Config.debugRead s.freeCtr 32 n))] })
  ∧ (∀ (s : State),
    ((live s = false ∨ s.dbg.isOpen = false ∨ now s < s.dbg.endTick) → becomes .debugSessionEnd s s)
    ∧ (live s = true → s.dbg.isOpen = true → s.dbg.endTick ≤ now s → s.aut.startReady = none → keeperHeld s = true →
      becomes .debugSessionEnd s { s with aut := { s.aut with mailbox := s.aut.mailbox ++ [keeperClose] } })
    ∧ (live s = true → s.dbg.isOpen = true → s.dbg.endTick ≤ now s → noneQueued s = true → keeperHeld s = false → s.dbg.installed = [] →
      s.prk.st ≠ .formed → answers .debugSessionEnd s (fun t =>
        t.dbg = { s.dbg with isOpen := false, rights := 0, regions := [], endTick := 0, installed := [],
                             resetPending := s.dbg.suspending }
        ∧ t.mpu.epoch = (s.mpu.epoch + 1) % 2 ^ 32 ∧ t.lcs.intStatus.testBit 3 = true ∧ t.lcs.intStatus.testBit 4 = true
        ∧ recorded 0x0C04 t)))
  ∧ (∀ (s : State) (m : Fin 24) (addr : Nat) (k : Access) (v : BitVec 32) (mem : Option (Fin 272)),
    live s = false → becomes (.debugAccess m addr k v mem) s s)
  ∧ (∀ (s : State) (m : Fin 24) (addr : Nat) (k : Access) (v : BitVec 32) (mem : Option (Fin 272)), live s = true →
    let hit := (List.range 16).find? (fun r => debugMatch s m.val r addr)
    let closedTarget := 2 ≤ s.lcs.state ∧ (m.val = 4 ∨ m.val = 5)
    (hit = none ∨ closedTarget ∨ (∃ r, hit = some r ∧ (getRegion s m.val r).perm.testBit (accessRight k) = false)) →
    answers (.debugAccess m addr k v mem) s (fun t => .port .tap (leBytes 4 0 ++ leBytes 1 1) ∈ t.out ∧ recorded 0x0A01 t
      ∧ (getFault t m.val).master = 0x3FF ∧ (getFault t m.val).addr = addr ∧ Quiet { s with mpu := t.mpu, ldg := t.ldg } t))
  ∧ (∀ (s : State) (m : Fin 24) (addr base len r : Nat) (v : BitVec 32), live s = true →
    (List.range 16).find? (fun r => debugMatch s m.val r addr) = some r → ¬ (2 ≤ s.lcs.state ∧ (m.val = 4 ∨ m.val = 5)) →
    targetBlock m.val = some (base, len) → addr < len → addr % 4 = 0 → debugBarred (base + addr) = false →
    (m.val = 20 ∨ m.val = 21 → debugRight s 3 = true) →
    ((getRegion s m.val r).perm.testBit 0 = true → answers (.debugAccess m addr .read v none) s (fun t =>
      t.out.getLast? = some (.port .tap (leBytes 4 (regRead s .debug (base + addr)).1 ++ leBytes 1 0))))
    ∧ ((getRegion s m.val r).perm.testBit 1 = true → answers (.debugAccess m addr .write v none) s (fun t =>
      t.out = (regWrite s .debug (base + addr) v.toNat).out ++ [.port .tap (leBytes 4 0 ++ leBytes 1 0)])))
  ∧ (∀ (s : State) (addr r : Nat) (v : BitVec 32), live s = true → s.lcs.state < 2 →
    (List.range 16).find? (fun r => debugMatch s 5 r addr) = some r →
    (0x200 ≤ addr → addr + 4 ≤ 0x240 →
      ((getRegion s 5 r).perm.testBit 0 = true → becomes (.debugAccess 5 addr .read v none) s { s with
        out := s.out ++ [.port .tap (leBytes 4 0 ++ leBytes 1 0)] })
      ∧ ((getRegion s 5 r).perm.testBit 1 = true → becomes (.debugAccess 5 addr .write v none) s { s with
        out := s.out ++ [.port .tap (leBytes 4 0 ++ leBytes 1 0)] }))
    ∧ (∀ i < 4096, addr = 0x8000 + 8 * i → (getRegion s 5 r).perm.testBit 0 = true →
      answers (.debugAccess 5 addr .read v none) s (fun t =>
        t = { s with out := s.out ++ [.port .tap (leBytes 4 (meterWord s i % 2 ^ 32) ++ leBytes 1 0)] })))
  ∧ (∀ (s : State) (m : Fin 24) (addr r : Nat) (k : Access) (v : BitVec 32), live s = true → m.val = 20 ∨ m.val = 21 →
    (List.range 16).find? (fun r => debugMatch s m.val r addr) = some r →
    (getRegion s m.val r).perm.testBit (accessRight k) = true →
    let busError := { s with out := s.out ++ [.port .tap (leBytes 4 0 ++ leBytes 1 1)] }
    (debugRight s 3 = false → (k = .write ∨ debugRight s 2 = false) → becomes (.debugAccess m addr k v none) s busError)
    ∧ (∀ u : Fin 272, ((k = .write ∧ debugRight s 7 = false) ∨ (debugRight s 6 = false ∧ debugRight s 7 = false)
        ∨ memoryOpen s m.val u.val = false) → becomes (.debugAccess m addr k v (some u)) s busError)
    ∧ (∀ u : Fin 272, k = .read → (debugRight s 6 = true ∨ debugRight s 7 = true) → memoryOpen s m.val u.val = true →
      addr + 4 ≤ memBytes m.val → becomes (.debugAccess m addr k v (some u)) s { s with
        out := s.out ++ [.port .tap (leBytes 4 (getProbed (unitProbed s m.val u.val) addr) ++ leBytes 1 0)] })
    ∧ (∀ u : Fin 272, k = .write → debugRight s 7 = true → memoryOpen s m.val u.val = true → addr + 4 ≤ memBytes m.val →
      answers (.debugAccess m addr k v (some u)) s (fun t =>
        unitProbed t m.val u.val = putProbed (unitProbed s m.val u.val) addr v.toNat
        ∧ t.out = s.out ++ [.port .tap (leBytes 4 0 ++ leBytes 1 0)] ∧ t = { s with eng := t.eng, bne := t.bne, out := t.out })))

/-! Parts, the recorder, the flash (18_counters_recorder_service.md; 17 R443; 13 R360) -/

/-- R360, R443, R459, R466, R468, R472 to R478: ends of quarantines, tests and drains, pages of the history, windows of the
meters, the customer code region. -/
def Obligations.RepairAndRecorder : Prop :=
  (∀ (s : State) (k : Fin 8) (x : Fin 272),
    ((∀ r, findWork s k.val x.val = some r → r.work ≠ .draining ∨ partIdle s k.val x.val = false) →
      becomes (.quarantineDrained k x) s s)
    ∧ (∀ r c, findWork s k.val x.val = some r → r.work = .draining → partIdle s k.val x.val = true → r.thenReturn = false →
      s.gth.jobs = [] → r.waiters = [(c.fn, c.queue, c.desc.tag)] → toHost s c = true →
      answers (.quarantineDrained k x) s (fun t => findWork t k.val x.val = none ∧ completed c 0 0 0 0 [] s t
        ∧ (k.val = 1 → (getEng t x.val).st = .quarantined) ∧ (k.val = 3 → (getBne t x.val).st = .quarantined)
        ∧ (k.val = 6 → (getSrc t x.val).st = .quarantined))))
  ∧ (∀ (s : State) (k : Fin 8) (x : Fin 272) (r : Repair) (since : Nat), findWork s k.val x.val = some r →
    r.work = .forcing since →
    (s.tick < since + 1048 → becomes (.wedgeTimeout k x) s s)
    ∧ (since + 1048 ≤ s.tick → s.boot.request = none → s.boot.start = none → answers (.wedgeTimeout k x) s (fun t =>
      findWork t k.val x.val = none ∧ recorded 0x0D06 t ∧ t.rep.lastKind = k.val ∧ t.rep.lastIndex = x.val
      ∧ t.boot.request = some { cause := 10, due := s.tick, time := false, cold := false })))
  ∧ (∀ (s : State) (k : Fin 8) (x : Fin 272) (fail : Option (Fin 65536)) (failed : List (Fin 8 × Fin 272 × Fin 65536))
    (r : Repair) (c : Cmd), findWork s k.val x.val = some r → r.work = .testing → r.waiters = [(c.fn, c.queue, c.desc.tag)] →
    toHost s c = true →
    let i := Instr.partTestEnd k x fail failed
    (fail.isSome = true → answers i s (fun t => findWork t k.val x.val = none ∧ completed c 0x0606 0x02C4 0 0 [] s t
      ∧ recorded 0x0D04 t ∧ t.rep.intStatus.testBit 3 = true ∧ t.rep.lastEvent = 4
      ∧ (k.val = 1 → (getEng t x.val).st = .quarantined) ∧ (k.val = 3 → (getBne t x.val).st = .quarantined)))
    ∧ (fail = none → r.testOnly = true → answers i s (fun t => findWork t k.val x.val = none ∧ completed c 0 0 0 0 [] s t
      ∧ recorded 0x0D03 t ∧ t.rep.intStatus.testBit 2 = true
      ∧ (k.val = 1 → (getEng t x.val).st = .quarantined) ∧ (k.val = 3 → (getBne t x.val).st = .quarantined)))
    ∧ (fail = none → r.testOnly = false → k.val ≠ 2 → answers i s (fun t => findWork t k.val x.val = none
      ∧ completed c 0 0 0 0 [] s t ∧ recorded 0x0D05 t ∧ t.rep.lastEvent = 5
      ∧ (k.val = 1 → (getEng t x.val).st = .idle) ∧ (k.val = 3 → (getBne t x.val).st = .idle ∧ x.val ∉ t.rep.bnes)
      ∧ (k.val = 4 → x.val ∉ t.rep.kecs) ∧ (k.val = 5 → x.val ∉ t.rep.shas) ∧ (k.val = 7 → x.val ∉ t.rep.peers))))
  ∧ (∀ (s : State), (unflushed s < 64 → becomes .historyFlush s s)
    ∧ (64 ≤ unflushed s → s.evt.history.length + 64 ≤ s.evt.historyCap → answers .historyFlush s (fun t =>
      t.evt.history = s.evt.history ++ ((s.evt.ring.filter (fun r => !r.flushed)).take 64).map (fun r => { r with flushed := true })
      ∧ t.evt.flushes = satInc 32 s.evt.flushes ∧ t.evt.ring.length = s.evt.ring.length ∧ t.evt.nextSeq = s.evt.nextSeq
      ∧ Quiet s t)))
  ∧ (∀ (s : State), (s.evt.erasePages = 0 → becomes .pageErase s s)
    ∧ (s.evt.erasePages ≠ 0 → becomes .pageErase s { s with evt := { s.evt with
      erasePages := s.evt.erasePages - 1, erasing := decide (1 < s.evt.erasePages),
      pagesErased := satInc 32 s.evt.pagesErased } }))
  ∧ (∀ (s : State), answers .meterWindow s (fun t => (∀ i, i < 10 →
      let ended := now s / 2 ^ winOf s i ≠ kget (fun _ => 0) s.pmc.ended i / 2 ^ winOf s i
      (ended → pmcGet t (592 + i) = (if kget (fun _ => false) s.pmc.fresh i then 0 else kget (fun _ => 0) s.pmc.moved i % 2 ^ 48)
        ∧ kget (fun _ => 0) t.pmc.moved i = 0 ∧ kget (fun _ => 0) t.pmc.ended i = now s ∧ t.pmc.intStatus.testBit 1 = true)
      ∧ (¬ ended → pmcGet t (592 + i) = pmcGet s (592 + i) ∧ kget (fun _ => 0) t.pmc.moved i = kget (fun _ => 0) s.pmc.moved i))
    ∧ (∀ n, n < 592 → pmcGet t n = pmcGet s n) ∧ Quiet s t))
  ∧ (∀ (s : State) (id : Nat) (a : Bool),
    let kind := if a then CodeKind.applet else CodeKind.program
    let named := s.boot.code.find? (fun e => e.kind == kind && e.ident == id)
    (named = none → becomes (.userCodeCompact id a) s s)
    ∧ (∀ e, named = some e →
      let p := codePlace { s with boot := { s.boot with code := s.boot.code.filter (fun x => x != e) } } e.length
      (e.place ≤ p → becomes (.userCodeCompact id a) s s)
      ∧ (p < e.place → becomes (.userCodeCompact id a) s { s with boot := { s.boot with
        code := s.boot.code.map (fun x => if x = e then { e with place := p } else x) } })))
  ∧ (∀ (s : State),
    let done := s.ten.vf.find? (fun e => e.2.st == .draining && !e.2.flrBusy && fnDrained s e.1)
    (done = none → becomes .quiesceDrained s s)
    ∧ (∀ n v c, done = some (n, v) → getVf s n = v → v.quiescer = [(c.fn, c.queue, c.desc.tag)] → toHost s c = true →
      answers .quiesceDrained s (fun t => (getVf t n).st = .quiesced ∧ (getVf t n).quiescer = []
        ∧ (∀ m, m ≠ n → (getVf t m).st = (getVf s m).st) ∧ completed c 0 0 0 0 [] s t)))

/-! Commands from the host (03_gatehouse.md, 01_organisation.md) -/

/-- R88 (release I), R62, R132, R138, R179, R266, R316, R319, R336, R359, R360, R439, R460, R467, R471, R475: a release-I
command that is ready is served at once; what it returns and what it changes. -/
def Obligations.ImmediateCommands : Prop :=
  served 0x0001 .adminIdentify (fun x => gives x ((List.range 4096).map Sys2Proof.Config.identityPage))
  ∧ served 0x0002 .adminAttest (fun x u t => if u.lcs.state = 5 then ends x 0x0606 0x0286 u t
      else returned x (attestBody u
          ++ padTo 96 (attestSignEc u.lcs.deviceId u.lcs.state (u.freeCtr + 1) (attestBody u))
          ++ padTo 4627 (attestSignMl u.lcs.deviceId u.lcs.state (u.freeCtr + 2) (attestBody u))) u t
        ∧ Answering { u with freeCtr := u.freeCtr + 2 } t)
  ∧ served 0x0003 .adminNop (fun x => ends x 0 0)
  ∧ served 0x0004 .adminAppletCall (fun x u t =>
      let p := x.desc.select % 64
      (kfind u.ldg.parts p = none → ends x 0x0606 0x0244 u t)
      ∧ ∀ a, kfind u.ldg.parts p = some a →
          ((a.removing.isSome = true ∨ a.isScoped = true ∧ a.tenant ≠ tenantOf u x.fn) → ends x 0x0606 0x0244 u t)
          ∧ ((a.isScoped = false ∨ a.tenant = tenantOf u x.fn) → a.removing = none →
          (a.faulted = true → ends x 0x0606 0x0246 u t)
          ∧ (a.faulted = false → 64 ≤ a.queue.length → ends x 0x0606 0x0245 u t)
          ∧ (a.faulted = false → a.queue.length < 64 → x.desc.inLen ≤ 65536 → x.desc.outLen ≤ 65536 →
          ([4, 5, 6, 7].all (fun k => (kfind u.ldg.cores k).isSome) = true →
            kfind t.ldg.parts p = some { a with queue := a.queue ++ [x] }
            ∧ Quiet { u with ldg := { u.ldg with parts := t.ldg.parts } } t)
          ∧ (u.ldg.parts = [(p, a)] → u.ldg.cores = [] → 0 < p → a.queue = [] → a.running = none →
            kfind t.ldg.parts p = some { a with
              running := some { cmd := x, since := u.tick, ret := none }, calls := a.calls + 1, gateOut := 0 }
            ∧ kfind t.ldg.cores 4 = some p
            ∧ Quiet { u with ldg := { u.ldg with parts := t.ldg.parts, cores := t.ldg.cores, lastPart := p } } t))))
  ∧ served 0x0005 .adminQuarantine (fun x u t =>
      let k := repKind x
      let i := repIndex x
      (∀ e, quarantineCheck u x = .error e → ends x e.1 e.2 u t)
      ∧ (quarantineCheck u x = .ok () →
          (isQuarantined u k i = true → ends x 0 0 u t)
          ∧ (isQuarantined u k i = false → repFlag x = false → findWork u k i = none →
              ∀ r, r = { kind := k, index := i, work := .draining, testOnly := false, cause := 1, started := u.tick,
                         waiters := [(x.fn, x.queue, x.desc.tag)], thenReturn := false } →
              partIdle (listOut (putWork u r) k i) k i = false → t = listOut (putWork u r) k i)))
  ∧ served 0x0006 .adminServiceReturn (fun x u t =>
      (∀ e, returnCheck u x = .error e → ends x e.1 e.2 u t)
      ∧ (returnCheck u x = .ok () →
          findWork t (repKind x) (repIndex x) = some {
            kind := repKind x, index := repIndex x, work := .testing,
            testOnly := repFlag x, cause := 1, started := u.tick, waiters := [(x.fn, x.queue, x.desc.tag)],
            thenReturn := false }
          ∧ Quiet { u with rep := t.rep, eng := t.eng, bne := t.bne, rng := t.rng, pwr := t.pwr, pav := t.pav } t))
  ∧ served 0x0007 .adminShutdown (fun x u t =>
      t.boot = { u.boot with shutdown := u.boot.shutdown ++ [(x.fn, x.queue, x.desc.tag)] }
      ∧ (∀ n, (getVf u n).st = .serving → getVf t n = { getVf u n with st := .draining })
      ∧ (∀ n, (getVf u n).st ≠ .serving → getVf t n = getVf u n)
      ∧ t = { u with boot := t.boot, ten := { u.ten with vf := t.ten.vf } })
  ∧ served 0x1003 .keyAttrGet (fun x u t => ∀ b o, keyLookup u x x.desc.keyA = .ok (b, o) →
      keyWindow u o.attr = .ok () → keyMeter u o.attr (meterUnits o.attr 0 0 0 1) = .ok () →
      ∀ v, v = meterCharge u o.attr (meterUnits o.attr 0 0 0 1) →
      (o.st = .damaged → ends x 0x0801 dDamaged v t)
      ∧ (o.st ≠ .damaged → x.desc.select = 0 → gives x (attrBytes o.attr) v t)
      ∧ (o.st ≠ .damaged → x.desc.select ≠ 0 → o.attr.cls = clsPublic → gives x o.material v t)
      ∧ (o.st ≠ .damaged → x.desc.select ≠ 0 → o.attr.cls ≠ clsPublic → ends x 0x0101 dParamSet v t))
  ∧ served 0x1005 .keyMeterGet (fun x u t => ∀ b o, keyLookup u x x.desc.keyA = .ok (b, o) →
      keyWindow u o.attr = .ok () → keyMeter u o.attr (meterUnits o.attr 0 0 0 1) = .ok () →
      ∀ v, v = meterCharge u o.attr (meterUnits o.attr 0 0 0 1) →
      (o.st = .damaged → ends x 0x0801 dDamaged v t)
      ∧ (o.st ≠ .damaged → attrFlag o.attr flMetered = true →
          gives x (meterGet v o.attr.meter o.attr.meterKind) v t)
      ∧ (o.st ≠ .damaged → attrFlag o.attr flMetered = false → ends x 0x0101 0 v t))
  ∧ served 0x2002 .runQuery (fun x u t =>
      (∀ p, kfind u.lib.programs x.desc.select = some p → p.removed = false →
        (p.man.isScoped = false ∨ p.man.tenant = tenantOf u x.fn) → gives x p.manBytes u t)
      ∧ (∀ p, kfind u.lib.programs x.desc.select = some p → p.removed = false →
        (p.man.isScoped = true ∧ p.man.tenant ≠ tenantOf u x.fn) → ends x 0x0606 0 u t)
      ∧ (kfind u.lib.programs x.desc.select = none → libLoaded u x.desc.select = true →
        gives x (libManifest x.desc.select) u t)
      ∧ (kfind u.lib.programs x.desc.select = none → libLoaded u x.desc.select = false → ends x 0x0101 0x0026 u t))
  ∧ served 0x4006 .digestMeasRead (fun x u t =>
      (x.desc.select % 65536 < 32 → gives x (measBytes u (x.desc.select % 65536)) u t)
      ∧ (x.desc.select % 65536 = 0x00FF → gives x ((List.range 32).flatMap (measBytes u)) u t)
      ∧ (31 < x.desc.select % 65536 → x.desc.select % 65536 ≠ 0x00FF → ends x 0x0101 0x002A u t))
  ∧ served 0x4007 .digestMeasExtend (fun x u t =>
      let i := x.desc.select % 65536
      ((i < 16 ∨ 31 < i) → ends x 0x0101 0x01AB u t)
      ∧ (16 ≤ i → i ≤ 31 → completed x 0 0 0 0 [] u t ∧ Answering { u with dgs := t.dgs } t
          ∧ { t.dgs with meas := u.dgs.meas } = u.dgs
          ∧ getMeas t i = { value := sha384 ((getMeas u i).value ++ x.input), count := satInc 32 (getMeas u i).count }
          ∧ ∀ k, k ≠ i → getMeas t k = getMeas u k))
  ∧ served 0x6001 .rngRead (fun x u t => if kilnReleasing u
      then t = { u with rng := { u.rng with ports := u.rng.ports ++ [{ cmd := x, since := u.tick }] } }
      else ends x (kilnStatus u).1 (kilnStatus u).2 u t)
  ∧ served 0x6002 .rngRawRead (fun x u t => if u.rng.st = .raw
      then t = { u with rng := { u.rng with
        rawSource := x.desc.select % 8, rawCond := x.desc.select.testBit 3,
        rawReads := u.rng.rawReads
          ++ [{ cmd := x, source := x.desc.select % 8, conditioned := x.desc.select.testBit 3, bits := [] }] } }
      else ends x 0x0606 0x01E0 u t)
  ∧ served 0x7001 .timeStamp (fun x u t => returned x (stampBytes u) u t ∧ Answering { u with freeCtr := u.freeCtr + 1 } t)
  ∧ served 0x7002 .timeStatus (fun x u t => returned x (Sys2Proof.Config.timeStatus u.freeCtr) u t
      ∧ Answering { u with freeCtr := u.freeCtr + 1 } t)
  ∧ served 0x8001 .parkStatus (fun x u => gives x (statusWord u ++ (List.range 64).flatMap (fun k =>
      if isSelf u k then statusWord u else padTo 16 (getPeer u k).status)) u)
  ∧ served 0x9001 .tenantVfQuiesce (fun x u t =>
      let n := x.desc.select % 1024
      1 ≤ n →
      ((getVf u n).st = .quiesced → (getVf u n).flrBusy = false → ends x 0 0 u t)
      ∧ ((getVf u n).st = .quiesced → (getVf u n).flrBusy = true →
          t = setVf u n { getVf u n with quiescer := (getVf u n).quiescer ++ [(x.fn, x.queue, x.desc.tag)] })
      ∧ ((getVf u n).st ≠ .quiesced → (getVf u n).st ≠ .serving → ends x 0x0606 dVfState u t)
      ∧ ((getVf u n).st = .serving → (getVf u n).flrBusy = false → fnDrained u n = true →
          (getVf t n).st = .quiesced ∧ completed x 0 0 0 0 [] u t ∧ Answering u t)
      ∧ ((getVf u n).st = .serving → (fnDrained u n = false ∨ (getVf u n).flrBusy = true) →
          t = setVf u n { getVf u n with
            st := .draining, quiescer := (getVf u n).quiescer ++ [(x.fn, x.queue, x.desc.tag)] }))
  ∧ served 0x9002 .tenantVfResume (fun x u t =>
      let n := x.desc.select % 1024
      1 ≤ n →
      ((getVf u n).st = .quiesced → (getVf t n).st = .serving ∧ ends x 0 0 u t)
      ∧ ((getVf u n).st ≠ .quiesced → ends x 0x0606 dVfState u t))
  ∧ served 0x9003 .tenantPerfGrant (fun x u t =>
      let n := x.desc.select % 1024
      1 ≤ n → leAt x.input 0 1 ≤ 1 → leAt x.input 1 3 = 0 →
      ((getVf u n).st = .unbound → ends x 0x0606 dVfState u t)
      ∧ ((getVf u n).st ≠ .unbound → (getVf t n).perfRead = (leAt x.input 0 1 == 1) ∧ ends x 0 0 u t))
  ∧ served 0xA001 .lifeStatus (fun x u => gives x (leBytes 1 u.lcs.state ++ leBytes 1 (lcsMarks u.lcs) ++ leBytes 1 (dbgStatus u)
      ++ leBytes 7 u.dbg.rights ++ List.replicate 6 0 ++ u.lcs.deviceId) u)
  ∧ served 0xB001 .eventRead (fun x u t =>
      leAt x.input 8 8 = 0 → 0 < leAt x.input 4 4 → leAt x.input 4 4 ≤ 16384 →
      (outRoom x < 80 → completed x 0x0104 0 80 0 [] u t ∧ Answering u t)
      ∧ (80 ≤ outRoom x →
          ∀ l, l = ((heldRecs u).filter (fun r =>
              decide ((if seqDist u (leAt x.input 0 4) ≤ seqDist u u.evt.nextSeq then seqDist u (leAt x.input 0 4) else 0)
                ≤ seqDist u r.seq) && visible u x.fn r)).take (min (leAt x.input 4 4) ((outRoom x - 16) / 64)) →
          x.badRecs = [] → gives x (leBytes 4 ((l.head?.map (fun r => r.seq)).getD u.evt.nextSeq) ++ leBytes 4 l.length
            ++ leBytes 4 ((l.getLast?.map (fun r => (r.seq + 1) % 2 ^ 32)).getD u.evt.nextSeq) ++ leBytes 4 0
            ++ l.flatMap recBytes) u t))
  ∧ served 0xC001 .perfRead (fun x u t =>
      (isVf x.fn = false → x.desc.select = 0 → gives x (snapshot u 0 0 608) u t)
      ∧ (isVf x.fn = false → ∀ p, p < 16 → x.desc.select = 0x1000 + p → gives x (snapshot u (0x1000 + p) (24 * p) 24) u t)
      ∧ (isVf x.fn = false → ∀ n, 0x4001 ≤ x.desc.select → x.desc.select < 0x4400 → n = x.desc.select - 0x4000 →
          gives x (viewBytes (vfView u n)) u t)
      ∧ (isVf x.fn = false → x.desc.select = 0x2000 → gives x (snapshot u 0x2000 384 224) u t)
      ∧ (isVf x.fn = true → x.desc.select = 0 → ends x 0x0101 0x0021 u t)
      ∧ (isVf x.fn = true → x.desc.select = 1 → (getVf u x.fn).perfRead = false → ends x 0x0606 0x0032 u t)
      ∧ (isVf x.fn = true → x.desc.select = 1 → (getVf u x.fn).perfRead = true → gives x (viewBytes (vfView u x.fn)) u t))
  ∧ served 0xC002 .perfWindowSet (fun x u t =>
      ((x.input.drop 10).take 6).all (fun b => b == 0) = true →
      (∀ i, i < 10 → leAt x.input i 1 = 0 ∨ 10 ≤ leAt x.input i 1 ∧ leAt x.input i 1 ≤ 24) →
      ends x 0 0 u t ∧ ∀ i, i < 10 → winOf t i = if leAt x.input i 1 = 0 then winOf u i else leAt x.input i 1)

/-- R88 (release G), R18, R19, R20, R42, R81, R135: a general command that is ready is refused with the first error of checks
3 to 8, or becomes one job with its pavilion, its base and its charge, or a batch; KEY_SAVE with COLD becomes a job for the
keeper world. -/
def Obligations.GeneralCommands : Prop :=
  plans 0x1001 .keyLoad ∧ plans 0x1002 .keySave ∧ plans 0x1004 .keyDerive ∧ plans 0x1006 .keyCheckValue
  ∧ plans 0x2001 .runProgram ∧ plans 0x3001 .symEncrypt ∧ plans 0x3002 .symDecrypt ∧ plans 0x3003 .symStream
  ∧ plans 0x3004 .symMacGen ∧ plans 0x3005 .symMacVerify ∧ plans 0x3006 .symPinTranslate
  ∧ plans 0x3007 .symPinVerify ∧ plans 0x3008 .symEmvVerify ∧ plans 0x3009 .symCvvGen ∧ plans 0x300A .symCvvVerify
  ∧ plans 0x4001 .digestOneshot ∧ plans 0x4002 .digestUpdate ∧ plans 0x4003 .digestFinal ∧ plans 0x4004 .digestMac
  ∧ plans 0x4005 .digestMacVerify ∧ plans 0x5001 .pkSign ∧ plans 0x5002 .pkVerify ∧ plans 0x5003 .pkEncaps
  ∧ plans 0x5004 .pkDecaps ∧ plans 0x5005 .pkDerive ∧ plans 0x5006 .pkEncrypt ∧ plans 0x5007 .pkDecrypt
  ∧ (∀ (c x : Cmd) (s0 s : State) (y : Cmd), y = { c with desc := { c.desc with select := c.desc.select ||| 0x20000 } } →
      judgedIn (rowCmd 0x1002 y) s0 s → ready (rowCmd 0x1002 y) s = true → x = seen (rowCmd 0x1002 y) s →
      (∀ e, planCold s x = .error e → answers (.keySaveCold c) s0 (fun t => completed x e.1 e.2 0 0 [] s t
        ∧ Answering { s with kst := t.kst } t ∧ t.gth.jobs = s.gth.jobs))
      ∧ (∀ j rng, planCold s x = .ok (j, rng) → kilnReleasing s = true → otsRoom s j = true → chargesFit s j = true →
          (planPav s).isSome = true → j.crit = true ∧ answers (.keySaveCold c) s0 (planned x j s)))

/-! Critical commands (04_command_authority.md, 05_key_store.md, 06_engine_model.md, 13_tenancy.md to 19_boot_and_repair.md) -/

/-- R88 (critical), R105, R156, R179 to R181, R266, R378, R381, R442, R450, R508: what the approved administrative commands
change; R63: whether ADMIN_POLICY_SET requires an encrypted link is a free value (log 43). -/
def Obligations.CriticalAdmin : Prop :=
  performed (rowCmd 0x0010) .adminFwUpdate (fun x v t => commits x v t ∧ Posting { v with boot := t.boot } t
    ∧ t.boot = if v.boot.slot = 0
      then { v.boot with
        fwB := signedBy (Sys2Proof.Config.vendorEc, Sys2Proof.Config.vendorMl) x.input "SX256Q FIRMWARE",
        fwDigestB := sha384 x.input }
      else { v.boot with
        fwA := signedBy (Sys2Proof.Config.vendorEc, Sys2Proof.Config.vendorMl) x.input "SX256Q FIRMWARE",
        fwDigestA := sha384 x.input })
  ∧ performed (rowCmd 0x0011) .adminFwActivate (fun x v t => commits x v t
      ∧ Posting { v with boot := { v.boot with dirSlot := 1 - v.boot.slot } } t)
  ∧ (∀ (i : Cmd → Instr) (p : Nat), (i = .adminReset ∧ p = 0) ∨ (i = .adminResetTime ∧ p = 1) ∨ (i = .adminResetCold ∧ p = 2) →
      performed (rowSet 0x0012 p) i (fun x v t => v.boot.request = none → v.boot.start = none → commits x v t
        ∧ Posting { v with boot := { v.boot with
            request := some { cause := 1 + p, due := v.tick + 1048, time := p == 1, cold := p == 2 } } } t))
  ∧ performed (rowCmd 0x0013) .adminProgramLoad (fun x v t =>
      (∀ e, programCheck v x.fn x.input = .error e → fails x e v t)
      ∧ (∀ p, programCheck v x.fn x.input = .ok p → commits x v t
          ∧ kfind t.lib.programs p.man.progId = some p
          ∧ (∀ k, k ≠ p.man.progId → kfind t.lib.programs k = kfind v.lib.programs k)
          ∧ t.boot.code = v.boot.code ++ [{ kind := .program, ident := p.man.progId,
                                            place := codePlace v (x.input.length + 16), length := x.input.length + 16,
                                            bytes := x.input }]
          ∧ extended 3 (sha384 x.input) v t ∧ recorded 0x0308 t
          ∧ Posting { v with
              lib := { v.lib with programs := t.lib.programs }, dgs := t.dgs, boot := { v.boot with code := t.boot.code } } t))
  ∧ performed (rowCmd 0x0014) .adminProgramRemove (fun x v t => kfind v.lib.programs x.desc.select = none →
      (libLoaded v x.desc.select = false → fails x (0x0101, 0x0026) v t)
      ∧ (libLoaded v x.desc.select = true → scopeOk v x.fn (x.desc.select / 2 ^ 24) false 0 = false → fails x (0x0606, 0x0169) v t)
      ∧ (libLoaded v x.desc.select = true → scopeOk v x.fn (x.desc.select / 2 ^ 24) false 0 = true → commits x v t
          ∧ libLoaded t x.desc.select = false ∧ recorded 0x0309 t
          ∧ Posting { v with lib := { v.lib with removedLib := v.lib.removedLib ++ [x.desc.select] } } t))
  ∧ performed (rowCmd 0x0014) .adminProgramRemove (fun x v t => ∀ p, kfind v.lib.programs x.desc.select = some p →
      (p.removed = true → fails x (0x0101, 0x0026) v t)
      ∧ (p.removed = false → scopeOk v x.fn (x.desc.select / 2 ^ 24) p.man.isScoped p.man.tenant = false →
          fails x (0x0606, 0x0169) v t)
      ∧ (p.removed = false → scopeOk v x.fn (x.desc.select / 2 ^ 24) p.man.isScoped p.man.tenant = true → commits x v t
          ∧ kfind t.lib.programs x.desc.select =
            (if programBusy v x.desc.select then some { p with removed := true } else none)
          ∧ (∀ k, k ≠ x.desc.select → kfind t.lib.programs k = kfind v.lib.programs k)
          ∧ (∀ e ∈ t.boot.code, e ∈ v.boot.code ∧ ¬(e.kind = .program ∧ e.ident = x.desc.select)) ∧ recorded 0x0309 t
          ∧ Posting { v with
              lib := { v.lib with programs := t.lib.programs }, boot := { v.boot with code := t.boot.code } } t))
  ∧ performed (rowSet 0x0015 0x0001) .adminAppletLoad (fun x v t =>
      (∀ e, appletCheck v x.fn x.input = .error e → fails x e v t)
      ∧ (∀ p a, appletCheck v x.fn x.input = .ok (p, a) → 4 ≤ outRoom x → returned x (leBytes 1 p ++ [0, 0, 0]) v t
          ∧ kfind t.ldg.parts p = some a ∧ (∀ k, k ≠ p → kfind t.ldg.parts k = kfind v.ldg.parts k)
          ∧ extended 4 (sha384 x.input) v t ∧ t.mpu.active = v.mpu.staged
          ∧ Posting { v with
              ldg := { v.ldg with parts := t.ldg.parts }, mpu := t.mpu, dgs := t.dgs, freeCtr := v.freeCtr + a.ways.length,
              boot := { v.boot with code := t.boot.code } } t))
  ∧ performed (rowSet 0x0015 0x0002) .adminAppletRemove (fun x v t => leAt x.input 1 3 = 0 →
      (kfind v.ldg.parts (leAt x.input 0 1) = none → fails x (0x0606, 0x0244) v t)
      ∧ (∀ a, kfind v.ldg.parts (leAt x.input 0 1) = some a → isVf x.fn = false → a.queue = [] →
          (a.running.isSome = true → t.aut.busy = some x
            ∧ kfind t.ldg.parts (leAt x.input 0 1) = some { a with removing := some x } ∧ t.out = v.out)
          ∧ (a.running = none → commits x v t ∧ kfind t.ldg.parts (leAt x.input 0 1) = none
            ∧ (∀ k, k ≠ leAt x.input 0 1 → kfind t.ldg.parts k = kfind v.ldg.parts k) ∧ t.mpu.active = v.mpu.staged
            ∧ Posting { v with
                ldg := { v.ldg with parts := t.ldg.parts }, mpu := t.mpu, boot := { v.boot with code := t.boot.code } } t)))
  ∧ performed (rowCmd 0x0017) .adminCustodianRevoke (fun x v t =>
      let ix := x.desc.select % 65536
      ix < 64 →
      (kfind v.aut.custodians ix = none → fails x (0x0606, 0x0109) v t)
      ∧ ((kfind v.aut.custodians ix).isSome = true → rolesCovered v (kdel v.aut.custodians ix) = false →
          fails x (0x0606, 0x0107) v t)
      ∧ ((kfind v.aut.custodians ix).isSome = true → rolesCovered v (kdel v.aut.custodians ix) = true → commits x v t
          ∧ kfind t.aut.custodians ix = none ∧ (∀ k, k ≠ ix → kfind t.aut.custodians k = kfind v.aut.custodians k)
          ∧ kfind t.aut.chanKey (1024 + ix) = none
          ∧ (∀ k, k ≠ 1024 + ix → kfind t.aut.chanKey k = kfind v.aut.chanKey k) ∧ recorded 0x0306 t
          ∧ Posting { v with aut := { v.aut with custodians := t.aut.custodians, chanKey := t.aut.chanKey } } t))
  ∧ performed (rowSet 0x0018 0x0001) .adminPolicySet (fun x v t =>
      (∀ e, policyParse isCritical v x.input = .error e → fails x e v t)
      ∧ (∀ p, policyParse isCritical v x.input = .ok p → extended 5 (sha384 x.input) v t ∧ recorded 0x0307 t
          ∧ t.gth.ideRequired = Sys2Proof.Config.ideRequired v.freeCtr
          ∧ ((v.gth.ideSecure = true ∨ Sys2Proof.Config.ideRequired v.freeCtr = false) → v.gth.ideHeld = [] → commits x v t
            ∧ Posting { v with
                aut := { v.aut with policy := p }, dgs := t.dgs, freeCtr := v.freeCtr + 1,
                gth := { v.gth with ideRequired := t.gth.ideRequired } } t)
          ∧ (v.gth.ideSecure = false → Sys2Proof.Config.ideRequired v.freeCtr = true →
            t.gth.ideHeld = v.gth.ideHeld ++ [.completion x.fn x.queue {
                tag := x.desc.tag, status := 0, detail := 0, written := 0, time := now v, pair := 0, unit := unitByte v }] ∧ t.aut.policy = p)))
  ∧ performed (rowSet 0x0018 0x0002) .adminPublisherSet (fun x v t =>
      (∀ e, publisherCheck v x.input = .error e → fails x e v t)
      ∧ (publisherCheck v x.input = .ok () → commits x v t ∧ extended 5 (sha384 x.input) v t ∧ recorded 0x0307 t
          ∧ kfind t.lib.publishers (leAt x.input 0 1) = (if leAt x.input 1 1 = 1 then
              some { isScoped := (leAt x.input 2 2).testBit 15, scope := leAt x.input 2 2 % 4096,
                     pkEc := (x.input.drop 8).take 97, pkMl := (x.input.drop 105).take 1952 } else none)
          ∧ (∀ k, k ≠ leAt x.input 0 1 → kfind t.lib.publishers k = kfind v.lib.publishers k)
          ∧ Posting { v with lib := { v.lib with publishers := t.lib.publishers }, dgs := t.dgs } t))
  ∧ (∀ (c : Cmd) (s0 s : State) (x : Cmd) (u v : State) (l : List Nat), judgedIn (rowCmd 0x0016 c) s0 s →
      reachesKeeper (rowCmd 0x0016 c) s x u → checked x u v l →
      (l.length < required v x → answers (.adminCustodianEnrol c) s0 (waits x (required v x) l false false v))
      ∧ (required v x ≤ l.length →
          (∀ e, enrolCheck v x = .error e → answers (.adminCustodianEnrol c) s0 (fun t => completed x e.1 e.2 0 0 [] v t
            ∧ t.aut.wait = none ∧ t.aut.custodians = v.aut.custodians ∧ t.aut.chanKey = v.aut.chanKey))
          ∧ (enrolCheck v x = .ok () → answers (.adminCustodianEnrol c) s0 (waits x (required v x) l false true v))))

/-- R88 (critical), R16, R114, R121, R124, R125, R128, R129, R134, R137, R142 to R147: what the approved key management commands change. -/
def Obligations.CriticalKeys : Prop :=
  performed (rowCmd 0x1010) .keyGenerate (fun x v t => suspendDetail v = none →
    (∀ e, generateCheck v x = .error e → fails x e v t)
    ∧ (∀ a b, generateCheck v x = .ok (a, b) → attrFlag a flParkWide = false →
      (genReady v = false → feedHeld v 1 = false → fails x (kilnStatus v) v t)
      ∧ (genReady v = false → feedHeld v 1 = true →
          t = { v with aut := { v.aut with busy := some x, kilnWait := some v.tick } })
      ∧ (genReady v = true → a.cls = clsSecret → ∀ key w v1 h,
          drawSecret v ((secretLen a.alg (x.desc.select % 65536)).getD 0) = (some key, w) →
          createAll w [(a, key)] = .ok (v1, [h]) → returned x (leBytes 4 h) v1 t ∧ Posting v1 t ∧ (∃ y ∈ key, y ≠ 0)
          ∧ ∃ b o, kfind t.kst.objs b = some o ∧ o.material = key ∧ o.st = .active ∧ o.attr.handle = h ∧ o.attr.origin = 1
            ∧ o.attr.tenant = a.tenant ∧ o.attr.usage = a.usage ∧ o.attr.alg = a.alg)
      ∧ (genReady v = true → a.cls ≠ clsSecret →
          (∀ e, generateJobs v x a (x.desc.select % 65536) = .error e → fails x e v t)
          ∧ (∀ jobs, generateJobs v x a (x.desc.select % 65536) = .ok jobs → planAll v jobs = none → fails x (0x0606, 0x02C6) v t)
          ∧ (∀ jobs v1, generateJobs v x a (x.desc.select % 65536) = .ok jobs → planAll v jobs = some v1 →
              t = { v1 with aut := { v1.aut with busy := some x } }))))
  ∧ performed (rowCmd 0x1011) .keyImport (fun x v t => ∀ w a r,
      let fmt := x.desc.select % 65536
      1 ≤ fmt → fmt ≤ 4 → poolServes v fmt (attrParse x.aux).alg (attrParse x.aux).cls = .ok () →
      critKey v x x.desc.keyB usUnwrap = .ok w →
      hostAttr x.aux (tenantOf v x.fn) (otsCount (attrParse x.aux).alg) = .ok a →
      ¬(isStateful a.alg = true ∧ a.cls = clsPrivate) →
      (a.cls ≠ clsSecret → isPq a.alg = true → (libPick v (libId a.alg opCheck)).isSome = true) → wrapFits fmt w.2.attr.alg = true →
      openWrapped fmt a.alg w.2.attr w.2.material x.input = .ok r → materialLenOk r.material.length = true →
      (r.barred = true → attrFlag a flExportable = false) → r.alg a.alg = true → r.usages.contains a.usage = true →
      a.cls = r.cls → (attrFlag a flExportable = true → r.exportable = true) → (∃ y ∈ r.material, y ≠ 0) →
      importBad a.alg a.cls r.material = none → attrFlag a flParkWide = false →
      (importDraws a = false ∨ kilnReleasing v = true) →
      ∀ v1 h, createAll (critCharge v w.2.attr) [({ a with origin := 2 }, r.material)] = .ok (v1, [h]) →
      returned x (leBytes 4 h) v1 t ∧ Posting v1 t
      ∧ ∃ b o, kfind t.kst.objs b = some o ∧ o.material = r.material ∧ o.st = .active ∧ o.attr.handle = h
        ∧ o.attr.origin = 2 ∧ o.attr.tenant = a.tenant ∧ o.attr.usage = a.usage ∧ o.attr.alg = a.alg)
  ∧ performed (rowCmd 0x1012) .keyExport (fun x v t => ∀ a w,
      let fmt := x.desc.select % 65536
      1 ≤ fmt → fmt ≤ 4 → poolServes v fmt 0 clsSecret = .ok () → critKey v x x.desc.keyA 0 = .ok a → critKey v x x.desc.keyB usWrap = .ok w →
      a.2.attr.cls ≠ clsPublic →
      (attrFlag a.2.attr flExportable = false → fails x (0x0606, dNotExportable) v t)
      ∧ (attrFlag a.2.attr flExportable = true →
          (weakWrap a.2.attr w.2.attr w.2.material.length = true → fails x (0x0606, dWeakWrap) v t)
          ∧ (weakWrap a.2.attr w.2.attr w.2.material.length = false → (fmt = 1 → a.2.attr.cls = clsSecret) →
              wrapFits fmt w.2.attr.alg = true → genReady v = true → ∀ out v1,
              exportOut (critCharge (critCharge v a.2.attr) w.2.attr) fmt a.2.attr a.2.material w.2.attr w.2.material = .ok (out, v1) →
              returned x out v1 t ∧ Posting v1 t)))
  ∧ performed (rowCmd 0x1013) .keyDelete (fun x v t =>
      (∀ e, critLook v x x.desc.keyA 0 = .error e → e.1 ≠ stExhausted → fails x e v t)
      ∧ (∀ b o, critLook v x x.desc.keyA 0 = .ok (b, o) → (attrFlag o.attr flParkWide = false ∨ v.prk.st = .alone) →
          commits x v t
          ∧ kfind t.kst.objs b = (if o.waiting = 0 then none else some { o with st := .draining })
          ∧ (∀ k, k ≠ b → kfind t.kst.objs k = kfind v.kst.objs k)
          ∧ t.boot = { v.boot with coldRecs := v.boot.coldRecs.filter (fun r => coldHandle r != x.desc.keyA) }
          ∧ Posting { v with kst := t.kst, peat := t.peat, boot := t.boot } t))
  ∧ performed (rowCmd 0x1014) .keyAttrSet (fun x v t =>
      (∀ e, critKey v x x.desc.keyA 0 = .error e → e.1 ≠ stExhausted → fails x e v t)
      ∧ (∀ b o, critLook v x x.desc.keyA 0 = .ok (b, o) → o.st = .damaged → fails x (0x0801, dDamaged) v t)
      ∧ (∀ b o, critKey v x x.desc.keyA 0 = .ok (b, o) →
          (∀ e, attrSetCheck o.attr x.input = .error e → fails x e v t)
          ∧ (∀ a, attrSetCheck o.attr x.input = .ok a → (coldHas v o.attr.handle = false ∨ genReady v = true) →
              (attrFlag o.attr flParkWide = false ∨ v.prk.st = .alone) → commits x v t
              ∧ kfind t.kst.objs b = some { o with
                  attr := attrApply o.attr x.input, tag := objTag v (attrApply o.attr x.input) o.material }
              ∧ (∀ k, k ≠ b → kfind t.kst.objs k = kfind v.kst.objs k)
              ∧ Posting { v with
                  kst := t.kst, peat := t.peat, rng := t.rng, boot := { v.boot with coldRecs := t.boot.coldRecs },
                  freeCtr := t.freeCtr } t)))
  ∧ performed (rowCmd 0x1016) .keyMeterSet (fun x v t =>
      let i := x.desc.select % 4096
      let free := meterHolder v i = none
      (x.desc.keyA ≠ 0 → ∀ e, critKey v x x.desc.keyA 0 = .error e → e.1 ≠ stExhausted → fails x e v t)
      ∧ (∀ w, meterSetKey v x = .ok w →
          (free → leAt x.input 8 8 ≠ 0 → fails x (0x0101, 0) v t)
          ∧ (free → leAt x.input 8 8 = 0 → commits x v t ∧ meterWord t i = leAt x.input 0 8
              ∧ (∀ k, k ≠ i → meterWord t k = meterWord w k) ∧ t.kst.objs = w.kst.objs
              ∧ Posting { w with peat := t.peat, kst := t.kst } t)
          ∧ (∀ b o, meterHolder v i = some (b, o) → o.attr.tenant ≠ tenantOf v x.fn → fails x (0x0201, 0) v t)
          ∧ (∀ b o, meterHolder v i = some (b, o) → o.attr.tenant = tenantOf v x.fn →
              (o.st = .damaged → fails x (0x0801, dDamaged) v t)
              ∧ (∀ e, o.st ≠ .damaged → meterSetCheck v i (leAt x.input 0 8) (leAt x.input 8 8) = .error e → fails x e v t)
              ∧ (o.st ≠ .damaged → kfind v.kst.objs b = some o →
                  meterSetCheck v i (leAt x.input 0 8) (leAt x.input 8 8) = .ok () →
                  (coldHas v o.attr.handle = false ∨ genReady v = true) →
                  (attrFlag o.attr flParkWide = false ∨ v.prk.st = .alone) → commits x v t
                  ∧ meterWord t i = leAt x.input 0 8 ∧ (∀ k, k ≠ i → meterWord t k = meterWord w k)
                  ∧ (o.attr.meterKind ≠ 3 →
                      (kfind t.kst.objs b).map (fun y => y.attr) = some { o.attr with limit := leAt x.input 8 8 })
                  ∧ (o.attr.meterKind = 3 → t.kst.objs = w.kst.objs)))))
  ∧ (∀ (c : Cmd) (s0 s : State) (x : Cmd) (u v : State) (l : List Nat), judgedIn (rowCmd 0x1015 c) s0 s →
      reachesKeeper (rowCmd 0x1015 c) s x u → checked x u v l →
      (componentLen (leAt x.input 2 2) = 0 → answers (.keyComponent c) s0 (fails x (0x0101, 0) v))
      ∧ (componentLen (leAt x.input 2 2) ≠ 0 → 0 < required v x →
          answers (.keyComponent c) s0 (waits x (required v x) [] false false v)))

/-- R88 (critical), R352 to R357, R363 to R368: what the approved tenant commands change. -/
def Obligations.CriticalTenants : Prop :=
  performed (rowCmd 0x9010) .tenantCreate (fun x v t =>
    let n := leAt x.input 0 2
    (∀ e, quotaForm x.input = .error e → fails x e v t)
    ∧ (quotaForm x.input = .ok () → (n = 0 → fails x (0x0101, 0x0220) v t)
      ∧ (n ≠ 0 → tenantKnown v n = true → fails x (0x0606, 0x0221) v t)
      ∧ (n ≠ 0 → tenantKnown v n = false → commits x v t ∧ kfind t.ten.tenants n = some (quotaParse x.input)
          ∧ (∀ k, k ≠ n → kfind t.ten.tenants k = kfind v.ten.tenants k) ∧ recorded 0x0901 t
          ∧ Posting { v with ten := { v.ten with tenants := t.ten.tenants } } t)))
  ∧ performed (rowCmd 0x9011) .tenantDelete (fun x v t =>
      let n := leAt x.input 0 2
      0 < n → n < 4096 →
      (tenantKnown v n = false → fails x (0x0606, dTenantUnknown) v t)
      ∧ (tenantKnown v n = true → tenantEmpty v n = false → fails x (0x0606, 0x0223) v t)
      ∧ (tenantKnown v n = true → tenantEmpty v n = true → commits x v t ∧ kfind t.ten.tenants n = none
          ∧ (∀ k, k ≠ n → kfind t.ten.tenants k = kfind v.ten.tenants k) ∧ recorded 0x0902 t
          ∧ Posting { v with ten := { v.ten with tenants := t.ten.tenants } } t))
  ∧ performed (rowCmd 0x9012) .tenantBindVf (fun x v t =>
      let n := x.desc.select % 1024
      let tn := leAt x.input 0 2
      1 ≤ n → leAt x.input 2 2 = 0 → 0 < tn → tn < 4096 →
      (tenantKnown v tn = false → fails x (0x0606, dTenantUnknown) v t)
      ∧ (tenantKnown v tn = true → ((getVf v n).st ≠ .unbound ∨ queuesOff v n = false) → fails x (0x0606, dVfState) v t)
      ∧ (tenantKnown v tn = true → (getVf v n).st = .unbound → queuesOff v n = true → vfsOf v tn + 1 ≤ (quotaOf v tn).vfsMax →
          kemModulusBad 0x0202 ((x.input.drop 4).take 1184) = false → genReady v = true → 1232 ≤ outRoom x →
          ∀ key w, genDraw v 32 = (key, w) → (getVf t n).st = .quiesced ∧ (getVf t n).tenant = tn
            ∧ (getVf t n).flrBusy = (getVf v n).flrBusy ∧ kfind t.aut.chanKey n = some key ∧ chanCounter t n = 0
            ∧ recorded 0x0903 t
            ∧ (∃ l o, t.out = w.out ++ l ∧ Output.data x.fn x.queue x.desc.tag 0 o ∈ l)
            ∧ Posting { w with
                aut := { w.aut with chanKey := t.aut.chanKey }, peat := { w.peat with chan := t.peat.chan, chanWr := t.peat.chanWr },
                freeCtr := w.freeCtr + 1 } t))
  ∧ performed (rowCmd 0x9013) .tenantUnbindVf (fun x v t =>
      let n := x.desc.select % 1024
      1 ≤ n →
      ((getVf v n).st = .unbound → fails x (0x0606, dVfState) v t)
      ∧ ((getVf v n).st ≠ .unbound → (getVf v n).st ≠ .quiesced → (getVf v n).st ≠ .frozen → queuesOff v n = false →
          fails x (0x0606, dVfState) v t)
      ∧ ((getVf v n).st ≠ .unbound → ((getVf v n).st = .quiesced ∨ (getVf v n).st = .frozen ∨ queuesOff v n = true) → commits x v t
          ∧ getVf t n = { vfReset with
            flrBusy := (getVf v n).flrBusy, flrTick := (getVf v n).flrTick, flrPlain := (getVf v n).flrPlain }
          ∧ kfind t.aut.chanKey n = none ∧ (∀ k, k ≠ n → kfind t.aut.chanKey k = kfind v.aut.chanKey k)
          ∧ streamsOfFn t n = [] ∧ recorded 0x0904 t))
  ∧ performed (rowCmd 0x9014) .tenantQuotaSet (fun x v t =>
      let n := leAt x.input 0 2
      (∀ e, quotaForm x.input = .error e → fails x e v t)
      ∧ (quotaForm x.input = .ok () → tenantKnown v n = false → fails x (0x0606, dTenantUnknown) v t)
      ∧ (quotaForm x.input = .ok () → tenantKnown v n = true → commits x v t
          ∧ kfind t.ten.tenants n = some (quotaParse x.input)
          ∧ (∀ k, k ≠ n → kfind t.ten.tenants k = kfind v.ten.tenants k)
          ∧ Posting { v with ten := { v.ten with tenants := t.ten.tenants } } t))
  ∧ performed (rowCmd 0x9015) .tenantVfSave (fun x v t =>
      let n := x.desc.select % 1024
      1 ≤ n →
      (∀ e, imageKey v x usWrap = .error e → e.1 ≠ stExhausted → fails x e v t)
      ∧ (∀ k, imageKey v x usWrap = .ok k →
          ((getVf v n).st ≠ .quiesced → fails x (0x0606, dVfState) v t)
          ∧ ((getVf v n).st = .quiesced → leAt (imageHeader v n) 32 4 ≤ outRoom x → genReady v = true →
              ∀ nonce w, genDraw v 12 = (nonce, w) →
              ∀ wk box, wk = imgKey k.material (imageHeader v n) → box = gcmCtr (aesEnc wk) nonce (imageBody v n) →
              returned x (imageHeader v n ++ box ++ nonce ++ gcmTag (aesEnc wk) nonce (imageHeader v n) box)
                (meterCharge w k.attr (meterUnits k.attr 0 0 0 1)) t
              ∧ (getVf t n).st = .frozen ∧ (getVf t n).tenant = (getVf v n).tenant ∧ queuesOff t n = true
              ∧ kfind t.aut.chanKey n = none ∧ streamsOfFn t n = [] ∧ recorded 0x0905 t)))
  ∧ performed (rowCmd 0x9016) .tenantVfRestore (fun x v t =>
      let n := x.desc.select % 1024
      let b := x.input
      let h := b.take 64
      1 ≤ n → ∀ k wk body, imageKey v x usUnwrap = .ok k → wk = imgKey k.material h →
      body = gcmCtr (aesEnc wk) ((b.drop (b.length - 28)).take 12) ((b.drop 64).take (b.length - 92)) →
      (imageForm b = false → fails x (0x0101, 0x0225) v t)
      ∧ (imageForm b = true →
          (gcmTag (aesEnc wk) ((b.drop (b.length - 28)).take 12) h ((b.drop 64).take (b.length - 92)) ≠ b.drop (b.length - 16) →
            fails x (stKeyInvalid, dBlobTag) v t)
          ∧ (gcmTag (aesEnc wk) ((b.drop (b.length - 28)).take 12) h ((b.drop 64).take (b.length - 92)) = b.drop (b.length - 16) →
              bodyZeros body (leAt b 6 2) = true → (getVf v n).st = .unbound → queuesOff v n = true → leAt b 8 2 ≠ 0 →
              tenantKnown v (leAt b 8 2) = true → vfsOf v (leAt b 8 2) + 1 ≤ (quotaOf v (leAt b 8 2)).vfsMax →
              streamsOfTenant v (leAt b 8 2) + leAt b 6 2 ≤ (quotaOf v (leAt b 8 2)).streamsMax →
              v.gth.streams.length + leAt b 6 2 ≤ 16384 → v.aut.chanKey.any (fun e => e.2 == body.take 32) = false →
              commits x (meterCharge v k.attr (meterUnits k.attr 0 0 0 1)) t
              ∧ (getVf t n).st = .quiesced ∧ (getVf t n).tenant = leAt b 8 2
              ∧ (getVf t n).perfRead = (leAt b 13 1).testBit 0 ∧ kfind t.aut.chanKey n = some (body.take 32)
              ∧ chanCounter t n = leAt b 24 8 ∧ recorded 0x0906 t)))

/-- R88 (critical), R38, R48, R51, R317, R318, R328, R330, R331, R342, R343, R414, R430 to R436, R468: what the approved
commands of the kiln, the sundial, the park, the life cycle, debug, the tamper monitor and the recorder change. -/
def Obligations.CriticalUnits : Prop :=
  performed (rowCmd 0x6010) .rngRestart (fun x v t =>
    (v.rng.st ≠ .failed → fails x (0x0606, 0x01E1) v t)
    ∧ (v.rng.st = .failed → ∀ w, w = kilnEnable { v with
          rng := { v.rng with restart := some x }, aut := { v.aut with busy := some x } } → 2 ≤ hopefulCount w →
        t = w ∧ t.rng.st = .warming ∧ t.rng.restart = some x ∧ t.aut.busy = some x ∧ t.rng.enabled = v.tick))
  ∧ performed (rowCmd 0x6011) .rngRawEnable (fun x v t => leAt x.input 1 3 = 0 →
      (leAt x.input 0 1 = 1 → (v.rng.st = .raw ∨ v.rng.st = .warming) → fails x (0x0606, 0x01E3) v t)
      ∧ (leAt x.input 0 1 = 1 → (kilnReleasing v = true ∨ v.rng.st = .failed) → kilnAlone v = true → commits x v t
          ∧ t.rng.st = .raw ∧ t.rng.inst = [] ∧ t.rng.blocks = [] ∧ Posting { v with rng := t.rng } t)
      ∧ (leAt x.input 0 1 = 0 → v.rng.st ≠ .raw → fails x (0x0606, 0x01E3) v t)
      ∧ (leAt x.input 0 1 = 0 → v.rng.st = .raw → v.rng.rawReads = [] → 2 ≤ hopefulCount (kilnEnable v) →
          commits x v t ∧ t.rng.st = .warming ∧ t.rng.enabled = v.tick ∧ Posting { v with rng := t.rng } t)
      ∧ (∀ q, leAt x.input 0 1 = 0 → v.rng.st = .raw → v.rng.rawReads = [q] → toHost v q.cmd = true →
          completed q.cmd 0x0606 0x01E0 0 0 [] v t ∧ t.rng.rawReads = []))
  ∧ performed (rowCmd 0x7010) .timePolicy (fun x v t =>
      (604800 < leAt x.input 0 4 → fails x (0x0101, 0) v t)
      ∧ (leAt x.input 0 4 ≤ 604800 → (leAt x.input 0 4 ≠ 0 ∨ v.sdl.state ≠ .holdover) → commits x v t
          ∧ Posting { v with sdl := { v.sdl with limitS := leAt x.input 0 4 } } t)
      ∧ (leAt x.input 0 4 = 0 → v.sdl.state = .holdover → t.sdl.limitS = 0 ∧ t.sdl.state = .untraceable ∧ recorded 0x0201 t
          ∧ commits x v t ∧ Posting { v with sdl := t.sdl } t))
  ∧ performed (rowCmd 0x7011) .timeScheduleAdd (fun x v t =>
      (∀ e, schedCheck v (tenantOf v x.fn) x.input = .error e → fails x e v t)
      ∧ (∀ es, schedCheck v (tenantOf v x.fn) x.input = .ok es → (∀ e ∈ es, e.parkWide = false) → 4 * es.length ≤ outRoom x →
          let given := numberEntries v.prk.address v.sdl.nextSeq es
          returned x (given.flatMap (fun e => leBytes 4 e.seq)) v t ∧ t.sdl.nextSeq = v.sdl.nextSeq + es.length
          ∧ (∀ e ∈ given, ∃ y ∈ t.sdl.sched,
              y.seq = e.seq ∧ y.tick = e.tick ∧ y.action = e.action ∧ y.target = e.target ∧ y.armed = true)
          ∧ (∀ y ∈ v.sdl.sched, (∀ e ∈ given, e.seq ≠ y.seq) → y ∈ t.sdl.sched)))
  ∧ performed (rowCmd 0x7012) .timeScheduleCancel (fun x v t =>
      let seqs := seqsOf x.input
      (∀ e, cancelCheck v (tenantOf v x.fn) seqs = .error e → fails x e v t)
      ∧ (cancelCheck v (tenantOf v x.fn) seqs = .ok () → (∀ y ∈ v.sdl.sched, y.seq ∈ seqs → y.parkWide = false) →
          commits x v t ∧ (∀ y ∈ t.sdl.sched, y ∈ v.sdl.sched ∧ y.seq ∉ seqs)
          ∧ (∀ y ∈ v.sdl.sched, y.seq ∉ seqs → y ∈ t.sdl.sched)))
  ∧ performed (rowCmd 0x8010) .parkJoin (fun x v t =>
      (∀ e, joinCheck v x.input = .error e → fails x e v t)
      ∧ (joinCheck v x.input = .ok () → genReady v = false → feedHeld v 1 = false → fails x (kilnStatus v) v t)
      ∧ (joinCheck v x.input = .ok () → genReady v = true → commits x { v with prk := t.prk } t
          ∧ t.prk.st = .walking ∧ t.prk.parkId = x.input.take 16 ∧ t.prk.rosterDigest = sha3_256 x.input
          ∧ t.prk.roster = (List.range (leAt x.input 16 1)).map (fun i => (x.input.drop (32 + 32 * i)).take 32)
          ∧ (v.prk.headStrap = false → t.prk.addressed = v.prk.addressed)
          ∧ (v.prk.headStrap = true → v.prk.portA.linkUp = true → v.prk.portB.linkUp = true →
              t.prk.addressed = true ∧ t.prk.address = 0 ∧ t.prk.walkSince = some v.tick)
          ∧ recorded 0x0801 t))
  ∧ performed (rowCmd 0x8011) .parkLeave (fun x v t =>
      (v.prk.st = .alone → fails x (0x0606, 0x0200) v t)
      ∧ (v.prk.st ≠ .alone → v.prk.headStrap = true → (∃ k ∈ parkUnits v, isSelf v k = false) → fails x (0x0606, 0x0201) v t)
      ∧ (v.prk.st ≠ .alone → (v.prk.headStrap = false ∨ ∀ k ∈ parkUnits v, isSelf v k = true) →
          commits x { v with prk := t.prk } t
          ∧ t.prk.st = .alone ∧ t.prk.addressed = false ∧ t.prk.roster = [] ∧ t.prk.key = []
          ∧ t.prk.headStrap = v.prk.headStrap ∧ recorded 0x0801 t))
  ∧ performed (rowCmd 0x8012) .parkEvict (fun x v t =>
      let k := leAt x.input 0 1
      let id : TxnId := { unit := v.prk.address, counter := (authParse x.auth).counter }
      let gthKept := { t.gth with pba := v.gth.pba } = v.gth
      leAt x.input 1 1 < 2 → leAt x.input 2 2 = 0 →
      (v.prk.st ≠ .formed → fails x (0x0606, if v.prk.st = .detached ∨ v.prk.st = .resyncing then 0x0203 else 0x0200) v t)
      ∧ (v.prk.st = .formed → (isSelf v k = true ∨ inRoster v k = false) → fails x (0x0606, 0x0206) v t)
      ∧ (v.prk.st = .formed → isSelf v k = false → inRoster v k = true → parkFlag v = false → snapshotOut v = false →
          bitUnits (unitBits (participants v)) ≠ [] →
          t.aut.busy = some x ∧ gthKept
          ∧ ∃ y, findTxn t id = some y ∧ y.cmd = some x ∧ y.change = .evict k ((leAt x.input 1 1).testBit 0)
            ∧ y.members = unitBits (participants v) ∧ y.yes = 0 ∧ y.commitFirst = none ∧ y.deadline = now v + 4096))
  ∧ performed (rowCmd 0x8013) .parkResync (fun x v t =>
      (v.prk.st ≠ .detached → fails x (0x0606, 0x0200) v t)
      ∧ (v.prk.st = .detached → genReady v = false → feedHeld v 1 = false → fails x (kilnStatus v) v t)
      ∧ (v.prk.st = .detached → genReady v = true → t.prk.st = .resyncing ∧ t.aut.busy = some x ∧ recorded 0x0801 t
          ∧ t.prk.resync = some { cmd := x, since := v.tick, server := none, loaded := false }
          ∧ (∀ u, u < parkN v → (getPeer t u).rxSeq = 0) ∧ { t.gth with pba := v.gth.pba } = v.gth))
  ∧ performed (rowCmd 0x8014) .parkKeyAgree (fun x v t =>
      (v.prk.headStrap = false → fails x (0x0606, 0x0201) v t)
      ∧ (v.prk.headStrap = true → v.prk.st ≠ .assembled → v.prk.st ≠ .formed → fails x (0x0606, 0x0200) v t)
      ∧ (v.prk.headStrap = true → (v.prk.st = .assembled ∨ v.prk.st = .formed) → genReady v = true →
          t.aut.busy = some x ∧ { t.gth with pba := v.gth.pba } = v.gth ∧ t.prk.epoch = v.prk.epoch
          ∧ ∃ a, t.prk.agree = some a ∧ a.cmd = x ∧ a.epoch = v.prk.epoch + 1 ∧ a.sent = unitBits (reachableUnits v)
            ∧ a.key = (genDraw v 32).1))
  ∧ performed (rowCmd 0xA010) .lifeTransition (fun x v t =>
      let tgt := leAt x.input 0 1
      (transitionCert v.lcs.state tgt = none → fails x (0x0606, 0x0281) v t)
      ∧ (∀ cert, transitionCert v.lcs.state tgt = some cert → x.desc.inLen = (if cert then 3517 else 16) →
          leAt x.input 1 15 = 0 → v.dbg.isOpen = false → (cert = true → certCheck v (x.input.drop 16) 1 tgt = .ok ()) →
          t = { v with
            freeCtr := v.freeCtr + 1, aut := { v.aut with busy := some x },
            lcs := { v.lcs with
              target := tgt, step := some 1, burnEnd := v.tick + 1 + Sys2Proof.Config.burnTime v.freeCtr % 104 } }))
  ∧ performed (rowCmd 0xA011) .lifeDebugOpen (fun x v t =>
      (v.dbg.isOpen = true → fails x (0x0606, 0x0285) v t)
      ∧ (∀ e, v.dbg.isOpen = false → certCheck v x.input 2 0 = .error e → fails x e v t)
      ∧ (v.dbg.isOpen = false → certCheck v x.input 2 0 = .ok () →
          (certRights x.input &&& rightsPermitted v.lcs.state ≠ certRights x.input → fails x (0x0606, 0x0284) v t)
          ∧ (certRights x.input &&& rightsPermitted v.lcs.state = certRights x.input → v.lcs.state ≠ 3 → commits x v t
              ∧ t.dbg.isOpen = true ∧ t.dbg.rights = certRights x.input ∧ t.dbg.regions = certRegions x.input
              ∧ t.dbg.endTick = (if leAt x.input 28 8 = 0 then now v + leAt x.input 44 4 * 2 ^ 20
                  else min (now v + leAt x.input 44 4 * 2 ^ 20) (leAt x.input 28 8))
              ∧ t.dbg.suspending = v.dbg.suspending ∧ t.dbg.opens = satInc 32 v.dbg.opens ∧ recorded 0x0C03 t
              ∧ Posting { v with dbg := t.dbg, mpu := t.mpu, dgs := t.dgs, lcs := { v.lcs with intStatus := t.lcs.intStatus } } t)
          ∧ (certRights x.input &&& rightsPermitted v.lcs.state = certRights x.input → v.lcs.state = 3 →
              t.dbg.isOpen = true ∧ t.dbg.rights = certRights x.input
              ∧ t.dbg.suspending = (v.dbg.suspending || beyondCounters (certRights x.input))
              ∧ (∀ n j, v.gth.jobs = [(n, j)] → jobKeyed j = true → j.phase = .running → beyondCounters (certRights x.input) = true →
                  ∃ k, getJob t n = some k ∧ k.status = 0x0601 ∧ k.detail = 0x0163))))
  ∧ performed (rowCmd 0xA012) .lifeDebugClose (fun x v t => commits x v t
      ∧ (v.dbg.isOpen = false → Posting v t)
      ∧ (v.dbg.isOpen = true → parkFlag v = false → t.dbg.isOpen = false ∧ t.dbg.rights = 0 ∧ t.dbg.regions = []
          ∧ t.dbg.installed = [] ∧ recorded 0x0C04 t
          ∧ Posting { v with dbg := t.dbg, mpu := t.mpu, dgs := t.dgs, lcs := { v.lcs with intStatus := t.lcs.intStatus } } t))
  ∧ performed (rowCmd 0xA013) .lifeTamperSet (fun x v t =>
      (v.lcs.state = 0 → fails x (0x0606, 0) v t)
      ∧ (v.lcs.state ≠ 0 → tamperForm v x.input = false → fails x (0x0101, 0x0262) v t)
      ∧ (v.lcs.state ≠ 0 → tamperForm v x.input = true → commits x v t ∧ t.tmp.defaults = false
          ∧ (∀ i, i < 16 → kget srcCfgDefault t.tmp.cfg i = tamperCfgAt x.input i)
          ∧ (∀ i, i < 4 → kget winDefault t.tmp.win i = (leAt x.input (4 + 2 * i) 1, leAt x.input (5 + 2 * i) 1))
          ∧ t.tmp.meshEn = leAt x.input 1 1 ∧ t.tmp.throttleDuty = leAt x.input 2 1
          ∧ t.tmp.tempLow = signedByte (leAt x.input 12 1) ∧ t.tmp.tempHigh = signedByte (leAt x.input 13 1)
          ∧ t.tmp.cellTempLow = signedByte (leAt x.input 14 1) ∧ t.tmp.cellTempHigh = signedByte (leAt x.input 15 1)
          ∧ t.tmp.cfgSeq = satInc 32 v.tmp.cfgSeq ∧ t.tmp.intStatus = v.tmp.intStatus ||| 2 ^ 5
          ∧ extended 7 (sha384 x.input) v t ∧ recorded 0x0B02 t ∧ Posting { v with tmp := t.tmp, dgs := t.dgs } t))
  ∧ performed (rowCmd 0xB010) .eventClear (fun x v t => commits x v t ∧ t.evt.history = [] ∧ t.evt.ring.length = 1
      ∧ recorded 0x0001 t ∧ t.evt.oldestSeq = v.evt.nextSeq ∧ t.evt.nextSeq = (v.evt.nextSeq + 1) % 2 ^ 32 ∧ Posting v t)
  ∧ (∀ (c : Cmd) (s0 s : State) (x : Cmd) (u v : State), judgedIn (rowCmd 0xA014 c) s0 s →
      reachesKeeper (rowCmd 0xA014 c) s x u →
      authCheck1 u x (authParse x.auth) = .ok () → u.peat.latch.isSome = true → 2 ≤ u.lcs.state → u.lcs.state ≤ 4 →
      v = { u with aut := { u.aut with check6 := now u } } → answers (.lifeRecommission c) s0 (waits x 2 [] true false v))

/-- R52, R424, R427, R430: a life-cycle transition goes on with the ticks: its marks, its root, and the state in force. -/
def Obligations.TransitionSteps : Prop :=
  (∀ (s : State), s.pending = [] →
    step s = .next { settle (keeperNext (transitionTick (tickBegin s))) with pending := [] })
  ∧ (∀ (s : State), (live s = false ∨ s.lcs.step = none ∨ s.lcs.step = some 6
      ∨ ((s.lcs.step = some 1 ∨ s.lcs.step = some 3 ∨ s.lcs.step = some 5) ∧ s.tick < s.lcs.burnEnd)) → transitionTick s = s)
  ∧ (∀ (s : State), live s = true → s.lcs.burnEnd ≤ s.tick →
    let tgt := s.lcs.target
    let burned := fun (k : Nat) (t : State) => markBurned t.lcs tgt k = true
      ∧ ∀ n, n ≠ 3 * tgt + k → kget (fun _ => 0) t.lcs.fuse n = kget (fun _ => 0) s.lcs.fuse n
    let begins := fun (k : Nat) (t : State) => t.lcs.step = some k ∧ s.tick < t.lcs.burnEnd ∧ t.lcs.burnEnd ≤ s.tick + 104
      ∧ t.lcs.state = s.lcs.state
    (s.lcs.step = some 1 → burned 0 (transitionTick s) ∧ (transitionTick s).lcs.step = some 2
      ∧ transitionTick s = { s with lcs := (transitionTick s).lcs })
    ∧ (s.lcs.step = some 3 → burned 1 (transitionTick s) ∧ begins 5 (transitionTick s)
      ∧ (transitionTick s).peat.roots = (if tgt = 5 then [] else if s.lcs.state = 0 then s.peat.roots
          else kdel s.peat.roots (s.lcs.state - 1)))
    ∧ (s.lcs.step = some 5 → burned 2 (transitionTick s) ∧ (transitionTick s).lcs.state = tgt
      ∧ (transitionTick s).lcs.step = some 6 ∧ (transitionTick s).lcs.history = s.lcs.history ||| 2 ^ tgt
      ∧ (transitionTick s).lcs.doneTick = s.tick ∧ (transitionTick s).sdl.sched = [] ∧ (transitionTick s).sdl.limitS = 3600
      ∧ (tgt = 2 → (transitionTick s).tmp.defaults = true ∧ (transitionTick s).tmp.meshEn = 15)
      ∧ (transitionTick s).lcs.intStatus.testBit 0 = true
      ∧ (∀ c, s.aut.busy = some c → c.desc.opcode = 0xA010 → toHost s c = true → completed c 0 0 0 0 [] s (transitionTick s)
          ∧ (transitionTick s).aut.busy = none ∧ recorded 0x0C01 (transitionTick s))
      ∧ (s.aut.busy = none → recorded 0x0C02 (transitionTick s) ∧ (transitionTick s).lcs.intStatus.testBit 1 = true)))
  ∧ (∀ (s : State), live s = true → s.lcs.step = some 2 →
    let tgt := s.lcs.target
    let begun := (transitionTick s).lcs.step = some 3 ∧ s.tick < (transitionTick s).lcs.burnEnd
      ∧ (transitionTick s).lcs.burnEnd ≤ s.tick + 104
    (tgt = 5 → begun ∧ (transitionTick s).lcs.secret = false ∧ (transitionTick s).peat = s.peat)
    ∧ (tgt ≠ 5 → s.aut.busy.isSome = true → genReady s = false → transitionTick s = s)
    ∧ (tgt ≠ 5 → s.aut.busy.isSome = true → genReady s = true → begun
      ∧ kget (fun _ => []) (transitionTick s).peat.roots (tgt - 1) = (genDraw s 64).1
      ∧ (transitionTick s).lcs.secret = s.lcs.secret)
    ∧ (tgt ≠ 5 → s.aut.busy = none → s.peat.latch.isSome = true → begun ∧ (transitionTick s).peat = s.peat))

/-- R98, R101, R103, R112, R114, R417: what fails a critical command before its change, and what the approval that reaches
the quorum at the console does. -/
def Obligations.AuthorityDecides : Prop :=
  (∀ (i : Instr) (c : Cmd) (s0 s : State) (x : Cmd) (u : State), cmdRow i = some c → judgedIn c s0 s →
    reachesKeeper c s x u →
    let a := authParse x.auth
    (∀ e, authCheck1 u x a = .error e → answers i s0 (fun t => completed x e.1 e.2 0 0 [] u t ∧ recorded 0x0301 t ∧ Posting u t))
    ∧ (∀ e, authForm u x.desc.opcode = .normal → authCheck1 u x a = .ok () → authCheck23 u x a = .error e →
        answers i s0 (fun t => completed x e.1 e.2 0 0 [] u t ∧ recorded 0x0301 t
          ∧ t.aut.authReject = satInc 32 u.aut.authReject ∧ chanCounter t (channelIx a) = chanCounter u (channelIx a)))
    ∧ (∀ e, authForm u x.desc.opcode = .normal → authCheck1 u x a = .ok () → authCheck23 u x a = .ok () →
        authCheck4 u a = .error e →
        answers i s0 (fun t => completed x e.1 e.2 0 0 [] u t ∧ recorded 0x0302 t
          ∧ chanCounter t (channelIx a) = chanCounter u (channelIx a)))
    ∧ (authForm u x.desc.opcode = .normal → authCheck1 u x a = .ok () → authCheck23 u x a = .ok () → authCheck4 u a = .ok () →
        (∃ k, k < a.tokens ∧ tokenForm (tokenAt x k) = false) →
        answers i s0 (fun t => completed x 0x0101 0x0106 0 0 [] u t ∧ recorded 0x0304 t
          ∧ chanCounter t (channelIx a) = a.counter))
    ∧ (∀ v l, checked x u v l → l.length < required v x → x.desc.opcode ≠ 0x0016 → x.desc.opcode ≠ 0x1015 →
        (a.mode = 0 → answers i s0 (fun t => completed x 0x0303 (required v x * 256 + min l.length 255) 0 0 [] u t
          ∧ recorded 0x0303 t ∧ chanCounter t (channelIx a) = a.counter ∧ Posting v t))
        ∧ (a.mode = 1 → answers i s0 (waits x (required v x) l false false v))))
  ∧ (∀ (s : State) (slot : Fin 2) (data pk : Bytes) (ix : Nat) (w : Wait),
    live s = true → s.aut.ceremony = none → s.aut.wait = some w → cardReady (getCard s slot.val) = true →
    noneQueued s = true →
    let card := getCard s slot.val
    (∀ k, card.step = .approve → card.ident = some (ix, pk) → w.presence = false → w.cmd.desc.opcode ≠ 0x0016 →
      kfind s.aut.custodians ix = some k → approvalSigned k (statement w ix) (data.take 96) ((data.drop 96).take 3309) = true →
      approvalCounts s w.cmd ix = true → w.required ≤ (addOnce w.counted ix).length →
      (w.cmd.desc.opcode ≠ 0x1015 → answers (.cardResponse slot true data) s (fun t => ∃ v, v = { s with aut := v.aut }
        ∧ v.aut.wait = none ∧ t = { keeperNext (perform w.cmd v) with pending := s.pending }))
      ∧ (∀ a key, w.cmd.desc.opcode = 0x1015 → w.cmd.desc.select.testBit 8 = true → toHost s w.cmd = true →
          hostAttr w.cmd.input (tenantOf s w.cmd.fn) 0 = .ok a → componentLen (leAt w.cmd.input 2 2) ≠ 0 →
          (∀ b ∈ w.comps, b.length = componentLen (leAt w.cmd.input 2 2)) →
          (card.comp = [] ∨ card.comp.length = componentLen (leAt w.cmd.input 2 2)) →
          combine (leAt w.cmd.input 2 2) (if card.comp = [] then w.comps else w.comps ++ [card.comp]) = some key →
          answers (.cardResponse slot true data) s (fun t => t.aut.wait = none
            ∧ kfind t.aut.chanKey 0 = some key ∧ chanCounter t 0 = 0
            ∧ conNext s 0 0x05 (leBytes 1 0 ++ leBytes 3 (kcvOf (leAt w.cmd.input 2 2) key)) ∈ t.out
            ∧ returned w.cmd ([0, 0, 0, 0] ++ leBytes 3 (kcvOf (leAt w.cmd.input 2 2) key) ++ [0]) s t)))
    ∧ (∀ l p0, card.step = .approve → card.ident = some (ix, pk) → w.presence = true → w.required = 2 →
      w.cmd.desc.opcode = 0xA014 → toHost s w.cmd = true →
      (w.present = [] → (getCard s (1 - slot.val)).present = false → answers (.cardResponse slot true data) s (fun t =>
        t.aut.wait = some { w with present := [pk] } ∧ t.peat = s.peat))
      ∧ (w.present = [p0] → s.peat.latch = some l → quenched s = true → tamperActive s = false → s.peat.recom < 64 →
          genReady s = true → answers (.cardResponse slot true data) s (fun t => t.aut.wait = none ∧ t.peat.latch = none
            ∧ t.peat.recom = s.peat.recom + 1 ∧ t.peat.quenchOutLow = false ∧ t.aut.custodians = [] ∧ t.aut.chanKey = []
            ∧ t.aut.policy = policyDefault
            ∧ kget (fun _ => []) t.peat.roots (s.lcs.state - 1) = (genDraw s 64).1 ∧ recorded 0x0C05 t
            ∧ commits w.cmd s t)))
    ∧ (∀ key, card.step = .install → w.comps = [key] → toHost s w.cmd = true →
      answers (.cardResponse slot true data) s (fun t => t.aut.wait = none
        ∧ kfind t.aut.custodians (leAt w.cmd.input 0 1) = some (custodianParse w.cmd.input)
        ∧ kfind t.aut.chanKey (1024 + leAt w.cmd.input 0 1) = some key ∧ chanCounter t (1024 + leAt w.cmd.input 0 1) = 0
        ∧ extended 5 (sha384 w.cmd.input) s t ∧ recorded 0x0306 t ∧ commits w.cmd s t)))

/-! The gate, the queue, the machine as a whole -/

/-- R18, R19, R26, R56, R84, R88, R92, R255, R285, R445, R451: what holds a command before its checks, and what refuses it. -/
def Obligations.CommandsAtTheGate : Prop :=
  (∀ (i : Instr) (c : Cmd) (s : State), cmdRow i = some c → mayFetch s c.fn = false → becomes i s s)
  ∧ (∀ (i : Instr) (c : Cmd) (s0 s : State), cmdRow i = some c → judgedIn c s0 s →
    (s.gth.held.any (fun h => h.cmd.fn == c.fn && h.cmd.queue == c.queue) = true →
        answers i s0 (holds c .order s))
    ∧ (s.gth.held.any (fun h => h.cmd.fn == c.fn && h.cmd.queue == c.queue) = false → ideBlocked s = true →
        answers i s0 (holds c .ide s))
    ∧ (atGate c s = true → fenced c s = true → answers i s0 (holds c .fence s))
    ∧ (atGate c s = true → fenced c s = false → horizonPaused s = true → answers i s0 (holds c .horizon s))
    ∧ (atGate c s = true → fenced c s = false → horizonPaused s = false → poolCmd c = true → poolPaused s = true →
        answers i s0 (holds c .poolHorizon s))
    ∧ (atGate c s = true → fenced c s = false → horizonPaused s = false → isCritical c.desc.opcode = true → critFull s = true →
        answers i s0 (holds c .fence s))
    ∧ (∀ e, gateOpen c s = true → check1 s (seen c s) = .error e → answers i s0 (refused (seen c s) e s))
    ∧ (∀ e, gateOpen c s = true → check1 s (seen c s) = .ok () → check2 s (seen c s) = .error e →
        answers i s0 (refused (seen c s) e s))
    ∧ (gateOpen c s = true → s.boot.phase = .halted → answers i s0 (refused (seen c s) (0x0606, 0x02A1) s))
    ∧ (gateOpen c s = true → s.boot.phase = .shut →
        (c.fn ≠ 0 ∨ c.desc.opcode ∉ [0x0001, 0x0003, 0x0012, 0xA001, 0xB001, 0xC001]) →
        answers i s0 (refused (seen c s) (0x0606, 0x02A2) s))
    ∧ (gateOpen c s = true → s.boot.phase ≠ .halted → s.boot.phase ≠ .shut → s.boot.phase ≠ .service →
        answers i s0 (refused (seen c s) (0x0606, 0x02A0) s))
    ∧ (∀ r, gateOpen c s = true → stateBad s (seen c s) = none → opRow c.desc.opcode = some r → r.pfOnly = true →
        isVf c.fn = true → answers i s0 (refused (seen c s) (0x0101, 0x0021) s))
    ∧ (gateOpen c s = true → check1 s (seen c s) = .ok () → check2 s (seen c s) = .ok () → modeLimit s (seen c s) = true →
        answers i s0 (fun t => completed (seen c s) 0x0102 0x01A4 0 0 [] s t ∧ t.gth.jobs = s.gth.jobs
          ∧ findStream t c.fn (streamNo c) = none))
    ∧ (ready c s = true → c.dma = .payloadFails → c.desc.inLen ≠ 0 →
        (isCritical c.desc.opcode = true ∨ (opRel c.desc.opcode = some .immediate)) →
        answers i s0 (fun t => completed (seen c s) 0x0106 0 0 0 [] s t ∧ recorded 0x0101 t ∧ Answering s t
          ∧ t.aut.mailbox = s.aut.mailbox)))
  ∧ (∀ (c : Cmd) (s : State), (opRow (c.desc.opcode % 65536)).isSome = true → becomes (.unknownOpcode c) s s)
  ∧ (∀ (c x : Cmd) (s0 s : State), opRow (c.desc.opcode % 65536) = none → x = rowCmd (c.desc.opcode % 65536) c →
    (mayFetch s0 x.fn = false → becomes (.unknownOpcode c) s0 s0)
    ∧ (judgedIn x s0 s → gateOpen x s = true → stateBad s (seen x s) = none → answers (.unknownOpcode c) s0 (refused (seen x s) (0x0101, 0x0020) s)))

/-- R25: a critical command whose payload is larger than 2 MiB fails with LENGTH_INVALID, for every critical row. -/
def Obligations.CriticalPayloadLimit : Prop :=
  ∀ (i : Instr) (c : Cmd) (s0 s : State), cmdRow i = some c → isCritical c.desc.opcode = true → judgedIn c s0 s →
    gateOpen c s = true → check1 s (seen c s) = .ok () →
    (2 ^ 21 < c.desc.inLen → answers i s0 (refused (seen c s) (0x0102, 0) s))
    ∧ (∀ n, c.desc.inLen + c.desc.auxLen ≤ 2 ^ 21 → check2 s (seen c s) = .error (0x0102, n) →
        inLenOk (seen c s) = false ∨ (c.desc.opcode = 0x1011 ∧ c.desc.auxLen ≠ 64) ∨ c.desc.outLen = 2 ^ 32 - 1)

/-- R24: once check 4 has stored the counter, whatever follows, the stored counter is the block's and the same block fails
check 4 from then on; the failures of steps 5 and 6 leave it stored. -/
def Obligations.CounterIsConsumed : Prop :=
  (∀ (x : Cmd) (u v : State) (l : List Nat), checked x u v l →
    chanCounter v (channelIx (authParse x.auth)) = (authParse x.auth).counter
    ∧ authCheck4 v (authParse x.auth) = .error (0x0302, 0x0103))
  ∧ (∀ (i : Instr) (c : Cmd) (s0 s : State) (x : Cmd) (u : State), cmdRow i = some c → judgedIn c s0 s →
    reachesKeeper c s x u →
    let a := authParse x.auth
    authForm u x.desc.opcode = .normal → authCheck1 u x a = .ok () → authCheck23 u x a = .ok () → authCheck4 u a = .ok () →
    ((∃ k, k < a.tokens ∧ tokenForm (tokenAt x k) = false)
      ∨ (∃ v l, checked x u v l ∧ l.length < required v x ∧ a.mode = 0 ∧ x.desc.opcode ≠ 0x0016 ∧ x.desc.opcode ≠ 0x1015)) →
    answers i s0 (fun t => authCheck4 t a = .error (0x0302, 0x0103)
      ∧ ∀ b, channelIx b = channelIx a → b.counter ≤ a.counter → authCheck4 t b = .error (0x0302, 0x0103)))

/-- R71: an unbound VF may enable its queues, and every command that it submits in service completes at once with DENIED,
VF_UNBOUND. -/
def Obligations.UnboundVfIsDenied : Prop :=
  (∀ (s : State) (fn : Fin 1024) (q : Fin 16) (value : BitVec 32),
    let p := getQp s (qpIx fn.val q.val)
    let v := (value ||| 0x10000).toNat
    fn.val ≠ 0 → (getVf s fn.val).st = .unbound → q.val < 4 → hostReach s = true → p.enable = false → v % 65536 ≠ 0 →
    p.sqBase % 4096 = 0 → p.cqBase % 4096 = 0 → v / 2 ^ 17 % 64 < 4 →
    answers (.qpEnable fn q value) s (fun t => (getQp t (qpIx fn.val q.val)).enable = true))
  ∧ (∀ (i : Instr) (c : Cmd) (s0 s : State), (cmdRow i = some c ∨ ∃ d, i = .unknownOpcode d
        ∧ opRow (d.desc.opcode % 65536) = none ∧ c = rowCmd (d.desc.opcode % 65536) d) →
    isVf c.fn = true → (getVf s c.fn).st = .unbound → s.boot.phase = .service → s.lcs.state ≠ 5 → quenched s = false →
    judgedIn c s0 s → gateOpen c s = true → answers i s0 (refused (seen c s) (0x0606, 0x0030) s))

/-- R456, R462, R465, R466: a counter wraps and sets WRAP (counter 546, MSIX_SENT, moves with each message that leaves); an event merges into an equal newest record, or is written, or is
dropped and counted, with the dropped count written before the next record. -/
def Obligations.RecordsAndCounters : Prop :=
  (∀ (s : State) (i n : Nat), 0 < n → i ≠ 546 →
    pmcGet (pmcAdd s i n) i = (pmcGet s i + n) % 2 ^ 48 ∧ (∀ k, k ≠ i → k ≠ 546 → pmcGet (pmcAdd s i n) k = pmcGet s k)
    ∧ (pmcAdd s i n).pmc.intStatus = (if pmcGet s i + n < 2 ^ 48 then s.pmc.intStatus else s.pmc.intStatus ||| 1)
    ∧ Quiet s (pmcAdd s i n))
  ∧ (∀ (s : State) (ty src sev : Nat) (tn : Option Nat) (pay : Bytes) (l : List EvtRec) (r : EvtRec),
    s.evt.ring = l ++ [r] →
    (mergesInto r ty src sev tn pay = true →
      (record s ty src sev tn pay).evt.ring = l ++ [{ r with
        repeats := min (r.repeats + 1) (max r.repeats 0xFFFF), lastHours := s.peat.hours }]
      ∧ (record s ty src sev tn pay).evt.merged = satInc 32 s.evt.merged
      ∧ (record s ty src sev tn pay).evt.nextSeq = s.evt.nextSeq)
    ∧ (mergesInto r ty src sev tn pay = false → 4096 ≤ unflushed s →
      (record s ty src sev tn pay).evt.ring = s.evt.ring
      ∧ (record s ty src sev tn pay).evt.dropPending = s.evt.dropPending + 1
      ∧ (record s ty src sev tn pay).evt.dropped = satInc 32 s.evt.dropped)
    ∧ (mergesInto r ty src sev tn pay = false → unflushed s < 4096 → s.evt.dropPending = 0 → l.length < 4095 →
      ∃ e, (record s ty src sev tn pay).evt.ring = l ++ [r, e] ∧ written s ty src sev tn pay s.evt.nextSeq e
        ∧ (record s ty src sev tn pay).evt.nextSeq = (s.evt.nextSeq + 1) % 2 ^ 32)
    ∧ (mergesInto r ty src sev tn pay = false → unflushed s < 4096 → s.evt.dropPending ≠ 0 → l.length < 4094 →
      ∃ d e, (record s ty src sev tn pay).evt.ring = l ++ [r, d, e] ∧ (record s ty src sev tn pay).evt.dropPending = 0
        ∧ d.type = 0x0002 ∧ d.payload = payState 0 0 0 s.evt.dropPending 0 ∧ d.repeats = 1 ∧ d.seq = s.evt.nextSeq
        ∧ written s ty src sev tn pay ((s.evt.nextSeq + 1) % 2 ^ 32) e))
  ∧ (∀ (s : State) (ty src sev : Nat) (tn : Option Nat) (pay : Bytes), s.evt.ring = [] →
      ∃ e, (record s ty src sev tn pay).evt.ring = [e] ∧ written s ty src sev tn pay s.evt.nextSeq e)
  ∧ (∀ (s : State) (ty src sev : Nat) (tn : Option Nat) (pay : Bytes), Quiet s (record s ty src sev tn pay))

/-- The block takes the command at the front of its queue and runs it on the state with the rest of the queue; with none
waiting one tick passes (DESIGN CHOICE, log 2); no word spells a command, since the table gives no bits. -/
def Obligations.StepTakesTheFront : Prop :=
  (∀ (i : Instr) (l : List Instr) (s : State), s.pending = i :: l → step s = exec i { s with pending := l })
  ∧ (∀ (s : State), s.pending = [] → ∃ t, step s = .next t ∧ t.pending = []
      ∧ (nothingDue s = true →
          Quiet { s with tick := s.tick + 1, sdl := if s.boot.pwrGood then gridTick s.sdl else s.sdl, pwr := t.pwr } t))
  ∧ (∀ (s : State) (n w : Nat), decodeTableWord n w = none ∧ s.withFetchWord n w = s)

/-- The values the spec gives for reset (R11, R23, R35, R53, R72, R118, R150, R311, R327, R350, R352, R398, R420, R455,
R456, R459, R499). -/
def Obligations.ResetValues : Prop :=
  let s := State.reset
  s.pending = [] ∧ s.boot.phase = .rom ∧ s.boot.resetCause = 0 ∧ s.boot.resetCount = 0 ∧ s.boot.fail = 0
  ∧ s.sdl.state = .untraceable ∧ s.sdl.limitS = 3600 ∧ s.sdl.refEn = true ∧ s.sdl.todTxEn = false ∧ s.sdl.sched = []
  ∧ s.gth.fetchEn = true ∧ s.gth.ideRequired = false
  ∧ (∀ k, (getQp s k).weight = 1 ∧ (getQp s k).enable = false ∧ (getQp s k).sqHead = 0 ∧ (getQp s k).cqTail = 0)
  ∧ s.kst.objs = [] ∧ s.kst.scrubEn = true ∧ s.kst.scrubPeriod = 2 ∧ s.kst.lowMark = 0x800 ∧ (∀ b, unitGen s b = 1)
  ∧ s.aut.policy = { consoleWait := 60, tokenSpan := 86400, entries := [] } ∧ s.aut.custodians = []
  ∧ (∀ ch, kfind s.aut.chanKey ch = none ∧ chanCounter s ch = 0)
  ∧ (∀ e, (getEng s e).st = .idle ∧ (getEng s e).faultCount = 0) ∧ (∀ b, (getBne s b).st = .idle)
  ∧ (∀ m, (getMeas s m).value = List.replicate 48 0 ∧ (getMeas s m).count = 0)
  ∧ s.rng.st = .off ∧ s.prk.st = .alone ∧ s.prk.address = 0x3F
  ∧ (∀ n, (getVf s n).st = .unbound) ∧ (∀ n, tenantKnown s n = (n == 0))
  ∧ s.pwr.capW = 110 ∧ s.pwr.duty = 64 ∧ s.pwr.hold = 0 ∧ s.pwr.holdTimeout = 0x0400
  ∧ s.tmp.defaults = true ∧ s.tmp.throttleDuty = 32 ∧ s.dbg.isOpen = false ∧ s.dbg.rights = 0 ∧ s.tap.data = 0x1025655B
  ∧ s.evt.ring = [] ∧ s.evt.history = [] ∧ (∀ i, pmcGet s i = 0) ∧ (∀ i, winOf s i = 20)

/-- Whatever command comes and in whatever state, it takes effect: a next state, no fault, no refusal, and the commands that
wait stay as they are. -/
def Obligations.EveryCommandGoesOn : Prop := ∀ (i : Instr) (s : State), ∃ t, exec i s = .next t ∧ t.pending = s.pending

/-- The queue stays in order: from every state whose waiting commands are well formed, a step takes exactly the front one,
and those behind stay, well formed, in the order of arrival. -/
def Obligations.QueueStaysInOrder : Prop :=
  ∀ (s : State), queueWf s = true → ∃ t, step s = .next t ∧ t.pending = s.pending.tail ∧ queueWf t = true

/-- At reset no command waits. -/
def Obligations.QueueEmptyAtReset : Prop := queueWf State.reset = true ∧ State.reset.pending = []

/-- As many steps as commands wait run them all, in order, each on the state the ones before it left, and empty the
queue. -/
def Obligations.QueueDrains : Prop :=
  ∀ (s : State), ∃ t, stepsTo s.pending.length s = some t ∧ t.pending = [] ∧ takesAll s.pending s t
end

