-- ==== Sys2Proof/Laws/Table.lean ====
section
/-! SUPPORT. Sparse tables: a write reads back, leaves every other index alone, and keeps the canonical form. No law but
the last group assumes that a table is sorted. -/

namespace Sys2Proof.Machine

variable {α : Type}

theorem kget_kins (d : Nat → α) (m : KMap α) (k i : Nat) (v : α) :
    kget d (kins m k v) i = if i = k then v else kget d m i := by
  induction m with
  | nil => simp [kins, kget]
  | cons p r ih =>
    obtain ⟨j, w⟩ := p
    simp only [kins]
    split
    · subst_vars; by_cases h : i = j <;> simp [kget, h]
    · split
      · simp [kget]
      · by_cases h : i = j <;> by_cases h' : i = k <;> simp_all [kget]

theorem kget_kdel (d : Nat → α) (m : KMap α) (k i : Nat) :
    kget d (kdel m k) i = if i = k then d i else kget d m i := by
  induction m with
  | nil => simp [kdel, kget]
  | cons p r ih =>
    obtain ⟨j, w⟩ := p
    simp only [kdel]
    split
    · subst_vars; rw [ih]; by_cases h : i = j <;> simp [kget, h]
    · by_cases h : i = j <;> by_cases h' : i = k <;> simp_all [kget]

/-- A write reads back, and every other index reads as before. -/
theorem kget_kset [DecidableEq α] (d : Nat → α) (m : KMap α) (k i : Nat) (v : α) :
    kget d (kset d m k v) i = if i = k then v else kget d m i := by
  unfold kset
  split
  · rename_i h; rw [kget_kdel]; split <;> simp_all
  · exact kget_kins d m k i v

@[simp] theorem kget_kset_self [DecidableEq α] (d : Nat → α) (m : KMap α) (k : Nat) (v : α) :
    kget d (kset d m k v) k = v := by simp [kget_kset]

theorem kget_kset_ne [DecidableEq α] (d : Nat → α) (m : KMap α) {k i : Nat} (v : α) (h : i ≠ k) :
    kget d (kset d m k v) i = kget d m i := by simp [kget_kset, h]

theorem kfind_kins (m : KMap α) (k i : Nat) (v : α) :
    kfind (kins m k v) i = if i = k then some v else kfind m i := by
  induction m with
  | nil => simp [kins, kfind]
  | cons p r ih =>
    obtain ⟨j, w⟩ := p
    simp only [kins]
    split
    · subst_vars; by_cases h : i = j <;> simp [kfind, h]
    · split
      · simp [kfind]
      · by_cases h : i = j <;> by_cases h' : i = k <;> simp_all [kfind]

theorem kfind_kdel (m : KMap α) (k i : Nat) :
    kfind (kdel m k) i = if i = k then none else kfind m i := by
  induction m with
  | nil => simp [kdel, kfind]
  | cons p r ih =>
    obtain ⟨j, w⟩ := p
    simp only [kdel]
    split
    · subst_vars; rw [ih]; by_cases h : i = j <;> simp [kfind, h]
    · by_cases h : i = j <;> by_cases h' : i = k <;> simp_all [kfind]

/-! The canonical form -/

theorem ksorted_mono (m : KMap α) {lo lo' : Nat} (h : lo ≤ lo') (s : ksorted m lo' = true) : ksorted m lo = true := by
  cases m with
  | nil => rfl
  | cons p r => simp only [ksorted, Bool.and_eq_true, decide_eq_true_eq] at *; exact ⟨by omega, s.2⟩

theorem ksorted_kins (m : KMap α) (k lo : Nat) (v : α) (s : ksorted m lo = true) (h : lo ≤ k) :
    ksorted (kins m k v) lo = true := by
  induction m generalizing lo with
  | nil => simp [kins, ksorted, h]
  | cons p r ih =>
    obtain ⟨j, w⟩ := p
    simp only [ksorted, Bool.and_eq_true, decide_eq_true_eq] at s
    simp only [kins]
    split
    · subst_vars; simp [ksorted, s.2, h]
    · split
      · rename_i h1 h2; simp [ksorted, h, s.2]; omega
      · rename_i h1 h2; simp [ksorted, s.1]; exact ih _ s.2 (by omega)

theorem ksorted_kdel (m : KMap α) (k lo : Nat) (s : ksorted m lo = true) : ksorted (kdel m k) lo = true := by
  induction m generalizing lo with
  | nil => rfl
  | cons p r ih =>
    obtain ⟨j, w⟩ := p
    simp only [ksorted, Bool.and_eq_true, decide_eq_true_eq] at s
    simp only [kdel]
    split
    · exact ksorted_mono _ (by omega) (ih _ s.2)
    · simp [ksorted, s.1, ih _ s.2]

theorem mem_kins (m : KMap α) (k : Nat) (v : α) (p : Nat × α) (h : p ∈ kins m k v) : p = (k, v) ∨ p ∈ m := by
  induction m with
  | nil => simpa [kins] using h
  | cons q r ih =>
    obtain ⟨j, w⟩ := q
    simp only [kins] at h
    split at h
    · rcases List.mem_cons.mp h with h | h <;> simp [h]
    · split at h
      · rcases List.mem_cons.mp h with h | h <;> simp [h]
      · rcases List.mem_cons.mp h with h | h
        · simp [h]
        · rcases ih h with h | h <;> simp [h]

theorem mem_kdel (m : KMap α) (k : Nat) (p : Nat × α) (h : p ∈ kdel m k) : p ∈ m := by
  induction m with
  | nil => simp [kdel] at h
  | cons q r ih =>
    obtain ⟨j, w⟩ := q
    simp only [kdel] at h
    split at h
    · exact List.mem_cons_of_mem _ (ih h)
    · rcases List.mem_cons.mp h with h | h
      · simp [h]
      · exact List.mem_cons_of_mem _ (ih h)

/-- Every write keeps the canonical form: sorted, no repeats, no entry equal to what an unlisted index reads as. -/
theorem kwf_kset [DecidableEq α] (d : Nat → α) (m : KMap α) (k : Nat) (v : α) (h : kwf d m = true) :
    kwf d (kset d m k v) = true := by
  simp only [kwf, Bool.and_eq_true, List.all_eq_true, decide_eq_true_eq] at *
  unfold kset
  split
  · exact ⟨ksorted_kdel m k 0 h.1, fun p hp => h.2 p (mem_kdel m k p hp)⟩
  · refine ⟨ksorted_kins m k 0 v h.1 (Nat.zero_le _), fun p hp => ?_⟩
    rcases mem_kins m k v p hp with rfl | hp
    · assumption
    · exact h.2 p hp

end Sys2Proof.Machine
end

