-- ==== Sys2Proof/Laws/Ops.lean ====
section
/-! SUPPORT. What each shared operation may change. Engines, pavilions, queue pairs and counters read back what was
written. -/

namespace Sys2Proof.Machine

@[simp] theorem getEng_setEng_self (s : State) (e : Nat) (g : Eng) : getEng (setEng s e g) e = g := by
  simp [getEng, setEng]

theorem getEng_setEng_ne (s : State) {e i : Nat} (g : Eng) (h : i ≠ e) : getEng (setEng s e g) i = getEng s i := by
  simp [getEng, setEng, kget_kset, h]

@[simp] theorem getPav_setPav_self (s : State) (p : Nat) (v : Pav) : getPav (setPav s p v) p = v := by
  simp [getPav, setPav]

theorem getPav_setPav_ne (s : State) {p i : Nat} (v : Pav) (h : i ≠ p) : getPav (setPav s p v) i = getPav s i := by
  simp [getPav, setPav, kget_kset, h]

@[simp] theorem getQp_setQp_self (s : State) (k : Nat) (q : QPair) : getQp (setQp s k q) k = q := by
  simp [getQp, setQp]

theorem getQp_setQp_ne (s : State) {k i : Nat} (q : QPair) (h : i ≠ k) : getQp (setQp s k q) i = getQp s i := by
  simp [getQp, setQp, kget_kset, h]

/-! The two relations -/

theorem Quiet.refl (s : State) : Quiet s s := rfl

theorem Quiet.trans {s t u : State} (h : Quiet s t) (k : Quiet t u) : Quiet s u := by
  unfold Quiet at *; rw [k, h]

theorem Answering.refl (s : State) : Answering s s := rfl

theorem Answering.trans {s t u : State} (h : Answering s t) (k : Answering t u) : Answering s u := by
  unfold Answering at *; rw [k, h]

theorem Quiet.answering {s t : State} (h : Quiet s t) : Answering s t := by
  unfold Quiet Answering at *; rw [h]

/-! Interrupts, counters, records -/

/-- A message sent, or kept pending: the output, the counters and the pending bits alone change. -/
theorem sendMsix_msg (s : State) (fn v : Nat) : sendMsix s fn v =
    { s with gth := { s.gth with pba := (sendMsix s fn v).gth.pba }, pmc := (sendMsix s fn v).pmc, out := (sendMsix s fn v).out } := by
  unfold sendMsix; split
  · rfl
  · split <;> rfl

theorem sendMsix_quiet (s : State) (fn v : Nat) : Quiet s (sendMsix s fn v) := by
  unfold Quiet sendMsix; split
  · rfl
  · split <;> rfl

/-- No counter moves but MSIX_SENT (R458). -/
theorem pmcGet_sendMsix (s : State) (fn v j : Nat) (h : j ≠ 546) : pmcGet (sendMsix s fn v) j = pmcGet s j := by
  unfold sendMsix; split
  · simp [pmcGet, countMsix, emit, kget_kset, h]
  · split <;> rfl

theorem vectorFor_msg (s : State) (a b v : Nat) : vectorFor s a b v =
    { s with gth := { s.gth with pba := (vectorFor s a b v).gth.pba }, pmc := (vectorFor s a b v).pmc, out := (vectorFor s a b v).out } := by
  unfold vectorFor; split
  · rfl
  · exact sendMsix_msg _ _ _

theorem vectorFor_quiet (s : State) (a b v : Nat) : Quiet s (vectorFor s a b v) := by
  unfold vectorFor; split
  · rfl
  · exact sendMsix_quiet _ _ _

theorem evtInt_quiet (s : State) (b : Nat) : Quiet s (evtInt s b) :=
  .trans (t := { s with evt := { s.evt with intStatus := s.evt.intStatus ||| 2 ^ b } }) rfl (vectorFor_quiet _ _ _ _)

theorem pmcInt_quiet (s : State) (b : Nat) : Quiet s (pmcInt s b) :=
  .trans (t := { s with pmc := { s.pmc with intStatus := s.pmc.intStatus ||| 2 ^ b } }) rfl (vectorFor_quiet _ _ _ _)

theorem pmcAdd_quiet (s : State) (i n : Nat) : Quiet s (pmcAdd s i n) := by
  unfold pmcAdd
  dsimp only
  split
  · rfl
  · split
    · rfl
    · exact .trans (t := { s with pmc := { s.pmc with
        count := kset (fun _ => 0) s.pmc.count i ((pmcGet s i + n) % 2 ^ 48) } }) rfl (pmcInt_quiet _ 0)

theorem pmcDev_quiet (s : State) (d n : Nat) : Quiet s (pmcDev s d n) := pmcAdd_quiet s _ n
theorem pmcPav_quiet (s : State) (p j n : Nat) : Quiet s (pmcPav s p j n) := pmcAdd_quiet s _ n

/-- A counter moves modulo 2^48; every other counter but MSIX_SENT stays. -/
theorem pmcGet_pmcAdd (s : State) (i n j : Nat) (hj : j ≠ 546) (hn : n ≠ 0) :
    pmcGet (pmcAdd s i n) j = if j = i then (pmcGet s i + n) % 2 ^ 48 else pmcGet s j := by
  unfold pmcAdd
  rw [if_neg hn]
  dsimp only
  split
  · simp [pmcGet, kget_kset]
  · unfold pmcInt vectorFor
    dsimp only
    split
    · simp [pmcGet, kget_kset]
    · rw [pmcGet_sendMsix _ _ _ _ hj]; simp [pmcGet, kget_kset]

theorem newRecordAt_quiet (s : State) (ty src sev : Nat) (tn : Option Nat) (pay : Bytes) (gr hrs : Nat) (cl : Bool) :
    Quiet s (newRecordAt s ty src sev tn pay gr hrs cl) := by
  have key : ∀ e : Evt, Quiet s (let s2 := evtInt (pmcDev { s with evt := e } 203 1) 0
      if sev = sevFault ∨ sev = sevAlarm then evtInt s2 1 else s2) := by
    intro e
    have h : Quiet s (evtInt (pmcDev { s with evt := e } 203 1) 0) :=
      .trans (.trans (t := { s with evt := e }) rfl (pmcDev_quiet _ _ _)) (evtInt_quiet _ _)
    dsimp only
    split
    · exact h.trans (evtInt_quiet _ _)
    · exact h
  exact key _

theorem newRecord_quiet (s : State) (ty src sev : Nat) (tn : Option Nat) (pay : Bytes) (gr : Nat) :
    Quiet s (newRecord s ty src sev tn pay gr) := newRecordAt_quiet _ _ _ _ _ _ _ _ _

/-- A record, a merge or a drop: only the recorder, the counters and the output change. -/
theorem record_quiet (s : State) (ty src sev : Nat) (tn : Option Nat) (pay : Bytes) :
    Quiet s (record s ty src sev tn pay) := by
  have merged : ∀ e : Evt, Quiet s (pmcDev { s with evt := e } 204 1) := fun e =>
    .trans (t := { s with evt := e }) rfl (pmcDev_quiet _ _ _)
  have dropped : ∀ e : Evt, Quiet s (pmcDev (evtInt { s with evt := e } 2) 205 1) := fun e =>
    .trans (.trans (t := { s with evt := e }) rfl (evtInt_quiet _ _)) (pmcDev_quiet _ _ _)
  unfold record
  split
  · split
    · exact merged _
    · split
      · exact dropped _
      · dsimp only
        split
        · exact newRecord_quiet s ty src sev tn pay (recGrid s)
        · exact .trans (.trans (t := { s with evt := { s.evt with dropPending := 0 } }) rfl (newRecord_quiet _ _ _ _ _ _ _))
            (newRecord_quiet _ _ _ _ _ _ _)
  · exact newRecord_quiet s ty src sev tn pay (recGrid s)

theorem meterAdd_quiet (s : State) (i n : Nat) : Quiet s (meterAdd s i n) := rfl
theorem emit_quiet (s : State) (o : Output) : Quiet s (emit s o) := rfl
theorem emitAll_quiet (s : State) (o : List Output) : Quiet s (emitAll s o) := rfl

/-! Completions -/

theorem viewAdd_answering (s : State) (fn i n : Nat) : Answering s (viewAdd s fn i n) := by
  unfold viewAdd; dsimp only; split
  · split <;> rfl
  · rfl

theorem viewComplete_answering (s : State) (fn st dt cls : Nat) : Answering s (viewComplete s fn st dt cls) := by
  unfold viewComplete
  dsimp only
  have step : ∀ (p : Prop) [Decidable p] (t : State) (i : Nat), Answering s t →
      Answering s (if p then viewAdd t fn i 1 else t) := by
    intro p _ t i h; split
    · exact h.trans (viewAdd_answering _ _ _ _)
    · exact h
  exact step _ _ _ (step _ _ _ (step _ _ _ (viewAdd_answering _ _ _ _)))

theorem conSend_answering (s : State) (ty : Nat) (pay : Bytes) : Answering s (conSend s ty pay) := rfl

theorem gateDone_answering (s : State) (part fn : Nat) (c : Completion) (o : Bytes) :
    Answering s (gateDone s part fn c o) := by
  unfold Answering gateDone emitAll
  dsimp only
  split
  · rfl
  · split <;> rfl

theorem postEntry_answering (s : State) (fn q : Nat) (w : List Output) (n : Nat) (c : Completion) :
    Answering s (postEntry s fn q w n c) := by
  have key : ∀ (q' : QPair) (o : List Output), Answering s
      (meterAdd (viewAdd (emitAll (setQp s (qpIx fn q) q') o) fn 9 n) 1 (32 + n)) := fun q' o =>
    .trans (.trans (t := emitAll (setQp s (qpIx fn q) q') o) rfl (viewAdd_answering _ _ _ _))
      (meterAdd_quiet _ _ _).answering
  exact key _ _

/-- The tail record and the message of a queue. -/
theorem queueTail_answering (s : State) (k : Nat) : Answering s (queueTail s k) := by
  have h1 : Answering s (if (getQp s k).tailDue then tailWrite s k else s) := by
    split
    · unfold tailWrite
      exact .trans (.trans (t := setQp s k _) rfl
        (.trans (emit_quiet _ _).answering (pmcDev_quiet _ _ _).answering)) (meterAdd_quiet _ _ _).answering
    · exact .refl s
  unfold queueTail
  dsimp only
  split
  · exact (h1.trans (t := _) (by exact Answering.trans (t := setQp _ k _) rfl (sendMsix_quiet _ _ _).answering))
  · exact h1

theorem flushTick_answering (s : State) : Answering s (flushTick s) := by
  unfold flushTick
  split
  · exact .refl s
  · have : ∀ (l : List Nat) (t : State), Answering s t → Answering s (l.foldl queueTail t) := by
      intro l
      induction l with
      | nil => exact fun _ h => h
      | cons a r ih => exact fun t h => ih _ (h.trans (queueTail_answering t a))
    exact this _ _ (.refl s)

/-- A completion touches the queue pairs, the tenant view, the gates of the Lodge, the console, the counters and the
output. -/
theorem completeAs_answering (cls : Nat) (s : State) (fn q tag st dt wr pair : Nat) (o : Bytes) :
    Answering s (completeAs cls s fn q tag st dt wr pair o) := by
  unfold completeAs
  dsimp only
  have h : Answering s (viewComplete (pmcDev (pmcDev s 161 1) (16 + st / 256 % 16) 1) fn st dt cls) :=
    .trans ((pmcDev_quiet _ _ _).trans (pmcDev_quiet _ _ _)).answering (viewComplete_answering _ _ _ _ _)
  generalize viewComplete (pmcDev (pmcDev s 161 1) (16 + st / 256 % 16) 1) fn st dt cls = u at h
  split
  · exact (h.trans (emit_quiet _ _).answering).trans (conSend_answering _ _ _)
  · split
    · exact h.trans (gateDone_answering _ _ _ _ _)
    · split
      · exact h.trans rfl
      · exact h.trans (postEntry_answering _ _ _ _ _ _)

theorem completeCmd_answering (s : State) (c : Cmd) (st dt : Nat) : Answering s (completeCmd s c st dt) :=
  completeAs_answering _ _ _ _ _ _ _ _ _ _

theorem completeReject_answering (s : State) (c : Cmd) (st dt : Nat) : Answering s (completeReject s c st dt) :=
  (pmcDev_quiet s 169 1).answering.trans (completeAs_answering _ _ _ _ _ _ _ _ _ _)

theorem completeOut_answering (s : State) (c : Cmd) (o : Bytes) : Answering s (completeOut s c o) := by
  unfold completeOut; split <;> exact completeAs_answering _ _ _ _ _ _ _ _ _ _

/-- A reset request: nothing but the start-up state, the recorder, the counters and the output changes. -/
theorem requestReset_frame (s : State) (cause delay : Nat) (time cold : Bool) :
    Quiet { s with boot := (requestReset s cause delay time cold).boot } (requestReset s cause delay time cold) := by
  have h := record_quiet s 0x0E02 cause sevNotice none (payState 0 0 cause 0 0)
  unfold requestReset
  dsimp only
  generalize record s 0x0E02 cause sevNotice none (payState 0 0 cause 0 0) = u at *
  unfold Quiet at *
  rw [h]
  repeat' split
  all_goals rfl

end Sys2Proof.Machine
end

