-- ==== Sys2Proof/Laws/Complete.lean ====
section
/-! SUPPORT. What the part sends is only added to; a completion is among what its operation sends; what a completion and a
record leave alone in the gatehouse. -/

namespace Sys2Proof.Machine

/-- What has been sent stays, in order. -/
def Grows (s t : State) : Prop := ∃ l, t.out = s.out ++ l

theorem Grows.refl (s : State) : Grows s s := ⟨[], by simp⟩
theorem Grows.trans {s t u : State} (h : Grows s t) (k : Grows t u) : Grows s u := by
  obtain ⟨a, ha⟩ := h; obtain ⟨b, hb⟩ := k; exact ⟨a ++ b, by rw [hb, ha, List.append_assoc]⟩
theorem Grows.of_eq {s t : State} (h : t.out = s.out) : Grows s t := ⟨[], by simp [h]⟩

theorem emit_grows (s : State) (o : Output) : Grows s (emit s o) := ⟨[o], rfl⟩
theorem emitAll_grows (s : State) (o : List Output) : Grows s (emitAll s o) := ⟨o, rfl⟩

theorem sendMsix_grows (s : State) (fn v : Nat) : Grows s (sendMsix s fn v) := by
  unfold sendMsix; split
  · exact emit_grows (countMsix s) _
  · split
    · exact .of_eq rfl
    · exact .refl s

theorem vectorFor_grows (s : State) (a b v : Nat) : Grows s (vectorFor s a b v) := by
  unfold vectorFor; split
  · exact .refl s
  · exact sendMsix_grows _ _ _

theorem evtInt_grows (s : State) (b : Nat) : Grows s (evtInt s b) :=
  .trans (t := { s with evt := { s.evt with intStatus := s.evt.intStatus ||| 2 ^ b } }) (.of_eq rfl) (vectorFor_grows _ _ _ _)

theorem pmcAdd_grows (s : State) (i n : Nat) : Grows s (pmcAdd s i n) := by
  unfold pmcAdd
  dsimp only
  split
  · exact .refl s
  · split
    · exact .of_eq rfl
    · unfold pmcInt; exact .trans (.of_eq rfl) (vectorFor_grows _ _ _ _)

theorem pmcDev_grows (s : State) (d n : Nat) : Grows s (pmcDev s d n) := pmcAdd_grows s _ n
theorem pmcPav_grows (s : State) (p j n : Nat) : Grows s (pmcPav s p j n) := pmcAdd_grows s _ n

theorem newRecordAt_grows (s : State) (ty src sev : Nat) (tn : Option Nat) (pay : Bytes) (gr hrs : Nat) (cl : Bool) :
    Grows s (newRecordAt s ty src sev tn pay gr hrs cl) := by
  have key : ∀ e : Evt, Grows s (let s2 := evtInt (pmcDev { s with evt := e } 203 1) 0
      if sev = sevFault ∨ sev = sevAlarm then evtInt s2 1 else s2) := by
    intro e
    have h : Grows s (evtInt (pmcDev { s with evt := e } 203 1) 0) :=
      .trans (.trans (t := { s with evt := e }) (.of_eq rfl) (pmcDev_grows _ _ _)) (evtInt_grows _ _)
    dsimp only
    split
    · exact h.trans (evtInt_grows _ _)
    · exact h
  exact key _

theorem newRecord_grows (s : State) (ty src sev : Nat) (tn : Option Nat) (pay : Bytes) (gr : Nat) :
    Grows s (newRecord s ty src sev tn pay gr) := newRecordAt_grows _ _ _ _ _ _ _ _ _

theorem record_grows (s : State) (ty src sev : Nat) (tn : Option Nat) (pay : Bytes) :
    Grows s (record s ty src sev tn pay) := by
  have evt : ∀ e : Evt, Grows s { s with evt := e } := fun e => .of_eq rfl
  have merged : ∀ e : Evt, Grows s (pmcDev { s with evt := e } 204 1) := fun e => (evt e).trans (pmcDev_grows _ _ _)
  have dropped : ∀ e : Evt, Grows s (pmcDev (evtInt { s with evt := e } 2) 205 1) := fun e =>
    ((evt e).trans (evtInt_grows _ _)).trans (pmcDev_grows _ _ _)
  unfold record
  split
  · split
    · exact merged _
    · split
      · exact dropped _
      · dsimp only
        split
        · exact newRecord_grows _ _ _ _ _ _ _
        · exact ((evt { s.evt with dropPending := 0 }).trans (newRecord_grows _ _ _ _ _ _ _)).trans (newRecord_grows _ _ _ _ _ _ _)
  · exact newRecord_grows _ _ _ _ _ _ _

/-! Records -/

theorem vectorFor_evt (s : State) (a b v : Nat) : (vectorFor s a b v).evt = s.evt := by rw [vectorFor_msg]
theorem pmcAdd_evt (s : State) (i n : Nat) : (pmcAdd s i n).evt = s.evt := by
  unfold pmcAdd; dsimp only; split
  · rfl
  · split
    · rfl
    · exact vectorFor_evt _ _ _ _
theorem evtInt_ring (s : State) (b : Nat) : (evtInt s b).evt.ring = s.evt.ring := by
  unfold evtInt; dsimp only; rw [vectorFor_evt]
theorem evtInt_drop (s : State) (b : Nat) : (evtInt s b).evt.dropPending = s.evt.dropPending := by
  unfold evtInt; dsimp only; rw [vectorFor_evt]

theorem getLast?_drop_one {α : Type} (l : List α) (h : 1 < l.length) : (l.drop 1).getLast? = l.getLast? := by
  match l, h with
  | a :: b :: r, _ => simp

theorem newRecord_last (s : State) (ty src sev : Nat) (tn : Option Nat) (pay : Bytes) (gr : Nat) :
    (newRecord s ty src sev tn pay gr).evt.ring.getLast?.map (fun r => r.type) = some ty := by
  have key : ∀ e : Evt, e.ring.getLast?.map (fun r => r.type) = some ty →
      (let s2 := evtInt (pmcDev { s with evt := e } 203 1) 0
       if sev = sevFault ∨ sev = sevAlarm then evtInt s2 1 else s2).evt.ring.getLast?.map (fun r => r.type) = some ty := by
    intro e h
    dsimp only
    split <;> simp only [evtInt_ring, pmcDev, pmcAdd_evt] <;> exact h
  have last : ∀ (l : List EvtRec) (r : EvtRec), r.type = ty →
      (if 4096 < (l ++ [r]).length then (l ++ [r]).drop 1 else l ++ [r]).getLast?.map (fun r => r.type) = some ty := by
    intro l r hr
    split
    · rename_i h; rw [getLast?_drop_one _ (by omega)]; simp [hr]
    · simp [hr]
  exact key _ (last _ _ rfl)

/-- A record is written, merged into the newest, or dropped. -/
theorem record_recorded (s : State) (ty src sev : Nat) (tn : Option Nat) (pay : Bytes) :
    recorded ty (record s ty src sev tn pay) := by
  unfold record recorded
  split
  · rename_i r hr
    split
    · rename_i h
      left
      simp only [pmcDev, pmcAdd_evt]
      have : r.type = ty := by simp only [mergesInto, Bool.and_eq_true, beq_iff_eq] at h; exact h.1.1.1.1.2
      simp [this]
    · split
      · rename_i h
        right
        simp only [unflushed, pmcDev, pmcAdd_evt, evtInt_drop, evtInt_ring] at h ⊢
        exact ⟨by omega, h⟩
      · left; exact newRecord_last _ _ _ _ _ _ _
  · left; exact newRecord_last _ _ _ _ _ _ _

/-! Completions -/

/-- What a completion to the host port touches: queue pairs, pending MSI-X bits, tenant view, recorder, counters, output; and
what has been sent stays. -/
def Sent (s t : State) : Prop :=
  t = { s with ten := t.ten, gth := { s.gth with qp := t.gth.qp, pba := t.gth.pba }, evt := t.evt, pmc := t.pmc,
               out := t.out } ∧ Grows s t

theorem Sent.trans {s t u : State} (h : Sent s t) (k : Sent t u) : Sent s u := by
  obtain ⟨h, hg⟩ := h
  obtain ⟨k, kg⟩ := k
  refine ⟨?_, hg.trans kg⟩
  rw [k, h]

theorem Sent.refl (s : State) : Sent s s := ⟨rfl, .refl s⟩
theorem sent_quiet {s t : State} (h : Quiet s t) (g : Grows s t) : Sent s t := ⟨by unfold Quiet at h; rw [h], g⟩
theorem pmcDev_sent (s : State) (d n : Nat) : Sent s (pmcDev s d n) := sent_quiet (pmcDev_quiet s d n) (pmcDev_grows s d n)
theorem emit_sent (s : State) (o : Output) : Sent s (emit s o) := ⟨rfl, emit_grows s o⟩
theorem meterAdd_sent (s : State) (i n : Nat) : Sent s (meterAdd s i n) := ⟨rfl, .of_eq rfl⟩

theorem viewAdd_sent (s : State) (fn i n : Nat) : Sent s (viewAdd s fn i n) := by
  unfold viewAdd; dsimp only; split
  · split <;> exact ⟨rfl, .of_eq rfl⟩
  · exact .refl s

theorem viewComplete_sent (s : State) (fn st dt cls : Nat) : Sent s (viewComplete s fn st dt cls) := by
  have step : ∀ (p : Prop) [Decidable p] (t : State) (i : Nat), Sent s t → Sent s (if p then viewAdd t fn i 1 else t) := by
    intro p _ t i h; split
    · exact h.trans (viewAdd_sent _ _ _ _)
    · exact h
  unfold viewComplete
  dsimp only
  exact step _ _ _ (step _ _ _ (step _ _ _ (viewAdd_sent _ _ _ _)))

theorem postEntry_sent (s : State) (fn q : Nat) (w : List Output) (n : Nat) (c : Completion) :
    Sent s (postEntry s fn q w n c) ∧ ∃ m, (postEntry s fn q w n c).out = s.out ++ (w ++ [.completion fn q c] ++ m) := by
  have key : ∀ (q' : QPair) (o : List Output), ∀ u,
      u = meterAdd (viewAdd (emitAll (setQp s (qpIx fn q) q') o) fn 9 n) 1 (32 + n) →
        Sent s u ∧ ∃ m, u.out = s.out ++ (o ++ m) := by
    intro q' o u hu
    have h0 : Sent s (emitAll (setQp s (qpIx fn q) q') o) := ⟨rfl, ⟨o, rfl⟩⟩
    have h1 : Sent (emitAll (setQp s (qpIx fn q) q') o) u := hu ▸ (viewAdd_sent _ _ _ _).trans (meterAdd_sent _ _ _)
    obtain ⟨m, hm⟩ := h1.2
    exact ⟨h0.trans h1, m, by rw [hm]; show (s.out ++ o) ++ m = _; rw [List.append_assoc]⟩
  exact key _ (w ++ [.completion fn q c]) _ rfl

/-- The completion of a command of the host port: what it sends, and what it leaves alone. -/
theorem completeAs_host (cls : Nat) (s : State) (c : Cmd) (st dt wr pair : Nat) (o : Bytes) (h : toHost s c = true) :
    Sent s (completeAs cls s c.fn c.queue c.desc.tag st dt wr pair o)
      ∧ completed c st dt wr pair o s (completeAs cls s c.fn c.queue c.desc.tag st dt wr pair o) := by
  simp only [toHost, Bool.and_eq_true, decide_eq_true_eq, Bool.not_eq_true'] at h
  obtain ⟨⟨h1, h2⟩, h3⟩ := h
  obtain ⟨u, hu⟩ : ∃ u, u = viewComplete (pmcDev (pmcDev s 161 1) (16 + st / 256 % 16) 1) c.fn st dt cls := ⟨_, rfl⟩
  have f : Sent s u := hu ▸ ((pmcDev_sent _ _ _).trans (pmcDev_sent _ _ _)).trans (viewComplete_sent _ _ _ _ _)
  obtain ⟨cc, hc⟩ : ∃ cc : Completion, cc = { tag := c.desc.tag, status := st, detail := dt, written := wr, time := now s, pair := pair, unit := unitByte s } := ⟨_, rfl⟩
  have h3' : ideBlocked u = false := by rw [f.1]; exact h3
  have ht : completeAs cls s c.fn c.queue c.desc.tag st dt wr pair o =
      postEntry u c.fn c.queue (if o = [] then [] else [.data c.fn c.queue c.desc.tag 0 o]) o.length cc := by
    unfold completeAs
    dsimp only
    rw [← hu, ← hc, if_neg (by simp [h1]), if_neg (by omega), if_neg (by simp [h3'])]
  rw [ht]
  obtain ⟨g, m, hm⟩ := postEntry_sent u c.fn c.queue (if o = [] then [] else [.data c.fn c.queue c.desc.tag 0 o]) o.length cc
  refine ⟨f.trans g, ?_⟩
  obtain ⟨l, hl⟩ := f.2
  refine ⟨l ++ ((if o = [] then [] else [.data c.fn c.queue c.desc.tag 0 o]) ++ [_] ++ m), by rw [hm, hl, List.append_assoc], ?_, ?_⟩
  · simp [hc]
  · intro ho; simp [ho]

/-- A command that answers with output (R22). -/
theorem completeOut_host (s : State) (c : Cmd) (o : Bytes) (h : toHost s c = true) :
    Sent s (completeOut s c o) ∧ returned c o s (completeOut s c o) := by
  unfold completeOut returned
  split
  · exact completeAs_host _ s c _ _ _ _ [] h
  · exact completeAs_host _ s c _ _ _ _ o h

theorem completeCmd_host (s : State) (c : Cmd) (st dt : Nat) (h : toHost s c = true) :
    Sent s (completeCmd s c st dt) ∧ completed c st dt 0 0 [] s (completeCmd s c st dt) :=
  completeAs_host _ s c st dt 0 0 [] h

end Sys2Proof.Machine
end

