-- ==== Sys2Proof/Laws/Isa.lean ====
section
/-! SUPPORT. What an instruction that retires does to the part, and what moving past it does to its engine. -/

namespace Sys2Proof.Machine

open Sys2Proof

/-! Registers of an engine read back -/

theorem sget_putS (g : Eng) (d r x : Nat) (t : Tag) (k : Kind) :
    sget (putS g d x t k) r = if r = d then { val := BitVec.ofNat 28 x, tag := forceTag g t k } else sget g r := by
  simp [sget, putS, kget_kset]

theorem vget_putV (g : Eng) (d r : Nat) (x : Row) (t : Tag) (k : Kind) :
    vget (putV g d x t k) r = if r = d then { val := x, tag := forceTag g t k } else vget g r := by
  simp [vget, putV, kget_kset]

theorem pget_putP (g : Eng) (d r : Nat) (x : BitVec 16) (t : Tag) :
    pget (putP g d x t) r = if r = d then { val := x, tag := forceTag g t .bool } else pget g r := by
  simp [pget, putP, kget_kset]

theorem aget_putA (g : Eng) (d r x y : Nat) : aget (putA g d x y) r = if r = d then x % 2048 else aget g r := by
  simp [aget, putA, kget_kset]

theorem qget_putQ (g : Eng) (d r : Nat) (q : QReg) : qget (putQ g d q) r = if r = d then q else qget g r := by
  simp [qget, putQ, kget_kset]

theorem rowGet_putRow (g : Eng) (d r : Nat) (x : Row) (t : Tag) :
    rowGet (putRow g d x t) r =
      if r = d then { val := x, kind := if rowSecret g d then (if t.secret then t.kind else .bool) else .none,
                      sealed := rowSecret g d && t.sealed } else rowGet g r := by
  simp [rowGet, putRow, kget_kset]

/-- The operand memory keeps its canonical form. -/
theorem putRow_wf (g : Eng) (d : Nat) (x : Row) (t : Tag) (h : kwf (fun _ => rowZero) g.rows = true) :
    kwf (fun _ => rowZero) (putRow g d x t).rows = true := kwf_kset _ _ _ _ h

@[simp] theorem forceTag_secret (g : Eng) (t : Tag) (k : Kind) :
    (forceTag g t k).secret = (t.secret || inShuffle g) := by
  unfold forceTag
  cases h : inShuffle g <;> cases h' : t.secret <;> simp [h']

@[simp] theorem outTag_secret (k : Kind) (ts : List Tag) : (outTag k ts).secret = ts.any (·.secret) := by
  unfold outTag; cases h : ts.any (·.secret) <;> simp [pubTag]

@[simp] theorem carryTag_secret (k : Kind) (ts : List Tag) : (carryTag k ts).secret = ts.any (·.secret) := by
  unfold carryTag; cases h : ts.any (·.secret) <;> simp [pubTag]

@[simp] theorem pubTag_secret : pubTag.secret = false := rfl

/-! Moving past an instruction -/

theorem advanceGo_shape (n : Nat) (g : Eng) : ∃ p l a b, advanceGo n g = { g with pc := p, loops := l, a := a, aNat := b } := by
  induction n generalizing g with
  | zero => exact ⟨_, _, _, _, rfl⟩
  | succ n ih =>
    unfold advanceGo
    split
    · exact ⟨_, _, _, _, rfl⟩
    · split
      · split
        · exact ⟨_, _, _, _, rfl⟩
        · obtain ⟨p, l, a, b, h⟩ := ih (closeLoop g)
          rw [h]
          unfold closeLoop
          split <;> exact ⟨_, _, _, _, rfl⟩
      · exact ⟨_, _, _, _, rfl⟩

theorem advance_shape (g : Eng) : ∃ p l a b, advance g = { g with pc := p, loops := l, a := a, aNat := b } :=
  advanceGo_shape _ _

/-- Away from the END of a loop the PC moves to the next word and nothing else moves. -/
theorem advance_plain (g : Eng) (h : atEnd g = false) : advance g = { g with pc := g.pc + 1 } := by
  cases hl : g.loops with
  | nil => simp [advance, advanceGo, hl]
  | cons f r =>
    simp only [atEnd, hl, Bool.and_eq_false_iff, beq_eq_false_iff_ne] at h
    have hne : ¬(f.depth = g.calls.length ∧ f.last = g.pc) := fun hc => by
      rcases h with h | h
      · exact h hc.1
      · exact h hc.2
    simp [advance, advanceGo, hl, hne]

/-! The part around an instruction -/

theorem isaCount_quiet (s : State) (p : Nat) (op : IsaOp) (k n : Nat) : Quiet s (isaCount s p op k n) := by
  unfold isaCount
  split
  · exact (pmcPav_quiet _ _ _ _).trans (pmcDev_quiet _ _ _)
  · split
    · exact (pmcPav_quiet _ _ _ _).trans (pmcDev_quiet _ _ _)
    · split
      · exact pmcPav_quiet _ _ _ _
      · split
        · exact pmcPav_quiet _ _ _ _
        · exact Quiet.refl _

theorem Quiet.getEng {s t : State} (h : Quiet s t) (k : Nat) : getEng t k = getEng s k := by rw [h]; rfl

/-- An instruction that asks for no shared core and loads no overlay. -/
def plainOp (op : IsaOp) : Bool := op != .jov && !isKeccakOp op && !isShaOp op

/-- What the effect `g'` of an instruction on `g` has left alone: the shares and the grant of a core. -/
def SameSide (g g' : Eng) : Prop := g'.masks = g.masks ∧ g'.grant = g.grant

/-- Engine `e` is written, its secrets shared, mask rows are drawn, counters move. -/
theorem isaResult_ok (s : State) (e n : Nat) (j : Job) (op : IsaOp) (g g' : Eng) (w : BitVec 32) (d : Nat)
    (hj : plainOp op = true) :
    let t := isaResult s e n j op g w .none (.ok g' d)
    Quiet { s with eng := t.eng, freeCtr := t.freeCtr } t ∧ (∀ k, k ≠ e → getEng t k = getEng s k)
      ∧ getEng t e = { g' with fnt := { g.fnt with rowsDrawn := g.fnt.rowsDrawn + d }, masks := newMasks s.freeCtr g g',
                               grant := none } := by
  intro t
  simp only [plainOp, Bool.and_eq_true, bne_iff_ne, ne_eq, Bool.not_eq_true'] at hj
  obtain ⟨⟨hj, hk⟩, hs⟩ := hj
  obtain ⟨g2, hg2⟩ : ∃ g2, g2 = { g' with fnt := g.fnt, masks := newMasks s.freeCtr g g', grant := none } := ⟨_, rfl⟩
  have hs' : op ≠ .vshaCs ∧ op ≠ .vshaCl := by
    simpa [isShaOp] using hs
  have ht : t = bumpCtr (isaCount (drawRows (setEng s e g2) e d) (e / 17) op (coreOf g') (g'.cycles - g.cycles)) := by
    simp [t, isaResult, hj, hk, hs, coreKeep, hs'.1, hs'.2, hg2]
  have hf : g2.fnt = g.fnt := by rw [hg2]
  have h1 : ∃ m, Quiet { s with eng := m } (drawRows (setEng s e g2) e d)
      ∧ (∀ k, k ≠ e → kget engReset m k = getEng s k)
      ∧ kget engReset m e = { g2 with fnt := { g.fnt with rowsDrawn := g.fnt.rowsDrawn + d } } := by
    unfold drawRows
    split
    · rename_i hd
      refine ⟨(setEng s e g2).eng, rfl, fun k hk => getEng_setEng_ne s _ hk, ?_⟩
      rw [hd, ← hf]; exact getEng_setEng_self s e _
    · refine ⟨(setEng (setEng s e g2) e
          { g2 with fnt := { g2.fnt with rowsDrawn := g2.fnt.rowsDrawn + d } }).eng, ?_, fun k hk => ?_, ?_⟩
      · simp only [getEng_setEng_self]
        exact .trans (t := setEng (setEng s e g2) e
          { g2 with fnt := { g2.fnt with rowsDrawn := g2.fnt.rowsDrawn + d } }) rfl (pmcPav_quiet _ _ _ _)
      · exact (getEng_setEng_ne _ _ hk).trans (getEng_setEng_ne _ _ hk)
      · rw [← hf]; exact getEng_setEng_self _ _ _
  obtain ⟨m, hq, ho, he⟩ := h1
  have h2 := hq.trans (isaCount_quiet _ (e / 17) op (coreOf g') (g'.cycles - g.cycles))
  generalize isaCount (drawRows (setEng s e g2) e d) (e / 17) op (coreOf g') (g'.cycles - g.cycles) = u at h2 ht
  have hu : ∀ k, getEng t k = kget engReset m k := by
    intro k; rw [ht]; exact h2.getEng k
  refine ⟨?_, fun k hk => (hu k).trans (ho k hk), ((hu e).trans he).trans (by rw [hg2])⟩
  rw [ht]
  unfold Quiet at *
  unfold bumpCtr
  dsimp only
  rw [h2]

/-- An instruction that retires: `retires` with the engine it leaves. -/
theorem isaRun_ok {op : IsaOp} {f : IsaEnv → Eng → BitVec 32 → EngRes} {i : Instr} {x : IsaX} {s : State} {g' : Eng} {d : Nat}
    {P : Eng → Prop} (hi : exec i s = isaRun op f x s) (h : atPc op x s = true) (hj : plainOp op = true)
    (hr : f (envAt x s) (engOf x s) x.w = .ok g' d) (hm : d = 0 ∨ (engOf x s).fnt.seeded = true)
    (hs : SameSide (engOf x s) g')
    (hp : P { g' with fnt := { (engOf x s).fnt with rowsDrawn := (engOf x s).fnt.rowsDrawn + d } }) :
    retires i x s P := by
  simp only [atPc, Bool.and_eq_true, beq_iff_eq] at h
  obtain ⟨⟨⟨⟨hst, hw⟩, hd⟩, hhw⟩, hk⟩ := h
  cases hjob : (engOf x s).job with
  | none => simp [hjob] at hk
  | some n =>
    cases hget : getJob s n with
    | none => simp [hjob, hget] at hk
    | some j =>
      simp only [hjob, hget, Option.bind_some, beq_iff_eq] at hk
      have henv : envAt x s = isaEnv s x.e.val j.prog := by
        simp [envAt, hjob, hget]
      rw [henv] at hr
      have hu : unseeded (engOf x s) (.ok g' d) = false := by
        rcases hm with hm | hm <;> simp [unseeded, hm]
      have key : isaRun op f x s = answer s (isaResult s x.e.val n j op (engOf x s) x.w .none (.ok g' d)) := by
        unfold engOf at *
        simp only [isaRun, hst, hjob, hget, hk, progRun, hw, hd, hhw, hwFault, hwCorrected]
        simp
        rw [hr, hu]
        simp
      obtain ⟨hq, ho, he⟩ := isaResult_ok s x.e.val n j op (engOf x s) g' x.w d hj
      have he' : engOf x (isaResult s x.e.val n j op (engOf x s) x.w .none (.ok g' d)) = _ := he
      refine ⟨_, hi.trans key, ?_, fun k hk => ho k hk, ?_, ?_, ?_⟩
      · generalize isaResult s x.e.val n j op (engOf x s) x.w .none (.ok g' d) = t at hq
        unfold Quiet at *
        rw [hq]
      · show (engOf x (isaResult s x.e.val n j op (engOf x s) x.w .none (.ok g' d))).masks
          = newMasks s.freeCtr (engOf x s)
              (settledEng (engOf x s) (engOf x (isaResult s x.e.val n j op (engOf x s) x.w .none (.ok g' d))))
        rw [he']
        unfold settledEng
        rw [← hs.1]
        rfl
      · show (engOf x (isaResult s x.e.val n j op (engOf x s) x.w .none (.ok g' d))).grant.all _ = true
        rw [he']; rfl
      · show P (settledEng (engOf x s) (engOf x (isaResult s x.e.val n j op (engOf x s) x.w .none (.ok g' d))))
        rw [he']
        unfold settledEng
        rw [← hs.1, ← hs.2]
        exact hp

/-! Instructions that retire with a register written -/

/-- What an engine is after `g0`, the effect, retires: cycles counted, PC advanced, `n` rows drawn in all. -/
theorem isaRun_retire {op : IsaOp} {f : IsaEnv → Eng → BitVec 32 → EngRes} {i : Instr} {x : IsaX} {s : State} {g0 : Eng}
    {c : Nat} {m : Bool} {P : Eng → Prop} (hi : exec i s = isaRun op f x s) (h : atPc op x s = true) (hj : plainOp op = true)
    (hr : f (envAt x s) (engOf x s) x.w = retireWith x.w g0 c m) (hf : g0.fnt = (engOf x s).fnt)
    (hsd : SameSide (engOf x s) g0)
    (hm : m = false ∨ ((engOf x s).fnt.seeded = true ∧ (engOf x s).fnt.stopped = false))
    (hp : ∀ n, P { advance { g0 with cycles := g0.cycles + c } with fnt := { (engOf x s).fnt with rowsDrawn := n } }) :
    retires i x s P := by
  have hs : (m && g0.fnt.stopped) = false := by rcases hm with hm | hm <;> simp [hm, hf]
  unfold retireWith at hr
  rw [hs] at hr
  obtain ⟨p, l, a, b, ha⟩ := advance_shape { g0 with cycles := g0.cycles + c }
  refine isaRun_ok hi h hj hr ?_ ⟨by rw [ha]; exact hsd.1, by rw [ha]; exact hsd.2⟩ (hp _)
  rcases hm with hm | hm <;> simp [hm]

/-- `mayRun` is what an instruction that counts its sources `n` and its predicate `ps` needs. -/
theorem mask_or {g g' : Eng} {c : Cost} {ts : List Tag} {ps : Bool} {k : CostKind} {n : Nat} (h : mayRun g c ts ps = true)
    (hp : g'.profile = g.profile) (hk : k = c.1) (hn : n = secCount ts) :
    (drawsMask g' k n || (ps && g.profile != 0)) = false ∨ (g.fnt.seeded = true ∧ g.fnt.stopped = false) := by
  subst hk hn
  have : drawsMask g' c.1 (secCount ts) = drawsMask g c.1 (secCount ts) := by simp [drawsMask, hp]
  rw [this]
  simp only [mayRun, fntReady, Bool.or_eq_true, Bool.and_eq_true, Bool.not_eq_true'] at h
  rcases h with h | h
  · exact .inr h
  · exact .inl h

theorem mask_or_plain {g g' : Eng} {c : Cost} {ts : List Tag} {k : CostKind} {n : Nat} (h : mayRun g c ts false = true)
    (hp : g'.profile = g.profile) (hk : k = c.1) (hn : n = secCount ts) :
    drawsMask g' k n = false ∨ (g.fnt.seeded = true ∧ g.fnt.stopped = false) := by
  simpa using mask_or h hp hk hn

@[simp] theorem drawsMask_linear (g : Eng) (n : Nat) : drawsMask g .linear n = false := by simp [drawsMask]

/-- The cost depends on nothing of the engine but its profile. -/
theorem costOf_profile {g g' : Eng} (h : g'.profile = g.profile) (c : CostKind) (o a b n : Nat) (ps : Bool) :
    costOf g' c o a b n ps = costOf g c o a b n ps := by simp [costOf, byProfile, h]

/-- What stays of an engine while an instruction moves past its END, loops and address registers. -/
theorem advance_cycles (g : Eng) : (advance g).cycles = g.cycles := by
  obtain ⟨p, l, a, b, h⟩ := advance_shape g; rw [h]

theorem goesOn_of {g g0 : Eng} {c n : Nat} (h1 : g0.pc = g.pc) (h2 : g0.loops = g.loops) (h3 : g0.calls = g.calls)
    (h4 : g0.a = g.a) (h5 : g0.aNat = g.aNat) :
    goesOn g { advance { g0 with cycles := c } with fnt := { g.fnt with rowsDrawn := n } } := by
  refine ⟨rfl, fun h => ?_⟩
  have : atEnd { g0 with cycles := c } = false := by simpa [atEnd, h1, h2, h3] using h
  rw [advance_plain _ this]; simp [h1, h2, h4, h5]

theorem wroteS_of {g : Eng} {d v v' : Nat} {t t' : Tag} {k : Kind} {c n : Nat} (hs : forceTag g t k = t')
    (hv : BitVec.ofNat 28 v = BitVec.ofNat 28 v') :
    wroteS g { advance { putS g d v t k with cycles := c } with fnt := { g.fnt with rowsDrawn := n } } d v' t' := by
  obtain ⟨p, l, a, b, h⟩ := advance_shape { putS g d v t k with cycles := c }
  have hg := goesOn_of (g := g) (g0 := putS g d v t k) (c := c) (n := n) rfl rfl rfl rfl rfl
  have hd : ∀ r, sget { advance { putS g d v t k with cycles := c } with fnt := { g.fnt with rowsDrawn := n } } r
      = sget (putS g d v t k) r := by intro r; rw [h]; rfl
  subst hs
  refine ⟨?_, ?_, ?_, ?_, hg⟩
  · rw [hd, sget_putS]; simpa using hv
  · intro r hr; rw [hd, sget_putS]; simp [hr]
  · rw [h]; rfl
  · rw [h]; simp [putS]

theorem wroteP_of {g : Eng} {d : Nat} {v v' : BitVec 16} {t t' : Tag} {c n : Nat} (hs : forceTag g t .bool = t')
    (hv : v = v') :
    wroteP g { advance { putP g d v t with cycles := c } with fnt := { g.fnt with rowsDrawn := n } } d v' t' := by
  subst hv
  obtain ⟨p, l, a, b, h⟩ := advance_shape { putP g d v t with cycles := c }
  have hg := goesOn_of (g := g) (g0 := putP g d v t) (c := c) (n := n) rfl rfl rfl rfl rfl
  have hd : ∀ r, pget { advance { putP g d v t with cycles := c } with fnt := { g.fnt with rowsDrawn := n } } r
      = pget (putP g d v t) r := by intro r; rw [h]; rfl
  subst hs
  refine ⟨?_, ?_, ?_, ?_, hg⟩
  · rw [hd, pget_putP]; simp
  · intro r hr; rw [hd, pget_putP]; simp [hr]
  · rw [h]; rfl
  · rw [h]; simp [putP]

/-- The same for vector registers, of an effect that writes only those. -/
theorem wroteV_of {g g0 : Eng} {c n : Nat} {ds : List Nat} {v : Nat → Row} {sec : Nat → Bool}
    (h0 : { g0 with v := g.v, everSecret := g.everSecret } = g)
    (h1 : ∀ d ∈ ds, (vget g0 d).val = v d ∧ (vget g0 d).tag.secret = (sec d || inShuffle g))
    (h2 : ∀ r, r ∉ ds → vget g0 r = vget g r) :
    wroteV g { advance { g0 with cycles := c } with fnt := { g.fnt with rowsDrawn := n } } ds v sec := by
  obtain ⟨p, l, a, b, h⟩ := advance_shape { g0 with cycles := c }
  have hf : ∀ (α : Type) (π : Eng → α), π { g0 with v := g.v, everSecret := g.everSecret } = π g := fun α π => by rw [h0]
  have hg := goesOn_of (g := g) (g0 := g0) (c := c) (n := n) (hf _ (·.pc)) (hf _ (·.loops)) (hf _ (·.calls)) (hf _ (·.a))
    (hf _ (·.aNat))
  have hd : ∀ r, vget { advance { g0 with cycles := c } with fnt := { g.fnt with rowsDrawn := n } } r = vget g0 r := by
    intro r; rw [h]; rfl
  refine ⟨fun d hd' => ?_, fun r hr => ?_, ?_, hg⟩
  · rw [hd]; exact h1 d hd'
  · rw [hd]; exact h2 r hr
  · rw [h]
    have := congrArg (fun u : Eng => { u with pc := g.pc, loops := g.loops, a := g.a, aNat := g.aNat, cycles := g.cycles,
                                              fnt := g.fnt }) h0
    exact this

/-! The masked write (R190) -/

/-- Where the old destination fits, a masked write answers, and writes `governed` with the secrecy of its sources. -/
theorem maskedPut_some {m : Mode} {g g0 : Eng} {w : BitVec 32} {d : Nat} {new : Row} {t : Tag} {k : Kind}
    (hp : g.p = g0.p) (hv : vget g d = vget g0 d)
    (hfit : (if t.secret then t.kind else k) = .any ∨ govFits (if t.secret then t.kind else k) g0 w d = true) :
    ∃ t' k', maskedPut m g w d new t k = some (putV g d (governed m g0 w d new) t' k')
      ∧ t'.secret = (t.secret || govSecret g0 w d)
      ∧ (psFull (pget g0 (wPs w)) = true → t' = t ∧ k' = if k = .any then .bool else k) := by
  have hpp : pget g (wPs w) = pget g0 (wPs w) := by simp [pget, hp]
  unfold maskedPut governed govSecret
  simp only [hpp, hv]
  cases hf : psFull (pget g0 (wPs w))
  · simp only [govFits, hf, Bool.false_or] at hfit
    have h1 : ¬((vget g0 d).tag.secret && t.secret && !(kindOk t.kind (vget g0 d).tag) && !(t.kind == .any)) = true := by
      intro hc
      simp only [Bool.and_eq_true, Bool.not_eq_true', beq_eq_false_iff_ne] at hc
      obtain ⟨⟨⟨-, hs⟩, hk⟩, ha⟩ := hc
      simp only [hs, if_true] at hfit
      rcases hfit with h | h
      · exact ha h
      · rw [hk] at h; exact Bool.noConfusion h
    have h2 : ¬((vget g0 d).tag.secret && !t.secret && k != .any && !(kindOk k (vget g0 d).tag)) = true := by
      intro hc
      simp only [Bool.and_eq_true, Bool.not_eq_true', bne_iff_ne, ne_eq] at hc
      obtain ⟨⟨⟨-, hs⟩, ha⟩, hk⟩ := hc
      simp only [hs, Bool.false_eq_true, if_false] at hfit
      rcases hfit with h | h
      · exact ha h
      · rw [hk] at h; exact Bool.noConfusion h
    simp only [h1, h2, Bool.false_eq_true, if_false]
    refine ⟨_, _, rfl, ?_, by simp⟩
    cases t.secret <;> cases (pget g0 (wPs w)).tag.secret <;> cases (vget g0 d).tag.secret <;> simp
  · exact ⟨t, _, rfl, by simp, fun _ => ⟨rfl, rfl⟩⟩

/-- Bit `b` of a predicate made of words: some governed word with that bit satisfies `f` (R200). -/
theorem packNat_testBit (f : Nat → Nat) (hf : ∀ i, f i < 2) (n b : Nat) :
    (packNat 1 f n).testBit b = (decide (b < n) && decide (f b = 1)) ∧ packNat 1 f n < 2 ^ n := by
  induction n with
  | zero => simp [packNat]
  | succ n ih =>
    have hn := hf n
    have hm : f n % 2 ^ 1 = f n := Nat.mod_eq_of_lt (by simpa using hn)
    simp only [packNat, hm, Nat.one_mul, Nat.shiftLeft_eq]
    have key : packNat 1 f n + f n * 2 ^ n = 2 ^ n * f n + packNat 1 f n := by rw [Nat.add_comm, Nat.mul_comm]
    rw [key, Nat.testBit_two_pow_mul_add _ ih.2]
    refine ⟨?_, ?_⟩
    · by_cases h : b < n
      · simp [h, ih.1]; intro; omega
      · simp only [h, if_false]
        by_cases h' : b = n
        · subst h'
          have : f b = 0 ∨ f b = 1 := by omega
          rcases this with h | h <;> simp [h]
        · have hb : b - n ≠ 0 := by omega
          have hb' : ¬ b < n + 1 := by omega
          simp [hb']
          have : f n = 0 ∨ f n = 1 := by omega
          rcases this with h | h
          · simp [h]
          · rw [h]
            exact Nat.testBit_lt_two_pow (Nat.one_lt_two_pow hb)
    · rw [Nat.pow_succ]
      have : f n = 0 ∨ f n = 1 := by omega
      rcases this with h | h <;> rw [h] <;> omega

theorem govPred_bit (m : Mode) (f : Nat → Bool) (b : Nat) (hb : b < 16) :
    (govPred m f).getLsbD b = (List.range (wordCount m)).any (fun j => govBit m j == b && f j) := by
  have := (packNat_testBit (fun b => b2n ((List.range (wordCount m)).any (fun j => govBit m j == b && f j)))
    (fun i => by simp only [b2n]; split <;> omega) 16 b).1
  unfold govPred
  rw [BitVec.getLsbD_ofNat, this]
  simp only [hb, decide_true, Bool.true_and, b2n]
  cases (List.range (wordCount m)).any (fun j => govBit m j == b && f j) <;> simp

end Sys2Proof.Machine
end

