-- ==== Sys2Proof/Laws/IsaShapes.lean ====
section
/-! SUPPORT. From the effect of an Isagil instruction to the claim of its shape (Machine/ClaimsIsa.lean): one lemma for
each shape, which leaves the instruction's own equation to prove. -/

namespace Sys2Proof.Machine

open Sys2Proof

/-- What a retired engine reads in a register is what the effect wrote there. -/
theorem vget_retired (g g0 : Eng) (c n r : Nat) :
    vget { advance { g0 with cycles := c } with fnt := { g.fnt with rowsDrawn := n } } r = vget g0 r := by
  obtain ⟨p, l, a, b, h⟩ := advance_shape { g0 with cycles := c }
  rw [h]; rfl

theorem cycles_retired (g g0 : Eng) (c n : Nat) :
    ({ advance { g0 with cycles := c } with fnt := { g.fnt with rowsDrawn := n } } : Eng).cycles = c := by
  show (advance _).cycles = _
  rw [advance_cycles]

theorem secCount_any (ts : List Tag) : anySecret ts = decide (0 < secCount ts) := by
  unfold anySecret secCount
  induction ts with
  | nil => rfl
  | cons t r ih => cases h : t.secret <;> simp [h, ih]

theorem vectorClaim_of {i : IsaX → Instr} {op : IsaOp} {f : IsaEnv → Eng → BitVec 32 → EngRes} {c : IsaX → State → Cost}
    {ok : IsaX → State → Bool} {m : IsaX → State → Mode} {k : IsaX → State → Kind} {src : IsaX → State → List Tag}
    {row : IsaX → State → Row} (hi : ∀ x s, exec (i x) s = isaRun op f x s) (hj : plainOp op = true)
    (hka : ∀ x s, k x s ≠ .any)
    (hf : ∀ x s, ok x s = true → kindsFit (k x s) (src x s) = true → ∃ ts, secCount ts = secCount (src x s)
      ∧ f (envAt x s) (engOf x s) x.w = maskedRetire (m x s) (engOf x s) x.w (wD x.w) (row x s) (outTag (k x s) (src x s)) (k x s)
          (c x s).1 (c x s).2.1 (c x s).2.2.1 (c x s).2.2.2 ts) :
    vectorClaim i op c ok m k src row := by
  intro x s hat hm hok hk hg
  obtain ⟨ts, hts, hr⟩ := hf x s hok hk
  have hfit : (if (outTag (k x s) (src x s)).secret then (outTag (k x s) (src x s)).kind else k x s) = .any
      ∨ govFits (if (outTag (k x s) (src x s)).secret then (outTag (k x s) (src x s)).kind else k x s)
          (engOf x s) x.w (wD x.w) = true := by
    right
    unfold outTag; cases h : (src x s).any (·.secret) <;> simpa using hg
  obtain ⟨t', k', hput, hsec, hfull⟩ := maskedPut_some (m := m x s) (g := engOf x s) (g0 := engOf x s) (w := x.w)
    (d := wD x.w) (new := row x s) rfl rfl hfit
  unfold maskedRetire at hr
  rw [hput] at hr
  apply isaRun_retire (hi x s) hat hj hr rfl ⟨rfl, rfl⟩
  · rw [hts]; exact mask_or hm rfl rfl rfl
  · intro n
    refine ⟨wroteV_of rfl ?_ ?_, ?_, ?_⟩
    · intro d hd
      simp at hd; subst hd
      rw [vget_putV]; simp [hsec, anySecret]
    · intro r hr; simp at hr; rw [vget_putV]; simp [hr]
    · intro hp
      obtain ⟨rfl, rfl⟩ := hfull hp
      rw [vget_retired, vget_putV]; simp [made, hka x s]
    · rw [cycles_retired, hts]
      exact congrArg _ (costOf_profile rfl ..)

theorem carryClaim_of {i : IsaX → Instr} {op : IsaOp} {f : IsaEnv → Eng → BitVec 32 → EngRes}
    {ok : IsaX → State → Bool} {m : IsaX → State → Mode} {src : IsaX → State → List Tag}
    {row : IsaX → State → Row} (hi : ∀ x s, exec (i x) s = isaRun op f x s) (hj : plainOp op = true)
    (hf : ∀ x s k, ok x s = true → joinKind (src x s) = some k →
      f (envAt x s) (engOf x s) x.w = maskedRetire (m x s) (engOf x s) x.w (wD x.w) (row x s) (carryTag k (src x s)) .any
          .linear 1 2 3 (src x s)) :
    carryClaim i op ok m src row := by
  intro x s k hat hm hok hk hg
  have hr := hf x s k hok hk
  have hfit : (if (carryTag k (src x s)).secret then (carryTag k (src x s)).kind else .any) = .any
      ∨ govFits (if (carryTag k (src x s)).secret then (carryTag k (src x s)).kind else .any)
          (engOf x s) x.w (wD x.w) = true := by
    unfold anySecret at hg
    unfold carryTag
    cases h : (src x s).any (·.secret)
    · left; simp [pubTag]
    · by_cases hka : k = .any
      · left; simp [hka]
      · right; simpa using hg h hka
  obtain ⟨t', k', hput, hsec, hfull⟩ := maskedPut_some (m := m x s) (g := engOf x s) (g0 := engOf x s) (w := x.w)
    (d := wD x.w) (new := row x s) rfl rfl hfit
  unfold maskedRetire at hr
  rw [hput] at hr
  apply isaRun_retire (hi x s) hat hj hr rfl ⟨rfl, rfl⟩
  · exact mask_or (g := engOf x s) (c := (.linear, 1, 2, 3)) hm rfl rfl rfl
  · intro n
    refine ⟨wroteV_of rfl ?_ ?_, ?_, ?_⟩
    · intro d hd
      simp at hd; subst hd
      rw [vget_putV]; simp [hsec, anySecret]
    · intro r hr; simp at hr; rw [vget_putV]; simp [hr]
    · intro hp
      obtain ⟨rfl, rfl⟩ := hfull hp
      rw [vget_retired, vget_putV]; simp [carried]
    · rw [cycles_retired]
      exact congrArg _ (costOf_profile rfl ..)

theorem pairClaim_of {i : IsaX → Instr} {op : IsaOp} {f : IsaEnv → Eng → BitVec 32 → EngRes} {c : IsaX → State → Cost}
    {ok : IsaX → State → Bool} {m : IsaX → State → Mode} {k : IsaX → State → Kind} {d2 : IsaX → Nat}
    {src : IsaX → State → List Tag} {row1 row2 : IsaX → State → Row}
    (hi : ∀ x s, exec (i x) s = isaRun op f x s) (hj : plainOp op = true)
    (hd : ∀ x s, ok x s = true → d2 x ≠ wD x.w) (hka : ∀ x s, k x s ≠ .any)
    (hf : ∀ x s g1 g2, ok x s = true → kindsFit (k x s) (src x s) = true →
      maskedPut (m x s) (engOf x s) x.w (wD x.w) (row1 x s) (outTag (k x s) (src x s)) (k x s) = some g1 →
      maskedPut (m x s) g1 x.w (d2 x) (row2 x s) (outTag (k x s) (src x s)) (k x s) = some g2 → ∃ ts,
      secCount ts = secCount (src x s)
      ∧ f (envAt x s) (engOf x s) x.w = retirePs x.w g2 (pget (engOf x s) (wPs x.w))
          (c x s).1 (c x s).2.1 (c x s).2.2.1 (c x s).2.2.2 ts) :
    pairClaim i op c ok m k d2 src row1 row2 := by
  intro x s hat hm hok hk hg1 hg2
  have hne := hd x s hok
  have fits : ∀ d, govFits (k x s) (engOf x s) x.w d = true →
      (if (outTag (k x s) (src x s)).secret then (outTag (k x s) (src x s)).kind else k x s) = .any
      ∨ govFits (if (outTag (k x s) (src x s)).secret then (outTag (k x s) (src x s)).kind else k x s)
          (engOf x s) x.w d = true := by
    intro d hg
    right
    unfold outTag; cases h : (src x s).any (·.secret) <;> simpa using hg
  obtain ⟨t1, k1, hput1, hsec1, hfull1⟩ := maskedPut_some (m := m x s) (g := engOf x s) (g0 := engOf x s) (w := x.w)
    (d := wD x.w) (new := row1 x s) rfl rfl (fits _ hg1)
  obtain ⟨t2, k2, hput2, hsec2, hfull2⟩ := maskedPut_some (m := m x s)
    (g := putV (engOf x s) (wD x.w) (governed (m x s) (engOf x s) x.w (wD x.w) (row1 x s)) t1 k1) (g0 := engOf x s) (w := x.w)
    (d := d2 x) (new := row2 x s) rfl (by rw [vget_putV]; simp [hne]) (fits _ hg2)
  obtain ⟨ts, hts, hr⟩ := hf x s _ _ hok hk hput1 hput2
  have hsh : inShuffle (putV (engOf x s) (wD x.w) (governed (m x s) (engOf x s) x.w (wD x.w) (row1 x s)) t1 k1)
      = inShuffle (engOf x s) := rfl
  have h0 : ∀ (g1 : Eng) (d : Nat) (v : Row) (t : Tag) (k : Kind), g1.fnt = (engOf x s).fnt → g1.profile = (engOf x s).profile →
      g1.cycles = (engOf x s).cycles →
      { g1 with v := (engOf x s).v, everSecret := (engOf x s).everSecret } = engOf x s →
      (putV g1 d v t k).fnt = (engOf x s).fnt ∧ (putV g1 d v t k).profile = (engOf x s).profile
        ∧ (putV g1 d v t k).cycles = (engOf x s).cycles
        ∧ { putV g1 d v t k with v := (engOf x s).v, everSecret := (engOf x s).everSecret } = engOf x s :=
    fun _ _ _ _ _ a b c d => ⟨a, b, c, d⟩
  have h1 := h0 _ (wD x.w) (governed (m x s) (engOf x s) x.w (wD x.w) (row1 x s)) t1 k1 rfl rfl rfl rfl
  have h2 := h0 _ (d2 x) (governed (m x s) (engOf x s) x.w (d2 x) (row2 x s)) t2 k2 h1.1 h1.2.1 h1.2.2.1 h1.2.2.2
  have hv : ∀ r, vget (putV (putV (engOf x s) (wD x.w) (governed (m x s) (engOf x s) x.w (wD x.w) (row1 x s)) t1 k1) (d2 x)
        (governed (m x s) (engOf x s) x.w (d2 x) (row2 x s)) t2 k2) r
      = if r = d2 x then { val := governed (m x s) (engOf x s) x.w (d2 x) (row2 x s), tag := forceTag (engOf x s) t2 k2 }
        else if r = wD x.w then
          { val := governed (m x s) (engOf x s) x.w (wD x.w) (row1 x s), tag := forceTag (engOf x s) t1 k1 }
        else vget (engOf x s) r := by
    intro r
    rw [vget_putV, vget_putV]
    simp only [forceTag, hsh]
  generalize putV (putV (engOf x s) (wD x.w) (governed (m x s) (engOf x s) x.w (wD x.w) (row1 x s)) t1 k1) (d2 x)
        (governed (m x s) (engOf x s) x.w (d2 x) (row2 x s)) t2 k2 = g2 at hr h2 hv
  apply isaRun_retire (hi x s) hat hj hr h2.1 ⟨by have := congrArg Eng.masks h2.2.2.2; exact this, by have := congrArg Eng.grant h2.2.2.2; exact this⟩
  · rw [hts, h2.2.1]; exact mask_or hm h2.2.1 rfl rfl
  · intro n
    refine ⟨wroteV_of h2.2.2.2 ?_ ?_, ?_, ?_⟩
    · intro d hd
      simp at hd
      rcases hd with rfl | rfl
      · rw [hv]; simp [hsec1, anySecret, hne.symm]
      · rw [hv]; simp [hsec2, anySecret, hne]
    · intro r hr; simp at hr; rw [hv]; simp [hr]
    · intro hp d hd
      obtain ⟨rfl, rfl⟩ := hfull1 hp
      obtain ⟨rfl, rfl⟩ := hfull2 hp
      simp at hd
      rcases hd with rfl | rfl
      · rw [vget_retired, hv]; simp [made, hne.symm, hka x s]
      · rw [vget_retired, hv]; simp [made, hka x s]
    · rw [cycles_retired, hts, h2.2.2.1]
      exact congrArg _ (costOf_profile h2.2.1 ..)

/-- One register written whole, of an instruction of kind column `c`. -/
theorem writeClaim_of {i : IsaX → Instr} {op : IsaOp} {f : IsaEnv → Eng → BitVec 32 → EngRes} {c : Cost}
    {ok : IsaX → State → Bool} {src : IsaX → State → List Tag} {row : IsaX → State → Nat → Row} {tag : IsaX → State → Nat → Tag}
    (hi : ∀ x s, exec (i x) s = isaRun op f x s) (hj : plainOp op = true)
    (hf : ∀ x s, ok x s = true → ∃ ts t k, secCount ts = secCount (src x s) ∧ forceTag (engOf x s) t k = tag x s (wD x.w)
      ∧ f (envAt x s) (engOf x s) x.w = retire x.w (putV (engOf x s) (wD x.w) (row x s (wD x.w)) t k)
          c.1 c.2.1 c.2.2.1 c.2.2.2 ts) :
    writeClaim i op c ok (fun x _ => [wD x.w]) src row tag := by
  intro x s hat hm hok
  obtain ⟨ts, t, k, hts, ht, hr⟩ := hf x s hok
  unfold retire at hr
  apply isaRun_retire (hi x s) hat hj hr rfl ⟨rfl, rfl⟩
  · rw [hts]; exact mask_or_plain hm rfl rfl rfl
  · intro n
    refine ⟨wroteV_of rfl ?_ ?_, ?_, ?_⟩
    · intro d hd
      simp at hd; subst hd
      rw [vget_putV, ← ht]; simp
    · intro r hr; simp at hr; rw [vget_putV]; simp [hr]
    · intro d hd
      simp at hd; subst hd
      rw [vget_retired, vget_putV, ← ht]; simp
    · rw [cycles_retired, hts]
      exact congrArg _ (costOf_profile rfl ..)

theorem compareClaim_of {i : IsaX → Instr} {op : IsaOp} {f : IsaEnv → Eng → BitVec 32 → EngRes}
    {ok : IsaX → State → Bool} {src : IsaX → State → List Tag} {h : IsaX → State → Nat → Bool}
    (hi : ∀ x s, exec (i x) s = isaRun op f x s) (hj : plainOp op = true)
    (hf : ∀ x s, wD x.w < 4 → wPs x.w = 0 → ok x s = true →
      f (envAt x s) (engOf x s) x.w = retire x.w (putP (engOf x s) (wD x.w) (govPred (qX x s).mode (h x s)) (outTag .bool (src x s)))
          .gadget 1 6 14 (src x s)) :
    compareClaim i op ok src h := by
  intro x s hat hm hd hps hok
  have hr := hf x s hd hps hok
  have hb := govPred_bit (qX x s).mode (h x s)
  generalize govPred (qX x s).mode (h x s) = v at hr hb
  unfold retire at hr
  apply isaRun_retire (hi x s) hat hj hr rfl ⟨rfl, rfl⟩
  · exact mask_or_plain (c := (.gadget, 1, 6, 14)) hm rfl rfl rfl
  · intro n
    refine ⟨?_, v, wroteP_of rfl rfl, hb⟩
    rw [cycles_retired]
    exact congrArg _ (costOf_profile rfl ..)

/-- A scalar written, of an instruction of kind column `c`. -/
theorem scalarRetires_of {i : IsaX → Instr} {op : IsaOp} {f : IsaEnv → Eng → BitVec 32 → EngRes} {c : Cost} {x : IsaX} {s : State}
    {ts : List Tag} {v v' : Nat} {t t' : Tag} {k : Kind} (hi : exec (i x) s = isaRun op f x s) (hat : atPc op x s = true)
    (hj : plainOp op = true) (hm : mayRun (engOf x s) c ts false = true)
    (hr : f (envAt x s) (engOf x s) x.w = retire x.w (putS (engOf x s) (wD x.w) v' t' k) c.1 c.2.1 c.2.2.1 c.2.2.2 ts)
    (ht : forceTag (engOf x s) t' k = t) (hv : BitVec.ofNat 28 v' = BitVec.ofNat 28 v) :
    scalarRetires (i x) x s c ts v t := by
  unfold retire at hr
  apply isaRun_retire hi hat hj hr rfl ⟨rfl, rfl⟩
  · exact mask_or_plain hm rfl rfl rfl
  · intro n
    refine ⟨wroteS_of ht hv, ?_⟩
    rw [cycles_retired]
    exact congrArg _ (costOf_profile rfl ..)

theorem predicateRetires_of {i : IsaX → Instr} {op : IsaOp} {f : IsaEnv → Eng → BitVec 32 → EngRes} {c : Cost} {x : IsaX}
    {s : State} {ts : List Tag} {v v' : BitVec 16} {t t' : Tag} (hi : exec (i x) s = isaRun op f x s) (hat : atPc op x s = true)
    (hj : plainOp op = true) (hm : mayRun (engOf x s) c ts false = true)
    (hr : f (envAt x s) (engOf x s) x.w = retire x.w (putP (engOf x s) (wD x.w) v' t') c.1 c.2.1 c.2.2.1 c.2.2.2 ts)
    (ht : forceTag (engOf x s) t' .bool = t) (hv : v' = v) :
    predicateRetires (i x) x s c ts v t := by
  unfold retire at hr
  apply isaRun_retire hi hat hj hr rfl ⟨rfl, rfl⟩
  · exact mask_or_plain hm rfl rfl rfl
  · intro n
    refine ⟨wroteP_of ht hv, ?_⟩
    rw [cycles_retired]
    exact congrArg _ (costOf_profile rfl ..)

end Sys2Proof.Machine
end

