-- ==== Sys2Proof/Laws/Jobs.lean ====
section
/-! SUPPORT. Jobs: what their table reads after a write, what the operations on a job's way to its end leave alone, what an
abort does (06_engine_model.md R175). -/

namespace Sys2Proof.Machine

theorem getJob_setJob (s : State) (n m : Nat) (j : Job) : getJob (setJob s n j) m = if m = n then some j else getJob s m :=
  kfind_kins _ _ _ _
theorem getJob_dropJob (s : State) (n m : Nat) : getJob (dropJob s n) m = if m = n then none else getJob s m :=
  kfind_kdel _ _ _
theorem getJob_congr {s t : State} (h : t.gth.jobs = s.gth.jobs) (n : Nat) : getJob t n = getJob s n := by
  unfold getJob; rw [h]
@[simp] theorem getBne_setBne_self (s : State) (b : Nat) (g : BnEng) : getBne (setBne s b g) b = g := by
  simp [getBne, setBne]
theorem getBne_setBne_ne (s : State) {b i : Nat} (g : BnEng) (h : i ≠ b) : getBne (setBne s b g) i = getBne s i := by
  simp [getBne, setBne, kget_kset, h]

/-- Nothing but the key store, streams, ciphers' contexts and counters, recorder, counters, output and pending MSI-X bits
differs: what the end of a job touches beside the table of jobs. -/
def Ends (s t : State) : Prop :=
  t = { s with kst := t.kst, gth := { s.gth with streams := t.gth.streams, pba := t.gth.pba }, dgs := t.dgs, evt := t.evt,
               pmc := t.pmc, out := t.out } ∧ Grows s t

theorem Ends.trans {s t u : State} (h : Ends s t) (k : Ends t u) : Ends s u := by
  obtain ⟨h, hg⟩ := h; obtain ⟨k, kg⟩ := k; refine ⟨?_, hg.trans kg⟩; rw [k, h]
theorem Ends.refl (s : State) : Ends s s := ⟨rfl, .refl s⟩
theorem ends_quiet {s t : State} (h : Quiet s t) (g : Grows s t) : Ends s t := ⟨by unfold Quiet at h; rw [h], g⟩

theorem dropWaiting_ends (s : State) (b : Nat) : Ends s (dropWaiting s b) := by
  unfold dropWaiting putObj; split <;> exact ⟨rfl, .of_eq rfl⟩

theorem dropUses_ends (s : State) (j : Job) : Ends s (dropUses s j) := by
  unfold dropUses
  cases j.useA <;> cases j.useB <;> dsimp only
  · exact .refl s
  · exact dropWaiting_ends _ _
  · exact dropWaiting_ends _ _
  · exact (dropWaiting_ends _ _).trans (dropWaiting_ends _ _)

theorem closeStream_ends (s : State) (fn no : Nat) : Ends s (closeStream s fn no) := by
  unfold closeStream dropStream; split <;> exact ⟨rfl, .of_eq rfl⟩

theorem streamAfter_ends (s : State) (j : Job) (st : Nat) : Ends s (streamAfter s j st) := by
  unfold streamAfter; split
  · exact closeStream_ends _ _ _
  · exact .refl s

theorem pmcPav_ends (s : State) (p i n : Nat) : Ends s (pmcPav s p i n) := ends_quiet (pmcPav_quiet s p i n) (pmcPav_grows s p i n)

theorem countEnd_ends (s : State) (j : Job) (st : Nat) : Ends s (countEnd s j st) := by
  unfold countEnd; dsimp only; split
  · exact .refl s
  · split
    · exact ((pmcPav_ends _ _ _ _).trans (pmcPav_ends _ _ _ _)).trans (pmcPav_ends _ _ _ _)
    · exact (pmcPav_ends _ _ _ _).trans (pmcPav_ends _ _ _ _)

/-- Nothing of the time or the key store differs, and of the gatehouse pending MSI-X bits alone: what the scrub of parts
touches. -/
def Parts (s t : State) : Prop :=
  t = { s with eng := t.eng, pav := t.pav, bne := t.bne, gth := { s.gth with pba := t.gth.pba }, evt := t.evt, pmc := t.pmc,
               out := t.out } ∧ Grows s t

theorem Parts.trans {s t u : State} (h : Parts s t) (k : Parts t u) : Parts s u := by
  obtain ⟨h, hg⟩ := h; obtain ⟨k, kg⟩ := k; refine ⟨?_, hg.trans kg⟩; rw [k, h]
theorem Parts.refl (s : State) : Parts s s := ⟨rfl, .refl s⟩
theorem parts_quiet {s t : State} (h : Quiet s t) (g : Grows s t) : Parts s t := ⟨by unfold Quiet at h; rw [h], g⟩

theorem record_parts (s : State) (ty src sev : Nat) (tn : Option Nat) (pay : Bytes) : Parts s (record s ty src sev tn pay) :=
  parts_quiet (record_quiet _ _ _ _ _ _) (record_grows _ _ _ _ _ _)

theorem pavInt_parts (s : State) (p b : Nat) : Parts s (pavInt s p b) := by
  unfold pavInt
  dsimp only
  have h : ∀ v, Parts s (setPav s p v) := fun v => ⟨rfl, .of_eq rfl⟩
  exact (h _).trans (parts_quiet (vectorFor_quiet _ _ _ _) (vectorFor_grows _ _ _ _))

theorem engScrub_parts (s : State) (e dt : Nat) (bit : Option Nat) : Parts s (engScrub s e dt bit) := by
  unfold engScrub
  have h : ∀ g v, Parts s (setPav (setEng s e g) (e / 17) v) := fun g v => ⟨rfl, .of_eq rfl⟩
  dsimp only
  split
  · exact (h _ _).trans (pavInt_parts _ _ _)
  · exact h _ _

theorem bneScrub_parts (s : State) (b dt : Nat) : Parts s (bneScrub s b dt) := ⟨rfl, .of_eq rfl⟩

theorem scrubParts_parts (s : State) (j : Job) (ev dt : Nat) (bit : Option Nat) (core : Nat) :
    Parts s (scrubParts s j ev dt bit core) := by
  unfold scrubParts
  cases j.part with
  | none => exact .refl s
  | some x =>
    dsimp only
    split
    · cases j.part2 with
      | none => exact (bneScrub_parts _ _ _).trans (record_parts _ _ _ _ _ _)
      | some y => exact ((bneScrub_parts _ _ _).trans (bneScrub_parts _ _ _)).trans (record_parts _ _ _ _ _ _)
    · exact (engScrub_parts _ _ _ _).trans (record_parts _ _ _ _ _ _)

theorem record_eng (s : State) (ty src sev : Nat) (tn : Option Nat) (pay : Bytes) : (record s ty src sev tn pay).eng = s.eng := by
  rw [record_quiet]
theorem record_bne (s : State) (ty src sev : Nat) (tn : Option Nat) (pay : Bytes) : (record s ty src sev tn pay).bne = s.bne := by
  rw [record_quiet]

theorem vectorFor_eng (s : State) (a b v : Nat) : (vectorFor s a b v).eng = s.eng := by rw [vectorFor_msg]
theorem vectorFor_bne (s : State) (a b v : Nat) : (vectorFor s a b v).bne = s.bne := by rw [vectorFor_msg]

theorem engScrub_eng (s : State) (e dt : Nat) (bit : Option Nat) : (engScrub s e dt bit).eng = (setEng s e { getEng s e with
    st := .scrubbing, faultDetail := dt, faultCount := satInc 16 (getEng s e).faultCount, job := none, staging := [],
    drained := [], want := .none, grant := none }).eng ∧ (engScrub s e dt bit).bne = s.bne := by
  unfold engScrub
  dsimp only
  split
  · unfold pavInt; dsimp only; rw [vectorFor_eng, vectorFor_bne]; exact ⟨rfl, rfl⟩
  · exact ⟨rfl, rfl⟩

/-- What the scrub of a job's parts does to them. -/
theorem scrubParts_eng (s : State) (j : Job) (ev dt : Nat) (bit : Option Nat) (core x : Nat) (h : j.part = some x)
    (hp : isPool j = false) :
    let t := scrubParts s j ev dt bit core
    (getEng t x).st = .scrubbing ∧ (getEng t x).faultDetail = dt ∧ (getEng t x).job = none ∧ t.bne = s.bne
      ∧ ∀ y, y ≠ x → getEng t y = getEng s y := by
  intro t
  have ht : t = record (engScrub s x dt bit) (0x0500 + ev) x sevFault (recTenant s j.cmd.fn)
      (engPayload 1 x dt core j.prog j.cmd.desc.tag) := by
    simp only [t, scrubParts, h, hp]; rfl
  obtain ⟨h1, h2⟩ := engScrub_eng s x dt bit
  have e1 := (congrArg State.eng ht).trans ((record_eng _ _ _ _ _ _).trans h1)
  have get : ∀ y, getEng t y = getEng (setEng s x { getEng s x with
      st := .scrubbing, faultDetail := dt, faultCount := satInc 16 (getEng s x).faultCount, job := none, staging := [],
      drained := [], want := .none, grant := none }) y := by
    intro y; unfold getEng; rw [e1]; rfl
  refine ⟨by rw [get]; simp, by rw [get]; simp, by rw [get]; simp,
    (congrArg State.bne ht).trans ((record_bne _ _ _ _ _ _).trans h2), fun y hy => ?_⟩
  rw [get, getEng_setEng_ne _ _ hy]

theorem scrubParts_bne (s : State) (j : Job) (ev dt : Nat) (bit : Option Nat) (core x : Nat) (h : j.part = some x)
    (hp : isPool j = true) :
    let t := scrubParts s j ev dt bit core
    (getBne t x).st = .scrubbing ∧ (getBne t x).faultDetail = dt ∧ (getBne t x).job = none ∧ t.eng = s.eng := by
  intro t
  obtain ⟨u, hu⟩ : ∃ u, u = (match j.part2 with
    | some y => bneScrub (bneScrub s x dt) y dt
    | none => bneScrub s x dt) := ⟨_, rfl⟩
  have ht : t = record u (0x0600 + ev) x sevFault (recTenant s j.cmd.fn) (engPayload 3 x dt 0 j.prog j.cmd.desc.tag) := by
    rw [hu]; simp only [t, scrubParts, h, hp]; rfl
  have get : ∀ y, getBne t y = getBne u y := by intro y; unfold getBne; rw [ht, record_bne]
  have he : t.eng = u.eng := by rw [ht, record_eng]
  rw [get, he, hu]
  cases j.part2 with
  | none => simp [bneScrub]; rfl
  | some y =>
    by_cases hy : x = y
    · subst hy; simp [bneScrub]; rfl
    · simp [bneScrub, getBne_setBne_ne _ _ hy]; rfl

/-- An abort of a listed job (R175). -/
theorem abortJob_aborts (s : State) (n : Nat) (j : Job) (st dt due : Nat) (h : getJob s n = some j) :
    aborts s n j st dt due (abortJob s n st dt due)
      ∧ (abortJob s n st dt due).sdl = s.sdl ∧ (abortJob s n st dt due).tick = s.tick
      ∧ Grows s (abortJob s n st dt due) := by
  obtain ⟨s1, hs1⟩ : ∃ s1, s1 = if j.phase = .running then scrubParts s j 2 dt (some 1) 0 else s := ⟨_, rfl⟩
  have p1 : Parts s s1 := by
    rw [hs1]; split
    · exact scrubParts_parts _ _ _ _ _ _
    · exact .refl s
  obtain ⟨s2, hs2⟩ : ∃ s2, s2 = setJob (dropCtx (dropUses s1 j) n) n (abortedJob s j st dt due) := ⟨_, rfl⟩
  have ht : abortJob s n st dt due = countEnd (streamAfter s2 j st) j st := by
    rw [hs2, hs1]
    unfold abortJob abortedJob
    rw [h]
    dsimp only
    congr 2
    by_cases hr : j.phase = .running <;> cases hp : j.part <;> simp [hr]
  have e1 : Ends s1 (dropCtx (dropUses s1 j) n) := (dropUses_ends _ _).trans ⟨rfl, .of_eq rfl⟩
  have e2 : Ends s2 (countEnd (streamAfter s2 j st) j st) := (streamAfter_ends _ _ _).trans (countEnd_ends _ _ _)
  rw [← ht] at e2
  generalize abortJob s n st dt due = t at *
  have jobs : t.gth.jobs = s2.gth.jobs := by rw [e2.1]
  have eng : t.eng = s1.eng := by rw [e2.1]; show s2.eng = _; rw [hs2]; show (dropCtx (dropUses s1 j) n).eng = _; rw [e1.1]
  have bne : t.bne = s1.bne := by rw [e2.1]; show s2.bne = _; rw [hs2]; show (dropCtx (dropUses s1 j) n).bne = _; rw [e1.1]
  have old : ∀ m, getJob (dropCtx (dropUses s1 j) n) m = getJob s m := by
    intro m; apply getJob_congr; rw [e1.1]; show s1.gth.jobs = _; rw [p1.1]
  refine ⟨⟨?_, ?_, ?_, ?_⟩, ?_, ?_, ?_⟩
  · rw [getJob_congr jobs, hs2, getJob_setJob, if_pos rfl]
  · intro m hm; rw [getJob_congr jobs, hs2, getJob_setJob, if_neg hm, old]
  · intro hr; rw [eng, bne, hs1, if_neg hr]; exact ⟨rfl, rfl⟩
  · intro x hr hx
    have ge : ∀ y, getEng t y = getEng s1 y := by intro y; unfold getEng; rw [eng]
    have gb : ∀ y, getBne t y = getBne s1 y := by intro y; unfold getBne; rw [bne]
    rw [if_pos hr] at hs1
    split
    · rename_i hp
      rw [gb, eng, hs1]; exact scrubParts_bne s j 2 dt (some 1) 0 x hx hp
    · rename_i hp
      obtain ⟨a, b, c, d, f⟩ := scrubParts_eng s j 2 dt (some 1) 0 x hx (by simpa using hp)
      rw [← hs1] at a b c d f
      refine ⟨by rw [ge]; exact a, by rw [ge]; exact b, by rw [ge]; exact c, by rw [bne]; exact d, fun y hy => ?_⟩
      rw [ge]; exact f y hy
  · rw [e2.1]; show s2.sdl = _; rw [hs2]; show (dropCtx (dropUses s1 j) n).sdl = _; rw [e1.1]; show s1.sdl = _; rw [p1.1]
  · rw [e2.1]; show s2.tick = _; rw [hs2]; show (dropCtx (dropUses s1 j) n).tick = _; rw [e1.1]; show s1.tick = _; rw [p1.1]
  · have g2 : Grows (dropCtx (dropUses s1 j) n) s2 := .of_eq (by rw [hs2]; rfl)
    exact ((p1.2.trans e1.2).trans g2).trans e2.2

end Sys2Proof.Machine
end

