-- ==== Sys2Proof/Laws/State.lean ====
section
/-! SUPPORT. One update per field of State and, for each, what it changes and what it leaves: true by rfl, tagged simp,
so that no proof unfolds a record update. -/

namespace Sys2Proof.Machine

@[simp] theorem State.with_tick_tick (s : State) (v : Nat) : ({ s with tick := v } : State).tick = v := rfl
@[simp] theorem State.with_tick_sdl (s : State) (v : Nat) : ({ s with tick := v } : State).sdl = s.sdl := rfl
@[simp] theorem State.with_tick_gth (s : State) (v : Nat) : ({ s with tick := v } : State).gth = s.gth := rfl
@[simp] theorem State.with_tick_kst (s : State) (v : Nat) : ({ s with tick := v } : State).kst = s.kst := rfl
@[simp] theorem State.with_tick_aut (s : State) (v : Nat) : ({ s with tick := v } : State).aut = s.aut := rfl
@[simp] theorem State.with_tick_peat (s : State) (v : Nat) : ({ s with tick := v } : State).peat = s.peat := rfl
@[simp] theorem State.with_tick_eng (s : State) (v : Nat) : ({ s with tick := v } : State).eng = s.eng := rfl
@[simp] theorem State.with_tick_pav (s : State) (v : Nat) : ({ s with tick := v } : State).pav = s.pav := rfl
@[simp] theorem State.with_tick_lib (s : State) (v : Nat) : ({ s with tick := v } : State).lib = s.lib := rfl
@[simp] theorem State.with_tick_bne (s : State) (v : Nat) : ({ s with tick := v } : State).bne = s.bne := rfl
@[simp] theorem State.with_tick_dgs (s : State) (v : Nat) : ({ s with tick := v } : State).dgs = s.dgs := rfl
@[simp] theorem State.with_tick_rng (s : State) (v : Nat) : ({ s with tick := v } : State).rng = s.rng := rfl
@[simp] theorem State.with_tick_prk (s : State) (v : Nat) : ({ s with tick := v } : State).prk = s.prk := rfl
@[simp] theorem State.with_tick_ten (s : State) (v : Nat) : ({ s with tick := v } : State).ten = s.ten := rfl
@[simp] theorem State.with_tick_ldg (s : State) (v : Nat) : ({ s with tick := v } : State).ldg = s.ldg := rfl
@[simp] theorem State.with_tick_mpu (s : State) (v : Nat) : ({ s with tick := v } : State).mpu = s.mpu := rfl
@[simp] theorem State.with_tick_pwr (s : State) (v : Nat) : ({ s with tick := v } : State).pwr = s.pwr := rfl
@[simp] theorem State.with_tick_tmp (s : State) (v : Nat) : ({ s with tick := v } : State).tmp = s.tmp := rfl
@[simp] theorem State.with_tick_lcs (s : State) (v : Nat) : ({ s with tick := v } : State).lcs = s.lcs := rfl
@[simp] theorem State.with_tick_dbg (s : State) (v : Nat) : ({ s with tick := v } : State).dbg = s.dbg := rfl
@[simp] theorem State.with_tick_tap (s : State) (v : Nat) : ({ s with tick := v } : State).tap = s.tap := rfl
@[simp] theorem State.with_tick_boot (s : State) (v : Nat) : ({ s with tick := v } : State).boot = s.boot := rfl
@[simp] theorem State.with_tick_evt (s : State) (v : Nat) : ({ s with tick := v } : State).evt = s.evt := rfl
@[simp] theorem State.with_tick_pmc (s : State) (v : Nat) : ({ s with tick := v } : State).pmc = s.pmc := rfl
@[simp] theorem State.with_tick_rep (s : State) (v : Nat) : ({ s with tick := v } : State).rep = s.rep := rfl
@[simp] theorem State.with_tick_latch (s : State) (v : Nat) : ({ s with tick := v } : State).latch = s.latch := rfl
@[simp] theorem State.with_tick_freeCtr (s : State) (v : Nat) : ({ s with tick := v } : State).freeCtr = s.freeCtr := rfl
@[simp] theorem State.with_tick_out (s : State) (v : Nat) : ({ s with tick := v } : State).out = s.out := rfl
@[simp] theorem State.with_tick_pending (s : State) (v : Nat) : ({ s with tick := v } : State).pending = s.pending := rfl
@[simp] theorem State.with_sdl_tick (s : State) (v : Sdl) : ({ s with sdl := v } : State).tick = s.tick := rfl
@[simp] theorem State.with_sdl_sdl (s : State) (v : Sdl) : ({ s with sdl := v } : State).sdl = v := rfl
@[simp] theorem State.with_sdl_gth (s : State) (v : Sdl) : ({ s with sdl := v } : State).gth = s.gth := rfl
@[simp] theorem State.with_sdl_kst (s : State) (v : Sdl) : ({ s with sdl := v } : State).kst = s.kst := rfl
@[simp] theorem State.with_sdl_aut (s : State) (v : Sdl) : ({ s with sdl := v } : State).aut = s.aut := rfl
@[simp] theorem State.with_sdl_peat (s : State) (v : Sdl) : ({ s with sdl := v } : State).peat = s.peat := rfl
@[simp] theorem State.with_sdl_eng (s : State) (v : Sdl) : ({ s with sdl := v } : State).eng = s.eng := rfl
@[simp] theorem State.with_sdl_pav (s : State) (v : Sdl) : ({ s with sdl := v } : State).pav = s.pav := rfl
@[simp] theorem State.with_sdl_lib (s : State) (v : Sdl) : ({ s with sdl := v } : State).lib = s.lib := rfl
@[simp] theorem State.with_sdl_bne (s : State) (v : Sdl) : ({ s with sdl := v } : State).bne = s.bne := rfl
@[simp] theorem State.with_sdl_dgs (s : State) (v : Sdl) : ({ s with sdl := v } : State).dgs = s.dgs := rfl
@[simp] theorem State.with_sdl_rng (s : State) (v : Sdl) : ({ s with sdl := v } : State).rng = s.rng := rfl
@[simp] theorem State.with_sdl_prk (s : State) (v : Sdl) : ({ s with sdl := v } : State).prk = s.prk := rfl
@[simp] theorem State.with_sdl_ten (s : State) (v : Sdl) : ({ s with sdl := v } : State).ten = s.ten := rfl
@[simp] theorem State.with_sdl_ldg (s : State) (v : Sdl) : ({ s with sdl := v } : State).ldg = s.ldg := rfl
@[simp] theorem State.with_sdl_mpu (s : State) (v : Sdl) : ({ s with sdl := v } : State).mpu = s.mpu := rfl
@[simp] theorem State.with_sdl_pwr (s : State) (v : Sdl) : ({ s with sdl := v } : State).pwr = s.pwr := rfl
@[simp] theorem State.with_sdl_tmp (s : State) (v : Sdl) : ({ s with sdl := v } : State).tmp = s.tmp := rfl
@[simp] theorem State.with_sdl_lcs (s : State) (v : Sdl) : ({ s with sdl := v } : State).lcs = s.lcs := rfl
@[simp] theorem State.with_sdl_dbg (s : State) (v : Sdl) : ({ s with sdl := v } : State).dbg = s.dbg := rfl
@[simp] theorem State.with_sdl_tap (s : State) (v : Sdl) : ({ s with sdl := v } : State).tap = s.tap := rfl
@[simp] theorem State.with_sdl_boot (s : State) (v : Sdl) : ({ s with sdl := v } : State).boot = s.boot := rfl
@[simp] theorem State.with_sdl_evt (s : State) (v : Sdl) : ({ s with sdl := v } : State).evt = s.evt := rfl
@[simp] theorem State.with_sdl_pmc (s : State) (v : Sdl) : ({ s with sdl := v } : State).pmc = s.pmc := rfl
@[simp] theorem State.with_sdl_rep (s : State) (v : Sdl) : ({ s with sdl := v } : State).rep = s.rep := rfl
@[simp] theorem State.with_sdl_latch (s : State) (v : Sdl) : ({ s with sdl := v } : State).latch = s.latch := rfl
@[simp] theorem State.with_sdl_freeCtr (s : State) (v : Sdl) : ({ s with sdl := v } : State).freeCtr = s.freeCtr := rfl
@[simp] theorem State.with_sdl_out (s : State) (v : Sdl) : ({ s with sdl := v } : State).out = s.out := rfl
@[simp] theorem State.with_sdl_pending (s : State) (v : Sdl) : ({ s with sdl := v } : State).pending = s.pending := rfl
@[simp] theorem State.with_gth_tick (s : State) (v : Gth) : ({ s with gth := v } : State).tick = s.tick := rfl
@[simp] theorem State.with_gth_sdl (s : State) (v : Gth) : ({ s with gth := v } : State).sdl = s.sdl := rfl
@[simp] theorem State.with_gth_gth (s : State) (v : Gth) : ({ s with gth := v } : State).gth = v := rfl
@[simp] theorem State.with_gth_kst (s : State) (v : Gth) : ({ s with gth := v } : State).kst = s.kst := rfl
@[simp] theorem State.with_gth_aut (s : State) (v : Gth) : ({ s with gth := v } : State).aut = s.aut := rfl
@[simp] theorem State.with_gth_peat (s : State) (v : Gth) : ({ s with gth := v } : State).peat = s.peat := rfl
@[simp] theorem State.with_gth_eng (s : State) (v : Gth) : ({ s with gth := v } : State).eng = s.eng := rfl
@[simp] theorem State.with_gth_pav (s : State) (v : Gth) : ({ s with gth := v } : State).pav = s.pav := rfl
@[simp] theorem State.with_gth_lib (s : State) (v : Gth) : ({ s with gth := v } : State).lib = s.lib := rfl
@[simp] theorem State.with_gth_bne (s : State) (v : Gth) : ({ s with gth := v } : State).bne = s.bne := rfl
@[simp] theorem State.with_gth_dgs (s : State) (v : Gth) : ({ s with gth := v } : State).dgs = s.dgs := rfl
@[simp] theorem State.with_gth_rng (s : State) (v : Gth) : ({ s with gth := v } : State).rng = s.rng := rfl
@[simp] theorem State.with_gth_prk (s : State) (v : Gth) : ({ s with gth := v } : State).prk = s.prk := rfl
@[simp] theorem State.with_gth_ten (s : State) (v : Gth) : ({ s with gth := v } : State).ten = s.ten := rfl
@[simp] theorem State.with_gth_ldg (s : State) (v : Gth) : ({ s with gth := v } : State).ldg = s.ldg := rfl
@[simp] theorem State.with_gth_mpu (s : State) (v : Gth) : ({ s with gth := v } : State).mpu = s.mpu := rfl
@[simp] theorem State.with_gth_pwr (s : State) (v : Gth) : ({ s with gth := v } : State).pwr = s.pwr := rfl
@[simp] theorem State.with_gth_tmp (s : State) (v : Gth) : ({ s with gth := v } : State).tmp = s.tmp := rfl
@[simp] theorem State.with_gth_lcs (s : State) (v : Gth) : ({ s with gth := v } : State).lcs = s.lcs := rfl
@[simp] theorem State.with_gth_dbg (s : State) (v : Gth) : ({ s with gth := v } : State).dbg = s.dbg := rfl
@[simp] theorem State.with_gth_tap (s : State) (v : Gth) : ({ s with gth := v } : State).tap = s.tap := rfl
@[simp] theorem State.with_gth_boot (s : State) (v : Gth) : ({ s with gth := v } : State).boot = s.boot := rfl
@[simp] theorem State.with_gth_evt (s : State) (v : Gth) : ({ s with gth := v } : State).evt = s.evt := rfl
@[simp] theorem State.with_gth_pmc (s : State) (v : Gth) : ({ s with gth := v } : State).pmc = s.pmc := rfl
@[simp] theorem State.with_gth_rep (s : State) (v : Gth) : ({ s with gth := v } : State).rep = s.rep := rfl
@[simp] theorem State.with_gth_latch (s : State) (v : Gth) : ({ s with gth := v } : State).latch = s.latch := rfl
@[simp] theorem State.with_gth_freeCtr (s : State) (v : Gth) : ({ s with gth := v } : State).freeCtr = s.freeCtr := rfl
@[simp] theorem State.with_gth_out (s : State) (v : Gth) : ({ s with gth := v } : State).out = s.out := rfl
@[simp] theorem State.with_gth_pending (s : State) (v : Gth) : ({ s with gth := v } : State).pending = s.pending := rfl
@[simp] theorem State.with_kst_tick (s : State) (v : Kst) : ({ s with kst := v } : State).tick = s.tick := rfl
@[simp] theorem State.with_kst_sdl (s : State) (v : Kst) : ({ s with kst := v } : State).sdl = s.sdl := rfl
@[simp] theorem State.with_kst_gth (s : State) (v : Kst) : ({ s with kst := v } : State).gth = s.gth := rfl
@[simp] theorem State.with_kst_kst (s : State) (v : Kst) : ({ s with kst := v } : State).kst = v := rfl
@[simp] theorem State.with_kst_aut (s : State) (v : Kst) : ({ s with kst := v } : State).aut = s.aut := rfl
@[simp] theorem State.with_kst_peat (s : State) (v : Kst) : ({ s with kst := v } : State).peat = s.peat := rfl
@[simp] theorem State.with_kst_eng (s : State) (v : Kst) : ({ s with kst := v } : State).eng = s.eng := rfl
@[simp] theorem State.with_kst_pav (s : State) (v : Kst) : ({ s with kst := v } : State).pav = s.pav := rfl
@[simp] theorem State.with_kst_lib (s : State) (v : Kst) : ({ s with kst := v } : State).lib = s.lib := rfl
@[simp] theorem State.with_kst_bne (s : State) (v : Kst) : ({ s with kst := v } : State).bne = s.bne := rfl
@[simp] theorem State.with_kst_dgs (s : State) (v : Kst) : ({ s with kst := v } : State).dgs = s.dgs := rfl
@[simp] theorem State.with_kst_rng (s : State) (v : Kst) : ({ s with kst := v } : State).rng = s.rng := rfl
@[simp] theorem State.with_kst_prk (s : State) (v : Kst) : ({ s with kst := v } : State).prk = s.prk := rfl
@[simp] theorem State.with_kst_ten (s : State) (v : Kst) : ({ s with kst := v } : State).ten = s.ten := rfl
@[simp] theorem State.with_kst_ldg (s : State) (v : Kst) : ({ s with kst := v } : State).ldg = s.ldg := rfl
@[simp] theorem State.with_kst_mpu (s : State) (v : Kst) : ({ s with kst := v } : State).mpu = s.mpu := rfl
@[simp] theorem State.with_kst_pwr (s : State) (v : Kst) : ({ s with kst := v } : State).pwr = s.pwr := rfl
@[simp] theorem State.with_kst_tmp (s : State) (v : Kst) : ({ s with kst := v } : State).tmp = s.tmp := rfl
@[simp] theorem State.with_kst_lcs (s : State) (v : Kst) : ({ s with kst := v } : State).lcs = s.lcs := rfl
@[simp] theorem State.with_kst_dbg (s : State) (v : Kst) : ({ s with kst := v } : State).dbg = s.dbg := rfl
@[simp] theorem State.with_kst_tap (s : State) (v : Kst) : ({ s with kst := v } : State).tap = s.tap := rfl
@[simp] theorem State.with_kst_boot (s : State) (v : Kst) : ({ s with kst := v } : State).boot = s.boot := rfl
@[simp] theorem State.with_kst_evt (s : State) (v : Kst) : ({ s with kst := v } : State).evt = s.evt := rfl
@[simp] theorem State.with_kst_pmc (s : State) (v : Kst) : ({ s with kst := v } : State).pmc = s.pmc := rfl
@[simp] theorem State.with_kst_rep (s : State) (v : Kst) : ({ s with kst := v } : State).rep = s.rep := rfl
@[simp] theorem State.with_kst_latch (s : State) (v : Kst) : ({ s with kst := v } : State).latch = s.latch := rfl
@[simp] theorem State.with_kst_freeCtr (s : State) (v : Kst) : ({ s with kst := v } : State).freeCtr = s.freeCtr := rfl
@[simp] theorem State.with_kst_out (s : State) (v : Kst) : ({ s with kst := v } : State).out = s.out := rfl
@[simp] theorem State.with_kst_pending (s : State) (v : Kst) : ({ s with kst := v } : State).pending = s.pending := rfl
@[simp] theorem State.with_aut_tick (s : State) (v : Aut) : ({ s with aut := v } : State).tick = s.tick := rfl
@[simp] theorem State.with_aut_sdl (s : State) (v : Aut) : ({ s with aut := v } : State).sdl = s.sdl := rfl
@[simp] theorem State.with_aut_gth (s : State) (v : Aut) : ({ s with aut := v } : State).gth = s.gth := rfl
@[simp] theorem State.with_aut_kst (s : State) (v : Aut) : ({ s with aut := v } : State).kst = s.kst := rfl
@[simp] theorem State.with_aut_aut (s : State) (v : Aut) : ({ s with aut := v } : State).aut = v := rfl
@[simp] theorem State.with_aut_peat (s : State) (v : Aut) : ({ s with aut := v } : State).peat = s.peat := rfl
@[simp] theorem State.with_aut_eng (s : State) (v : Aut) : ({ s with aut := v } : State).eng = s.eng := rfl
@[simp] theorem State.with_aut_pav (s : State) (v : Aut) : ({ s with aut := v } : State).pav = s.pav := rfl
@[simp] theorem State.with_aut_lib (s : State) (v : Aut) : ({ s with aut := v } : State).lib = s.lib := rfl
@[simp] theorem State.with_aut_bne (s : State) (v : Aut) : ({ s with aut := v } : State).bne = s.bne := rfl
@[simp] theorem State.with_aut_dgs (s : State) (v : Aut) : ({ s with aut := v } : State).dgs = s.dgs := rfl
@[simp] theorem State.with_aut_rng (s : State) (v : Aut) : ({ s with aut := v } : State).rng = s.rng := rfl
@[simp] theorem State.with_aut_prk (s : State) (v : Aut) : ({ s with aut := v } : State).prk = s.prk := rfl
@[simp] theorem State.with_aut_ten (s : State) (v : Aut) : ({ s with aut := v } : State).ten = s.ten := rfl
@[simp] theorem State.with_aut_ldg (s : State) (v : Aut) : ({ s with aut := v } : State).ldg = s.ldg := rfl
@[simp] theorem State.with_aut_mpu (s : State) (v : Aut) : ({ s with aut := v } : State).mpu = s.mpu := rfl
@[simp] theorem State.with_aut_pwr (s : State) (v : Aut) : ({ s with aut := v } : State).pwr = s.pwr := rfl
@[simp] theorem State.with_aut_tmp (s : State) (v : Aut) : ({ s with aut := v } : State).tmp = s.tmp := rfl
@[simp] theorem State.with_aut_lcs (s : State) (v : Aut) : ({ s with aut := v } : State).lcs = s.lcs := rfl
@[simp] theorem State.with_aut_dbg (s : State) (v : Aut) : ({ s with aut := v } : State).dbg = s.dbg := rfl
@[simp] theorem State.with_aut_tap (s : State) (v : Aut) : ({ s with aut := v } : State).tap = s.tap := rfl
@[simp] theorem State.with_aut_boot (s : State) (v : Aut) : ({ s with aut := v } : State).boot = s.boot := rfl
@[simp] theorem State.with_aut_evt (s : State) (v : Aut) : ({ s with aut := v } : State).evt = s.evt := rfl
@[simp] theorem State.with_aut_pmc (s : State) (v : Aut) : ({ s with aut := v } : State).pmc = s.pmc := rfl
@[simp] theorem State.with_aut_rep (s : State) (v : Aut) : ({ s with aut := v } : State).rep = s.rep := rfl
@[simp] theorem State.with_aut_latch (s : State) (v : Aut) : ({ s with aut := v } : State).latch = s.latch := rfl
@[simp] theorem State.with_aut_freeCtr (s : State) (v : Aut) : ({ s with aut := v } : State).freeCtr = s.freeCtr := rfl
@[simp] theorem State.with_aut_out (s : State) (v : Aut) : ({ s with aut := v } : State).out = s.out := rfl
@[simp] theorem State.with_aut_pending (s : State) (v : Aut) : ({ s with aut := v } : State).pending = s.pending := rfl
@[simp] theorem State.with_peat_tick (s : State) (v : Peat) : ({ s with peat := v } : State).tick = s.tick := rfl
@[simp] theorem State.with_peat_sdl (s : State) (v : Peat) : ({ s with peat := v } : State).sdl = s.sdl := rfl
@[simp] theorem State.with_peat_gth (s : State) (v : Peat) : ({ s with peat := v } : State).gth = s.gth := rfl
@[simp] theorem State.with_peat_kst (s : State) (v : Peat) : ({ s with peat := v } : State).kst = s.kst := rfl
@[simp] theorem State.with_peat_aut (s : State) (v : Peat) : ({ s with peat := v } : State).aut = s.aut := rfl
@[simp] theorem State.with_peat_peat (s : State) (v : Peat) : ({ s with peat := v } : State).peat = v := rfl
@[simp] theorem State.with_peat_eng (s : State) (v : Peat) : ({ s with peat := v } : State).eng = s.eng := rfl
@[simp] theorem State.with_peat_pav (s : State) (v : Peat) : ({ s with peat := v } : State).pav = s.pav := rfl
@[simp] theorem State.with_peat_lib (s : State) (v : Peat) : ({ s with peat := v } : State).lib = s.lib := rfl
@[simp] theorem State.with_peat_bne (s : State) (v : Peat) : ({ s with peat := v } : State).bne = s.bne := rfl
@[simp] theorem State.with_peat_dgs (s : State) (v : Peat) : ({ s with peat := v } : State).dgs = s.dgs := rfl
@[simp] theorem State.with_peat_rng (s : State) (v : Peat) : ({ s with peat := v } : State).rng = s.rng := rfl
@[simp] theorem State.with_peat_prk (s : State) (v : Peat) : ({ s with peat := v } : State).prk = s.prk := rfl
@[simp] theorem State.with_peat_ten (s : State) (v : Peat) : ({ s with peat := v } : State).ten = s.ten := rfl
@[simp] theorem State.with_peat_ldg (s : State) (v : Peat) : ({ s with peat := v } : State).ldg = s.ldg := rfl
@[simp] theorem State.with_peat_mpu (s : State) (v : Peat) : ({ s with peat := v } : State).mpu = s.mpu := rfl
@[simp] theorem State.with_peat_pwr (s : State) (v : Peat) : ({ s with peat := v } : State).pwr = s.pwr := rfl
@[simp] theorem State.with_peat_tmp (s : State) (v : Peat) : ({ s with peat := v } : State).tmp = s.tmp := rfl
@[simp] theorem State.with_peat_lcs (s : State) (v : Peat) : ({ s with peat := v } : State).lcs = s.lcs := rfl
@[simp] theorem State.with_peat_dbg (s : State) (v : Peat) : ({ s with peat := v } : State).dbg = s.dbg := rfl
@[simp] theorem State.with_peat_tap (s : State) (v : Peat) : ({ s with peat := v } : State).tap = s.tap := rfl
@[simp] theorem State.with_peat_boot (s : State) (v : Peat) : ({ s with peat := v } : State).boot = s.boot := rfl
@[simp] theorem State.with_peat_evt (s : State) (v : Peat) : ({ s with peat := v } : State).evt = s.evt := rfl
@[simp] theorem State.with_peat_pmc (s : State) (v : Peat) : ({ s with peat := v } : State).pmc = s.pmc := rfl
@[simp] theorem State.with_peat_rep (s : State) (v : Peat) : ({ s with peat := v } : State).rep = s.rep := rfl
@[simp] theorem State.with_peat_latch (s : State) (v : Peat) : ({ s with peat := v } : State).latch = s.latch := rfl
@[simp] theorem State.with_peat_freeCtr (s : State) (v : Peat) : ({ s with peat := v } : State).freeCtr = s.freeCtr := rfl
@[simp] theorem State.with_peat_out (s : State) (v : Peat) : ({ s with peat := v } : State).out = s.out := rfl
@[simp] theorem State.with_peat_pending (s : State) (v : Peat) : ({ s with peat := v } : State).pending = s.pending := rfl
@[simp] theorem State.with_eng_tick (s : State) (v : KMap Eng) : ({ s with eng := v } : State).tick = s.tick := rfl
@[simp] theorem State.with_eng_sdl (s : State) (v : KMap Eng) : ({ s with eng := v } : State).sdl = s.sdl := rfl
@[simp] theorem State.with_eng_gth (s : State) (v : KMap Eng) : ({ s with eng := v } : State).gth = s.gth := rfl
@[simp] theorem State.with_eng_kst (s : State) (v : KMap Eng) : ({ s with eng := v } : State).kst = s.kst := rfl
@[simp] theorem State.with_eng_aut (s : State) (v : KMap Eng) : ({ s with eng := v } : State).aut = s.aut := rfl
@[simp] theorem State.with_eng_peat (s : State) (v : KMap Eng) : ({ s with eng := v } : State).peat = s.peat := rfl
@[simp] theorem State.with_eng_eng (s : State) (v : KMap Eng) : ({ s with eng := v } : State).eng = v := rfl
@[simp] theorem State.with_eng_pav (s : State) (v : KMap Eng) : ({ s with eng := v } : State).pav = s.pav := rfl
@[simp] theorem State.with_eng_lib (s : State) (v : KMap Eng) : ({ s with eng := v } : State).lib = s.lib := rfl
@[simp] theorem State.with_eng_bne (s : State) (v : KMap Eng) : ({ s with eng := v } : State).bne = s.bne := rfl
@[simp] theorem State.with_eng_dgs (s : State) (v : KMap Eng) : ({ s with eng := v } : State).dgs = s.dgs := rfl
@[simp] theorem State.with_eng_rng (s : State) (v : KMap Eng) : ({ s with eng := v } : State).rng = s.rng := rfl
@[simp] theorem State.with_eng_prk (s : State) (v : KMap Eng) : ({ s with eng := v } : State).prk = s.prk := rfl
@[simp] theorem State.with_eng_ten (s : State) (v : KMap Eng) : ({ s with eng := v } : State).ten = s.ten := rfl
@[simp] theorem State.with_eng_ldg (s : State) (v : KMap Eng) : ({ s with eng := v } : State).ldg = s.ldg := rfl
@[simp] theorem State.with_eng_mpu (s : State) (v : KMap Eng) : ({ s with eng := v } : State).mpu = s.mpu := rfl
@[simp] theorem State.with_eng_pwr (s : State) (v : KMap Eng) : ({ s with eng := v } : State).pwr = s.pwr := rfl
@[simp] theorem State.with_eng_tmp (s : State) (v : KMap Eng) : ({ s with eng := v } : State).tmp = s.tmp := rfl
@[simp] theorem State.with_eng_lcs (s : State) (v : KMap Eng) : ({ s with eng := v } : State).lcs = s.lcs := rfl
@[simp] theorem State.with_eng_dbg (s : State) (v : KMap Eng) : ({ s with eng := v } : State).dbg = s.dbg := rfl
@[simp] theorem State.with_eng_tap (s : State) (v : KMap Eng) : ({ s with eng := v } : State).tap = s.tap := rfl
@[simp] theorem State.with_eng_boot (s : State) (v : KMap Eng) : ({ s with eng := v } : State).boot = s.boot := rfl
@[simp] theorem State.with_eng_evt (s : State) (v : KMap Eng) : ({ s with eng := v } : State).evt = s.evt := rfl
@[simp] theorem State.with_eng_pmc (s : State) (v : KMap Eng) : ({ s with eng := v } : State).pmc = s.pmc := rfl
@[simp] theorem State.with_eng_rep (s : State) (v : KMap Eng) : ({ s with eng := v } : State).rep = s.rep := rfl
@[simp] theorem State.with_eng_latch (s : State) (v : KMap Eng) : ({ s with eng := v } : State).latch = s.latch := rfl
@[simp] theorem State.with_eng_freeCtr (s : State) (v : KMap Eng) : ({ s with eng := v } : State).freeCtr = s.freeCtr := rfl
@[simp] theorem State.with_eng_out (s : State) (v : KMap Eng) : ({ s with eng := v } : State).out = s.out := rfl
@[simp] theorem State.with_eng_pending (s : State) (v : KMap Eng) : ({ s with eng := v } : State).pending = s.pending := rfl
@[simp] theorem State.with_pav_tick (s : State) (v : KMap Pav) : ({ s with pav := v } : State).tick = s.tick := rfl
@[simp] theorem State.with_pav_sdl (s : State) (v : KMap Pav) : ({ s with pav := v } : State).sdl = s.sdl := rfl
@[simp] theorem State.with_pav_gth (s : State) (v : KMap Pav) : ({ s with pav := v } : State).gth = s.gth := rfl
@[simp] theorem State.with_pav_kst (s : State) (v : KMap Pav) : ({ s with pav := v } : State).kst = s.kst := rfl
@[simp] theorem State.with_pav_aut (s : State) (v : KMap Pav) : ({ s with pav := v } : State).aut = s.aut := rfl
@[simp] theorem State.with_pav_peat (s : State) (v : KMap Pav) : ({ s with pav := v } : State).peat = s.peat := rfl
@[simp] theorem State.with_pav_eng (s : State) (v : KMap Pav) : ({ s with pav := v } : State).eng = s.eng := rfl
@[simp] theorem State.with_pav_pav (s : State) (v : KMap Pav) : ({ s with pav := v } : State).pav = v := rfl
@[simp] theorem State.with_pav_lib (s : State) (v : KMap Pav) : ({ s with pav := v } : State).lib = s.lib := rfl
@[simp] theorem State.with_pav_bne (s : State) (v : KMap Pav) : ({ s with pav := v } : State).bne = s.bne := rfl
@[simp] theorem State.with_pav_dgs (s : State) (v : KMap Pav) : ({ s with pav := v } : State).dgs = s.dgs := rfl
@[simp] theorem State.with_pav_rng (s : State) (v : KMap Pav) : ({ s with pav := v } : State).rng = s.rng := rfl
@[simp] theorem State.with_pav_prk (s : State) (v : KMap Pav) : ({ s with pav := v } : State).prk = s.prk := rfl
@[simp] theorem State.with_pav_ten (s : State) (v : KMap Pav) : ({ s with pav := v } : State).ten = s.ten := rfl
@[simp] theorem State.with_pav_ldg (s : State) (v : KMap Pav) : ({ s with pav := v } : State).ldg = s.ldg := rfl
@[simp] theorem State.with_pav_mpu (s : State) (v : KMap Pav) : ({ s with pav := v } : State).mpu = s.mpu := rfl
@[simp] theorem State.with_pav_pwr (s : State) (v : KMap Pav) : ({ s with pav := v } : State).pwr = s.pwr := rfl
@[simp] theorem State.with_pav_tmp (s : State) (v : KMap Pav) : ({ s with pav := v } : State).tmp = s.tmp := rfl
@[simp] theorem State.with_pav_lcs (s : State) (v : KMap Pav) : ({ s with pav := v } : State).lcs = s.lcs := rfl
@[simp] theorem State.with_pav_dbg (s : State) (v : KMap Pav) : ({ s with pav := v } : State).dbg = s.dbg := rfl
@[simp] theorem State.with_pav_tap (s : State) (v : KMap Pav) : ({ s with pav := v } : State).tap = s.tap := rfl
@[simp] theorem State.with_pav_boot (s : State) (v : KMap Pav) : ({ s with pav := v } : State).boot = s.boot := rfl
@[simp] theorem State.with_pav_evt (s : State) (v : KMap Pav) : ({ s with pav := v } : State).evt = s.evt := rfl
@[simp] theorem State.with_pav_pmc (s : State) (v : KMap Pav) : ({ s with pav := v } : State).pmc = s.pmc := rfl
@[simp] theorem State.with_pav_rep (s : State) (v : KMap Pav) : ({ s with pav := v } : State).rep = s.rep := rfl
@[simp] theorem State.with_pav_latch (s : State) (v : KMap Pav) : ({ s with pav := v } : State).latch = s.latch := rfl
@[simp] theorem State.with_pav_freeCtr (s : State) (v : KMap Pav) : ({ s with pav := v } : State).freeCtr = s.freeCtr := rfl
@[simp] theorem State.with_pav_out (s : State) (v : KMap Pav) : ({ s with pav := v } : State).out = s.out := rfl
@[simp] theorem State.with_pav_pending (s : State) (v : KMap Pav) : ({ s with pav := v } : State).pending = s.pending := rfl
@[simp] theorem State.with_lib_tick (s : State) (v : Lib) : ({ s with lib := v } : State).tick = s.tick := rfl
@[simp] theorem State.with_lib_sdl (s : State) (v : Lib) : ({ s with lib := v } : State).sdl = s.sdl := rfl
@[simp] theorem State.with_lib_gth (s : State) (v : Lib) : ({ s with lib := v } : State).gth = s.gth := rfl
@[simp] theorem State.with_lib_kst (s : State) (v : Lib) : ({ s with lib := v } : State).kst = s.kst := rfl
@[simp] theorem State.with_lib_aut (s : State) (v : Lib) : ({ s with lib := v } : State).aut = s.aut := rfl
@[simp] theorem State.with_lib_peat (s : State) (v : Lib) : ({ s with lib := v } : State).peat = s.peat := rfl
@[simp] theorem State.with_lib_eng (s : State) (v : Lib) : ({ s with lib := v } : State).eng = s.eng := rfl
@[simp] theorem State.with_lib_pav (s : State) (v : Lib) : ({ s with lib := v } : State).pav = s.pav := rfl
@[simp] theorem State.with_lib_lib (s : State) (v : Lib) : ({ s with lib := v } : State).lib = v := rfl
@[simp] theorem State.with_lib_bne (s : State) (v : Lib) : ({ s with lib := v } : State).bne = s.bne := rfl
@[simp] theorem State.with_lib_dgs (s : State) (v : Lib) : ({ s with lib := v } : State).dgs = s.dgs := rfl
@[simp] theorem State.with_lib_rng (s : State) (v : Lib) : ({ s with lib := v } : State).rng = s.rng := rfl
@[simp] theorem State.with_lib_prk (s : State) (v : Lib) : ({ s with lib := v } : State).prk = s.prk := rfl
@[simp] theorem State.with_lib_ten (s : State) (v : Lib) : ({ s with lib := v } : State).ten = s.ten := rfl
@[simp] theorem State.with_lib_ldg (s : State) (v : Lib) : ({ s with lib := v } : State).ldg = s.ldg := rfl
@[simp] theorem State.with_lib_mpu (s : State) (v : Lib) : ({ s with lib := v } : State).mpu = s.mpu := rfl
@[simp] theorem State.with_lib_pwr (s : State) (v : Lib) : ({ s with lib := v } : State).pwr = s.pwr := rfl
@[simp] theorem State.with_lib_tmp (s : State) (v : Lib) : ({ s with lib := v } : State).tmp = s.tmp := rfl
@[simp] theorem State.with_lib_lcs (s : State) (v : Lib) : ({ s with lib := v } : State).lcs = s.lcs := rfl
@[simp] theorem State.with_lib_dbg (s : State) (v : Lib) : ({ s with lib := v } : State).dbg = s.dbg := rfl
@[simp] theorem State.with_lib_tap (s : State) (v : Lib) : ({ s with lib := v } : State).tap = s.tap := rfl
@[simp] theorem State.with_lib_boot (s : State) (v : Lib) : ({ s with lib := v } : State).boot = s.boot := rfl
@[simp] theorem State.with_lib_evt (s : State) (v : Lib) : ({ s with lib := v } : State).evt = s.evt := rfl
@[simp] theorem State.with_lib_pmc (s : State) (v : Lib) : ({ s with lib := v } : State).pmc = s.pmc := rfl
@[simp] theorem State.with_lib_rep (s : State) (v : Lib) : ({ s with lib := v } : State).rep = s.rep := rfl
@[simp] theorem State.with_lib_latch (s : State) (v : Lib) : ({ s with lib := v } : State).latch = s.latch := rfl
@[simp] theorem State.with_lib_freeCtr (s : State) (v : Lib) : ({ s with lib := v } : State).freeCtr = s.freeCtr := rfl
@[simp] theorem State.with_lib_out (s : State) (v : Lib) : ({ s with lib := v } : State).out = s.out := rfl
@[simp] theorem State.with_lib_pending (s : State) (v : Lib) : ({ s with lib := v } : State).pending = s.pending := rfl
@[simp] theorem State.with_bne_tick (s : State) (v : Bne) : ({ s with bne := v } : State).tick = s.tick := rfl
@[simp] theorem State.with_bne_sdl (s : State) (v : Bne) : ({ s with bne := v } : State).sdl = s.sdl := rfl
@[simp] theorem State.with_bne_gth (s : State) (v : Bne) : ({ s with bne := v } : State).gth = s.gth := rfl
@[simp] theorem State.with_bne_kst (s : State) (v : Bne) : ({ s with bne := v } : State).kst = s.kst := rfl
@[simp] theorem State.with_bne_aut (s : State) (v : Bne) : ({ s with bne := v } : State).aut = s.aut := rfl
@[simp] theorem State.with_bne_peat (s : State) (v : Bne) : ({ s with bne := v } : State).peat = s.peat := rfl
@[simp] theorem State.with_bne_eng (s : State) (v : Bne) : ({ s with bne := v } : State).eng = s.eng := rfl
@[simp] theorem State.with_bne_pav (s : State) (v : Bne) : ({ s with bne := v } : State).pav = s.pav := rfl
@[simp] theorem State.with_bne_lib (s : State) (v : Bne) : ({ s with bne := v } : State).lib = s.lib := rfl
@[simp] theorem State.with_bne_bne (s : State) (v : Bne) : ({ s with bne := v } : State).bne = v := rfl
@[simp] theorem State.with_bne_dgs (s : State) (v : Bne) : ({ s with bne := v } : State).dgs = s.dgs := rfl
@[simp] theorem State.with_bne_rng (s : State) (v : Bne) : ({ s with bne := v } : State).rng = s.rng := rfl
@[simp] theorem State.with_bne_prk (s : State) (v : Bne) : ({ s with bne := v } : State).prk = s.prk := rfl
@[simp] theorem State.with_bne_ten (s : State) (v : Bne) : ({ s with bne := v } : State).ten = s.ten := rfl
@[simp] theorem State.with_bne_ldg (s : State) (v : Bne) : ({ s with bne := v } : State).ldg = s.ldg := rfl
@[simp] theorem State.with_bne_mpu (s : State) (v : Bne) : ({ s with bne := v } : State).mpu = s.mpu := rfl
@[simp] theorem State.with_bne_pwr (s : State) (v : Bne) : ({ s with bne := v } : State).pwr = s.pwr := rfl
@[simp] theorem State.with_bne_tmp (s : State) (v : Bne) : ({ s with bne := v } : State).tmp = s.tmp := rfl
@[simp] theorem State.with_bne_lcs (s : State) (v : Bne) : ({ s with bne := v } : State).lcs = s.lcs := rfl
@[simp] theorem State.with_bne_dbg (s : State) (v : Bne) : ({ s with bne := v } : State).dbg = s.dbg := rfl
@[simp] theorem State.with_bne_tap (s : State) (v : Bne) : ({ s with bne := v } : State).tap = s.tap := rfl
@[simp] theorem State.with_bne_boot (s : State) (v : Bne) : ({ s with bne := v } : State).boot = s.boot := rfl
@[simp] theorem State.with_bne_evt (s : State) (v : Bne) : ({ s with bne := v } : State).evt = s.evt := rfl
@[simp] theorem State.with_bne_pmc (s : State) (v : Bne) : ({ s with bne := v } : State).pmc = s.pmc := rfl
@[simp] theorem State.with_bne_rep (s : State) (v : Bne) : ({ s with bne := v } : State).rep = s.rep := rfl
@[simp] theorem State.with_bne_latch (s : State) (v : Bne) : ({ s with bne := v } : State).latch = s.latch := rfl
@[simp] theorem State.with_bne_freeCtr (s : State) (v : Bne) : ({ s with bne := v } : State).freeCtr = s.freeCtr := rfl
@[simp] theorem State.with_bne_out (s : State) (v : Bne) : ({ s with bne := v } : State).out = s.out := rfl
@[simp] theorem State.with_bne_pending (s : State) (v : Bne) : ({ s with bne := v } : State).pending = s.pending := rfl
@[simp] theorem State.with_dgs_tick (s : State) (v : Dgs) : ({ s with dgs := v } : State).tick = s.tick := rfl
@[simp] theorem State.with_dgs_sdl (s : State) (v : Dgs) : ({ s with dgs := v } : State).sdl = s.sdl := rfl
@[simp] theorem State.with_dgs_gth (s : State) (v : Dgs) : ({ s with dgs := v } : State).gth = s.gth := rfl
@[simp] theorem State.with_dgs_kst (s : State) (v : Dgs) : ({ s with dgs := v } : State).kst = s.kst := rfl
@[simp] theorem State.with_dgs_aut (s : State) (v : Dgs) : ({ s with dgs := v } : State).aut = s.aut := rfl
@[simp] theorem State.with_dgs_peat (s : State) (v : Dgs) : ({ s with dgs := v } : State).peat = s.peat := rfl
@[simp] theorem State.with_dgs_eng (s : State) (v : Dgs) : ({ s with dgs := v } : State).eng = s.eng := rfl
@[simp] theorem State.with_dgs_pav (s : State) (v : Dgs) : ({ s with dgs := v } : State).pav = s.pav := rfl
@[simp] theorem State.with_dgs_lib (s : State) (v : Dgs) : ({ s with dgs := v } : State).lib = s.lib := rfl
@[simp] theorem State.with_dgs_bne (s : State) (v : Dgs) : ({ s with dgs := v } : State).bne = s.bne := rfl
@[simp] theorem State.with_dgs_dgs (s : State) (v : Dgs) : ({ s with dgs := v } : State).dgs = v := rfl
@[simp] theorem State.with_dgs_rng (s : State) (v : Dgs) : ({ s with dgs := v } : State).rng = s.rng := rfl
@[simp] theorem State.with_dgs_prk (s : State) (v : Dgs) : ({ s with dgs := v } : State).prk = s.prk := rfl
@[simp] theorem State.with_dgs_ten (s : State) (v : Dgs) : ({ s with dgs := v } : State).ten = s.ten := rfl
@[simp] theorem State.with_dgs_ldg (s : State) (v : Dgs) : ({ s with dgs := v } : State).ldg = s.ldg := rfl
@[simp] theorem State.with_dgs_mpu (s : State) (v : Dgs) : ({ s with dgs := v } : State).mpu = s.mpu := rfl
@[simp] theorem State.with_dgs_pwr (s : State) (v : Dgs) : ({ s with dgs := v } : State).pwr = s.pwr := rfl
@[simp] theorem State.with_dgs_tmp (s : State) (v : Dgs) : ({ s with dgs := v } : State).tmp = s.tmp := rfl
@[simp] theorem State.with_dgs_lcs (s : State) (v : Dgs) : ({ s with dgs := v } : State).lcs = s.lcs := rfl
@[simp] theorem State.with_dgs_dbg (s : State) (v : Dgs) : ({ s with dgs := v } : State).dbg = s.dbg := rfl
@[simp] theorem State.with_dgs_tap (s : State) (v : Dgs) : ({ s with dgs := v } : State).tap = s.tap := rfl
@[simp] theorem State.with_dgs_boot (s : State) (v : Dgs) : ({ s with dgs := v } : State).boot = s.boot := rfl
@[simp] theorem State.with_dgs_evt (s : State) (v : Dgs) : ({ s with dgs := v } : State).evt = s.evt := rfl
@[simp] theorem State.with_dgs_pmc (s : State) (v : Dgs) : ({ s with dgs := v } : State).pmc = s.pmc := rfl
@[simp] theorem State.with_dgs_rep (s : State) (v : Dgs) : ({ s with dgs := v } : State).rep = s.rep := rfl
@[simp] theorem State.with_dgs_latch (s : State) (v : Dgs) : ({ s with dgs := v } : State).latch = s.latch := rfl
@[simp] theorem State.with_dgs_freeCtr (s : State) (v : Dgs) : ({ s with dgs := v } : State).freeCtr = s.freeCtr := rfl
@[simp] theorem State.with_dgs_out (s : State) (v : Dgs) : ({ s with dgs := v } : State).out = s.out := rfl
@[simp] theorem State.with_dgs_pending (s : State) (v : Dgs) : ({ s with dgs := v } : State).pending = s.pending := rfl
@[simp] theorem State.with_rng_tick (s : State) (v : Rng) : ({ s with rng := v } : State).tick = s.tick := rfl
@[simp] theorem State.with_rng_sdl (s : State) (v : Rng) : ({ s with rng := v } : State).sdl = s.sdl := rfl
@[simp] theorem State.with_rng_gth (s : State) (v : Rng) : ({ s with rng := v } : State).gth = s.gth := rfl
@[simp] theorem State.with_rng_kst (s : State) (v : Rng) : ({ s with rng := v } : State).kst = s.kst := rfl
@[simp] theorem State.with_rng_aut (s : State) (v : Rng) : ({ s with rng := v } : State).aut = s.aut := rfl
@[simp] theorem State.with_rng_peat (s : State) (v : Rng) : ({ s with rng := v } : State).peat = s.peat := rfl
@[simp] theorem State.with_rng_eng (s : State) (v : Rng) : ({ s with rng := v } : State).eng = s.eng := rfl
@[simp] theorem State.with_rng_pav (s : State) (v : Rng) : ({ s with rng := v } : State).pav = s.pav := rfl
@[simp] theorem State.with_rng_lib (s : State) (v : Rng) : ({ s with rng := v } : State).lib = s.lib := rfl
@[simp] theorem State.with_rng_bne (s : State) (v : Rng) : ({ s with rng := v } : State).bne = s.bne := rfl
@[simp] theorem State.with_rng_dgs (s : State) (v : Rng) : ({ s with rng := v } : State).dgs = s.dgs := rfl
@[simp] theorem State.with_rng_rng (s : State) (v : Rng) : ({ s with rng := v } : State).rng = v := rfl
@[simp] theorem State.with_rng_prk (s : State) (v : Rng) : ({ s with rng := v } : State).prk = s.prk := rfl
@[simp] theorem State.with_rng_ten (s : State) (v : Rng) : ({ s with rng := v } : State).ten = s.ten := rfl
@[simp] theorem State.with_rng_ldg (s : State) (v : Rng) : ({ s with rng := v } : State).ldg = s.ldg := rfl
@[simp] theorem State.with_rng_mpu (s : State) (v : Rng) : ({ s with rng := v } : State).mpu = s.mpu := rfl
@[simp] theorem State.with_rng_pwr (s : State) (v : Rng) : ({ s with rng := v } : State).pwr = s.pwr := rfl
@[simp] theorem State.with_rng_tmp (s : State) (v : Rng) : ({ s with rng := v } : State).tmp = s.tmp := rfl
@[simp] theorem State.with_rng_lcs (s : State) (v : Rng) : ({ s with rng := v } : State).lcs = s.lcs := rfl
@[simp] theorem State.with_rng_dbg (s : State) (v : Rng) : ({ s with rng := v } : State).dbg = s.dbg := rfl
@[simp] theorem State.with_rng_tap (s : State) (v : Rng) : ({ s with rng := v } : State).tap = s.tap := rfl
@[simp] theorem State.with_rng_boot (s : State) (v : Rng) : ({ s with rng := v } : State).boot = s.boot := rfl
@[simp] theorem State.with_rng_evt (s : State) (v : Rng) : ({ s with rng := v } : State).evt = s.evt := rfl
@[simp] theorem State.with_rng_pmc (s : State) (v : Rng) : ({ s with rng := v } : State).pmc = s.pmc := rfl
@[simp] theorem State.with_rng_rep (s : State) (v : Rng) : ({ s with rng := v } : State).rep = s.rep := rfl
@[simp] theorem State.with_rng_latch (s : State) (v : Rng) : ({ s with rng := v } : State).latch = s.latch := rfl
@[simp] theorem State.with_rng_freeCtr (s : State) (v : Rng) : ({ s with rng := v } : State).freeCtr = s.freeCtr := rfl
@[simp] theorem State.with_rng_out (s : State) (v : Rng) : ({ s with rng := v } : State).out = s.out := rfl
@[simp] theorem State.with_rng_pending (s : State) (v : Rng) : ({ s with rng := v } : State).pending = s.pending := rfl
@[simp] theorem State.with_prk_tick (s : State) (v : Prk) : ({ s with prk := v } : State).tick = s.tick := rfl
@[simp] theorem State.with_prk_sdl (s : State) (v : Prk) : ({ s with prk := v } : State).sdl = s.sdl := rfl
@[simp] theorem State.with_prk_gth (s : State) (v : Prk) : ({ s with prk := v } : State).gth = s.gth := rfl
@[simp] theorem State.with_prk_kst (s : State) (v : Prk) : ({ s with prk := v } : State).kst = s.kst := rfl
@[simp] theorem State.with_prk_aut (s : State) (v : Prk) : ({ s with prk := v } : State).aut = s.aut := rfl
@[simp] theorem State.with_prk_peat (s : State) (v : Prk) : ({ s with prk := v } : State).peat = s.peat := rfl
@[simp] theorem State.with_prk_eng (s : State) (v : Prk) : ({ s with prk := v } : State).eng = s.eng := rfl
@[simp] theorem State.with_prk_pav (s : State) (v : Prk) : ({ s with prk := v } : State).pav = s.pav := rfl
@[simp] theorem State.with_prk_lib (s : State) (v : Prk) : ({ s with prk := v } : State).lib = s.lib := rfl
@[simp] theorem State.with_prk_bne (s : State) (v : Prk) : ({ s with prk := v } : State).bne = s.bne := rfl
@[simp] theorem State.with_prk_dgs (s : State) (v : Prk) : ({ s with prk := v } : State).dgs = s.dgs := rfl
@[simp] theorem State.with_prk_rng (s : State) (v : Prk) : ({ s with prk := v } : State).rng = s.rng := rfl
@[simp] theorem State.with_prk_prk (s : State) (v : Prk) : ({ s with prk := v } : State).prk = v := rfl
@[simp] theorem State.with_prk_ten (s : State) (v : Prk) : ({ s with prk := v } : State).ten = s.ten := rfl
@[simp] theorem State.with_prk_ldg (s : State) (v : Prk) : ({ s with prk := v } : State).ldg = s.ldg := rfl
@[simp] theorem State.with_prk_mpu (s : State) (v : Prk) : ({ s with prk := v } : State).mpu = s.mpu := rfl
@[simp] theorem State.with_prk_pwr (s : State) (v : Prk) : ({ s with prk := v } : State).pwr = s.pwr := rfl
@[simp] theorem State.with_prk_tmp (s : State) (v : Prk) : ({ s with prk := v } : State).tmp = s.tmp := rfl
@[simp] theorem State.with_prk_lcs (s : State) (v : Prk) : ({ s with prk := v } : State).lcs = s.lcs := rfl
@[simp] theorem State.with_prk_dbg (s : State) (v : Prk) : ({ s with prk := v } : State).dbg = s.dbg := rfl
@[simp] theorem State.with_prk_tap (s : State) (v : Prk) : ({ s with prk := v } : State).tap = s.tap := rfl
@[simp] theorem State.with_prk_boot (s : State) (v : Prk) : ({ s with prk := v } : State).boot = s.boot := rfl
@[simp] theorem State.with_prk_evt (s : State) (v : Prk) : ({ s with prk := v } : State).evt = s.evt := rfl
@[simp] theorem State.with_prk_pmc (s : State) (v : Prk) : ({ s with prk := v } : State).pmc = s.pmc := rfl
@[simp] theorem State.with_prk_rep (s : State) (v : Prk) : ({ s with prk := v } : State).rep = s.rep := rfl
@[simp] theorem State.with_prk_latch (s : State) (v : Prk) : ({ s with prk := v } : State).latch = s.latch := rfl
@[simp] theorem State.with_prk_freeCtr (s : State) (v : Prk) : ({ s with prk := v } : State).freeCtr = s.freeCtr := rfl
@[simp] theorem State.with_prk_out (s : State) (v : Prk) : ({ s with prk := v } : State).out = s.out := rfl
@[simp] theorem State.with_prk_pending (s : State) (v : Prk) : ({ s with prk := v } : State).pending = s.pending := rfl
@[simp] theorem State.with_ten_tick (s : State) (v : Ten) : ({ s with ten := v } : State).tick = s.tick := rfl
@[simp] theorem State.with_ten_sdl (s : State) (v : Ten) : ({ s with ten := v } : State).sdl = s.sdl := rfl
@[simp] theorem State.with_ten_gth (s : State) (v : Ten) : ({ s with ten := v } : State).gth = s.gth := rfl
@[simp] theorem State.with_ten_kst (s : State) (v : Ten) : ({ s with ten := v } : State).kst = s.kst := rfl
@[simp] theorem State.with_ten_aut (s : State) (v : Ten) : ({ s with ten := v } : State).aut = s.aut := rfl
@[simp] theorem State.with_ten_peat (s : State) (v : Ten) : ({ s with ten := v } : State).peat = s.peat := rfl
@[simp] theorem State.with_ten_eng (s : State) (v : Ten) : ({ s with ten := v } : State).eng = s.eng := rfl
@[simp] theorem State.with_ten_pav (s : State) (v : Ten) : ({ s with ten := v } : State).pav = s.pav := rfl
@[simp] theorem State.with_ten_lib (s : State) (v : Ten) : ({ s with ten := v } : State).lib = s.lib := rfl
@[simp] theorem State.with_ten_bne (s : State) (v : Ten) : ({ s with ten := v } : State).bne = s.bne := rfl
@[simp] theorem State.with_ten_dgs (s : State) (v : Ten) : ({ s with ten := v } : State).dgs = s.dgs := rfl
@[simp] theorem State.with_ten_rng (s : State) (v : Ten) : ({ s with ten := v } : State).rng = s.rng := rfl
@[simp] theorem State.with_ten_prk (s : State) (v : Ten) : ({ s with ten := v } : State).prk = s.prk := rfl
@[simp] theorem State.with_ten_ten (s : State) (v : Ten) : ({ s with ten := v } : State).ten = v := rfl
@[simp] theorem State.with_ten_ldg (s : State) (v : Ten) : ({ s with ten := v } : State).ldg = s.ldg := rfl
@[simp] theorem State.with_ten_mpu (s : State) (v : Ten) : ({ s with ten := v } : State).mpu = s.mpu := rfl
@[simp] theorem State.with_ten_pwr (s : State) (v : Ten) : ({ s with ten := v } : State).pwr = s.pwr := rfl
@[simp] theorem State.with_ten_tmp (s : State) (v : Ten) : ({ s with ten := v } : State).tmp = s.tmp := rfl
@[simp] theorem State.with_ten_lcs (s : State) (v : Ten) : ({ s with ten := v } : State).lcs = s.lcs := rfl
@[simp] theorem State.with_ten_dbg (s : State) (v : Ten) : ({ s with ten := v } : State).dbg = s.dbg := rfl
@[simp] theorem State.with_ten_tap (s : State) (v : Ten) : ({ s with ten := v } : State).tap = s.tap := rfl
@[simp] theorem State.with_ten_boot (s : State) (v : Ten) : ({ s with ten := v } : State).boot = s.boot := rfl
@[simp] theorem State.with_ten_evt (s : State) (v : Ten) : ({ s with ten := v } : State).evt = s.evt := rfl
@[simp] theorem State.with_ten_pmc (s : State) (v : Ten) : ({ s with ten := v } : State).pmc = s.pmc := rfl
@[simp] theorem State.with_ten_rep (s : State) (v : Ten) : ({ s with ten := v } : State).rep = s.rep := rfl
@[simp] theorem State.with_ten_latch (s : State) (v : Ten) : ({ s with ten := v } : State).latch = s.latch := rfl
@[simp] theorem State.with_ten_freeCtr (s : State) (v : Ten) : ({ s with ten := v } : State).freeCtr = s.freeCtr := rfl
@[simp] theorem State.with_ten_out (s : State) (v : Ten) : ({ s with ten := v } : State).out = s.out := rfl
@[simp] theorem State.with_ten_pending (s : State) (v : Ten) : ({ s with ten := v } : State).pending = s.pending := rfl
@[simp] theorem State.with_ldg_tick (s : State) (v : Ldg) : ({ s with ldg := v } : State).tick = s.tick := rfl
@[simp] theorem State.with_ldg_sdl (s : State) (v : Ldg) : ({ s with ldg := v } : State).sdl = s.sdl := rfl
@[simp] theorem State.with_ldg_gth (s : State) (v : Ldg) : ({ s with ldg := v } : State).gth = s.gth := rfl
@[simp] theorem State.with_ldg_kst (s : State) (v : Ldg) : ({ s with ldg := v } : State).kst = s.kst := rfl
@[simp] theorem State.with_ldg_aut (s : State) (v : Ldg) : ({ s with ldg := v } : State).aut = s.aut := rfl
@[simp] theorem State.with_ldg_peat (s : State) (v : Ldg) : ({ s with ldg := v } : State).peat = s.peat := rfl
@[simp] theorem State.with_ldg_eng (s : State) (v : Ldg) : ({ s with ldg := v } : State).eng = s.eng := rfl
@[simp] theorem State.with_ldg_pav (s : State) (v : Ldg) : ({ s with ldg := v } : State).pav = s.pav := rfl
@[simp] theorem State.with_ldg_lib (s : State) (v : Ldg) : ({ s with ldg := v } : State).lib = s.lib := rfl
@[simp] theorem State.with_ldg_bne (s : State) (v : Ldg) : ({ s with ldg := v } : State).bne = s.bne := rfl
@[simp] theorem State.with_ldg_dgs (s : State) (v : Ldg) : ({ s with ldg := v } : State).dgs = s.dgs := rfl
@[simp] theorem State.with_ldg_rng (s : State) (v : Ldg) : ({ s with ldg := v } : State).rng = s.rng := rfl
@[simp] theorem State.with_ldg_prk (s : State) (v : Ldg) : ({ s with ldg := v } : State).prk = s.prk := rfl
@[simp] theorem State.with_ldg_ten (s : State) (v : Ldg) : ({ s with ldg := v } : State).ten = s.ten := rfl
@[simp] theorem State.with_ldg_ldg (s : State) (v : Ldg) : ({ s with ldg := v } : State).ldg = v := rfl
@[simp] theorem State.with_ldg_mpu (s : State) (v : Ldg) : ({ s with ldg := v } : State).mpu = s.mpu := rfl
@[simp] theorem State.with_ldg_pwr (s : State) (v : Ldg) : ({ s with ldg := v } : State).pwr = s.pwr := rfl
@[simp] theorem State.with_ldg_tmp (s : State) (v : Ldg) : ({ s with ldg := v } : State).tmp = s.tmp := rfl
@[simp] theorem State.with_ldg_lcs (s : State) (v : Ldg) : ({ s with ldg := v } : State).lcs = s.lcs := rfl
@[simp] theorem State.with_ldg_dbg (s : State) (v : Ldg) : ({ s with ldg := v } : State).dbg = s.dbg := rfl
@[simp] theorem State.with_ldg_tap (s : State) (v : Ldg) : ({ s with ldg := v } : State).tap = s.tap := rfl
@[simp] theorem State.with_ldg_boot (s : State) (v : Ldg) : ({ s with ldg := v } : State).boot = s.boot := rfl
@[simp] theorem State.with_ldg_evt (s : State) (v : Ldg) : ({ s with ldg := v } : State).evt = s.evt := rfl
@[simp] theorem State.with_ldg_pmc (s : State) (v : Ldg) : ({ s with ldg := v } : State).pmc = s.pmc := rfl
@[simp] theorem State.with_ldg_rep (s : State) (v : Ldg) : ({ s with ldg := v } : State).rep = s.rep := rfl
@[simp] theorem State.with_ldg_latch (s : State) (v : Ldg) : ({ s with ldg := v } : State).latch = s.latch := rfl
@[simp] theorem State.with_ldg_freeCtr (s : State) (v : Ldg) : ({ s with ldg := v } : State).freeCtr = s.freeCtr := rfl
@[simp] theorem State.with_ldg_out (s : State) (v : Ldg) : ({ s with ldg := v } : State).out = s.out := rfl
@[simp] theorem State.with_ldg_pending (s : State) (v : Ldg) : ({ s with ldg := v } : State).pending = s.pending := rfl
@[simp] theorem State.with_mpu_tick (s : State) (v : Mpu) : ({ s with mpu := v } : State).tick = s.tick := rfl
@[simp] theorem State.with_mpu_sdl (s : State) (v : Mpu) : ({ s with mpu := v } : State).sdl = s.sdl := rfl
@[simp] theorem State.with_mpu_gth (s : State) (v : Mpu) : ({ s with mpu := v } : State).gth = s.gth := rfl
@[simp] theorem State.with_mpu_kst (s : State) (v : Mpu) : ({ s with mpu := v } : State).kst = s.kst := rfl
@[simp] theorem State.with_mpu_aut (s : State) (v : Mpu) : ({ s with mpu := v } : State).aut = s.aut := rfl
@[simp] theorem State.with_mpu_peat (s : State) (v : Mpu) : ({ s with mpu := v } : State).peat = s.peat := rfl
@[simp] theorem State.with_mpu_eng (s : State) (v : Mpu) : ({ s with mpu := v } : State).eng = s.eng := rfl
@[simp] theorem State.with_mpu_pav (s : State) (v : Mpu) : ({ s with mpu := v } : State).pav = s.pav := rfl
@[simp] theorem State.with_mpu_lib (s : State) (v : Mpu) : ({ s with mpu := v } : State).lib = s.lib := rfl
@[simp] theorem State.with_mpu_bne (s : State) (v : Mpu) : ({ s with mpu := v } : State).bne = s.bne := rfl
@[simp] theorem State.with_mpu_dgs (s : State) (v : Mpu) : ({ s with mpu := v } : State).dgs = s.dgs := rfl
@[simp] theorem State.with_mpu_rng (s : State) (v : Mpu) : ({ s with mpu := v } : State).rng = s.rng := rfl
@[simp] theorem State.with_mpu_prk (s : State) (v : Mpu) : ({ s with mpu := v } : State).prk = s.prk := rfl
@[simp] theorem State.with_mpu_ten (s : State) (v : Mpu) : ({ s with mpu := v } : State).ten = s.ten := rfl
@[simp] theorem State.with_mpu_ldg (s : State) (v : Mpu) : ({ s with mpu := v } : State).ldg = s.ldg := rfl
@[simp] theorem State.with_mpu_mpu (s : State) (v : Mpu) : ({ s with mpu := v } : State).mpu = v := rfl
@[simp] theorem State.with_mpu_pwr (s : State) (v : Mpu) : ({ s with mpu := v } : State).pwr = s.pwr := rfl
@[simp] theorem State.with_mpu_tmp (s : State) (v : Mpu) : ({ s with mpu := v } : State).tmp = s.tmp := rfl
@[simp] theorem State.with_mpu_lcs (s : State) (v : Mpu) : ({ s with mpu := v } : State).lcs = s.lcs := rfl
@[simp] theorem State.with_mpu_dbg (s : State) (v : Mpu) : ({ s with mpu := v } : State).dbg = s.dbg := rfl
@[simp] theorem State.with_mpu_tap (s : State) (v : Mpu) : ({ s with mpu := v } : State).tap = s.tap := rfl
@[simp] theorem State.with_mpu_boot (s : State) (v : Mpu) : ({ s with mpu := v } : State).boot = s.boot := rfl
@[simp] theorem State.with_mpu_evt (s : State) (v : Mpu) : ({ s with mpu := v } : State).evt = s.evt := rfl
@[simp] theorem State.with_mpu_pmc (s : State) (v : Mpu) : ({ s with mpu := v } : State).pmc = s.pmc := rfl
@[simp] theorem State.with_mpu_rep (s : State) (v : Mpu) : ({ s with mpu := v } : State).rep = s.rep := rfl
@[simp] theorem State.with_mpu_latch (s : State) (v : Mpu) : ({ s with mpu := v } : State).latch = s.latch := rfl
@[simp] theorem State.with_mpu_freeCtr (s : State) (v : Mpu) : ({ s with mpu := v } : State).freeCtr = s.freeCtr := rfl
@[simp] theorem State.with_mpu_out (s : State) (v : Mpu) : ({ s with mpu := v } : State).out = s.out := rfl
@[simp] theorem State.with_mpu_pending (s : State) (v : Mpu) : ({ s with mpu := v } : State).pending = s.pending := rfl
@[simp] theorem State.with_pwr_tick (s : State) (v : Pwr) : ({ s with pwr := v } : State).tick = s.tick := rfl
@[simp] theorem State.with_pwr_sdl (s : State) (v : Pwr) : ({ s with pwr := v } : State).sdl = s.sdl := rfl
@[simp] theorem State.with_pwr_gth (s : State) (v : Pwr) : ({ s with pwr := v } : State).gth = s.gth := rfl
@[simp] theorem State.with_pwr_kst (s : State) (v : Pwr) : ({ s with pwr := v } : State).kst = s.kst := rfl
@[simp] theorem State.with_pwr_aut (s : State) (v : Pwr) : ({ s with pwr := v } : State).aut = s.aut := rfl
@[simp] theorem State.with_pwr_peat (s : State) (v : Pwr) : ({ s with pwr := v } : State).peat = s.peat := rfl
@[simp] theorem State.with_pwr_eng (s : State) (v : Pwr) : ({ s with pwr := v } : State).eng = s.eng := rfl
@[simp] theorem State.with_pwr_pav (s : State) (v : Pwr) : ({ s with pwr := v } : State).pav = s.pav := rfl
@[simp] theorem State.with_pwr_lib (s : State) (v : Pwr) : ({ s with pwr := v } : State).lib = s.lib := rfl
@[simp] theorem State.with_pwr_bne (s : State) (v : Pwr) : ({ s with pwr := v } : State).bne = s.bne := rfl
@[simp] theorem State.with_pwr_dgs (s : State) (v : Pwr) : ({ s with pwr := v } : State).dgs = s.dgs := rfl
@[simp] theorem State.with_pwr_rng (s : State) (v : Pwr) : ({ s with pwr := v } : State).rng = s.rng := rfl
@[simp] theorem State.with_pwr_prk (s : State) (v : Pwr) : ({ s with pwr := v } : State).prk = s.prk := rfl
@[simp] theorem State.with_pwr_ten (s : State) (v : Pwr) : ({ s with pwr := v } : State).ten = s.ten := rfl
@[simp] theorem State.with_pwr_ldg (s : State) (v : Pwr) : ({ s with pwr := v } : State).ldg = s.ldg := rfl
@[simp] theorem State.with_pwr_mpu (s : State) (v : Pwr) : ({ s with pwr := v } : State).mpu = s.mpu := rfl
@[simp] theorem State.with_pwr_pwr (s : State) (v : Pwr) : ({ s with pwr := v } : State).pwr = v := rfl
@[simp] theorem State.with_pwr_tmp (s : State) (v : Pwr) : ({ s with pwr := v } : State).tmp = s.tmp := rfl
@[simp] theorem State.with_pwr_lcs (s : State) (v : Pwr) : ({ s with pwr := v } : State).lcs = s.lcs := rfl
@[simp] theorem State.with_pwr_dbg (s : State) (v : Pwr) : ({ s with pwr := v } : State).dbg = s.dbg := rfl
@[simp] theorem State.with_pwr_tap (s : State) (v : Pwr) : ({ s with pwr := v } : State).tap = s.tap := rfl
@[simp] theorem State.with_pwr_boot (s : State) (v : Pwr) : ({ s with pwr := v } : State).boot = s.boot := rfl
@[simp] theorem State.with_pwr_evt (s : State) (v : Pwr) : ({ s with pwr := v } : State).evt = s.evt := rfl
@[simp] theorem State.with_pwr_pmc (s : State) (v : Pwr) : ({ s with pwr := v } : State).pmc = s.pmc := rfl
@[simp] theorem State.with_pwr_rep (s : State) (v : Pwr) : ({ s with pwr := v } : State).rep = s.rep := rfl
@[simp] theorem State.with_pwr_latch (s : State) (v : Pwr) : ({ s with pwr := v } : State).latch = s.latch := rfl
@[simp] theorem State.with_pwr_freeCtr (s : State) (v : Pwr) : ({ s with pwr := v } : State).freeCtr = s.freeCtr := rfl
@[simp] theorem State.with_pwr_out (s : State) (v : Pwr) : ({ s with pwr := v } : State).out = s.out := rfl
@[simp] theorem State.with_pwr_pending (s : State) (v : Pwr) : ({ s with pwr := v } : State).pending = s.pending := rfl
@[simp] theorem State.with_tmp_tick (s : State) (v : Tmp) : ({ s with tmp := v } : State).tick = s.tick := rfl
@[simp] theorem State.with_tmp_sdl (s : State) (v : Tmp) : ({ s with tmp := v } : State).sdl = s.sdl := rfl
@[simp] theorem State.with_tmp_gth (s : State) (v : Tmp) : ({ s with tmp := v } : State).gth = s.gth := rfl
@[simp] theorem State.with_tmp_kst (s : State) (v : Tmp) : ({ s with tmp := v } : State).kst = s.kst := rfl
@[simp] theorem State.with_tmp_aut (s : State) (v : Tmp) : ({ s with tmp := v } : State).aut = s.aut := rfl
@[simp] theorem State.with_tmp_peat (s : State) (v : Tmp) : ({ s with tmp := v } : State).peat = s.peat := rfl
@[simp] theorem State.with_tmp_eng (s : State) (v : Tmp) : ({ s with tmp := v } : State).eng = s.eng := rfl
@[simp] theorem State.with_tmp_pav (s : State) (v : Tmp) : ({ s with tmp := v } : State).pav = s.pav := rfl
@[simp] theorem State.with_tmp_lib (s : State) (v : Tmp) : ({ s with tmp := v } : State).lib = s.lib := rfl
@[simp] theorem State.with_tmp_bne (s : State) (v : Tmp) : ({ s with tmp := v } : State).bne = s.bne := rfl
@[simp] theorem State.with_tmp_dgs (s : State) (v : Tmp) : ({ s with tmp := v } : State).dgs = s.dgs := rfl
@[simp] theorem State.with_tmp_rng (s : State) (v : Tmp) : ({ s with tmp := v } : State).rng = s.rng := rfl
@[simp] theorem State.with_tmp_prk (s : State) (v : Tmp) : ({ s with tmp := v } : State).prk = s.prk := rfl
@[simp] theorem State.with_tmp_ten (s : State) (v : Tmp) : ({ s with tmp := v } : State).ten = s.ten := rfl
@[simp] theorem State.with_tmp_ldg (s : State) (v : Tmp) : ({ s with tmp := v } : State).ldg = s.ldg := rfl
@[simp] theorem State.with_tmp_mpu (s : State) (v : Tmp) : ({ s with tmp := v } : State).mpu = s.mpu := rfl
@[simp] theorem State.with_tmp_pwr (s : State) (v : Tmp) : ({ s with tmp := v } : State).pwr = s.pwr := rfl
@[simp] theorem State.with_tmp_tmp (s : State) (v : Tmp) : ({ s with tmp := v } : State).tmp = v := rfl
@[simp] theorem State.with_tmp_lcs (s : State) (v : Tmp) : ({ s with tmp := v } : State).lcs = s.lcs := rfl
@[simp] theorem State.with_tmp_dbg (s : State) (v : Tmp) : ({ s with tmp := v } : State).dbg = s.dbg := rfl
@[simp] theorem State.with_tmp_tap (s : State) (v : Tmp) : ({ s with tmp := v } : State).tap = s.tap := rfl
@[simp] theorem State.with_tmp_boot (s : State) (v : Tmp) : ({ s with tmp := v } : State).boot = s.boot := rfl
@[simp] theorem State.with_tmp_evt (s : State) (v : Tmp) : ({ s with tmp := v } : State).evt = s.evt := rfl
@[simp] theorem State.with_tmp_pmc (s : State) (v : Tmp) : ({ s with tmp := v } : State).pmc = s.pmc := rfl
@[simp] theorem State.with_tmp_rep (s : State) (v : Tmp) : ({ s with tmp := v } : State).rep = s.rep := rfl
@[simp] theorem State.with_tmp_latch (s : State) (v : Tmp) : ({ s with tmp := v } : State).latch = s.latch := rfl
@[simp] theorem State.with_tmp_freeCtr (s : State) (v : Tmp) : ({ s with tmp := v } : State).freeCtr = s.freeCtr := rfl
@[simp] theorem State.with_tmp_out (s : State) (v : Tmp) : ({ s with tmp := v } : State).out = s.out := rfl
@[simp] theorem State.with_tmp_pending (s : State) (v : Tmp) : ({ s with tmp := v } : State).pending = s.pending := rfl
@[simp] theorem State.with_lcs_tick (s : State) (v : Lcs) : ({ s with lcs := v } : State).tick = s.tick := rfl
@[simp] theorem State.with_lcs_sdl (s : State) (v : Lcs) : ({ s with lcs := v } : State).sdl = s.sdl := rfl
@[simp] theorem State.with_lcs_gth (s : State) (v : Lcs) : ({ s with lcs := v } : State).gth = s.gth := rfl
@[simp] theorem State.with_lcs_kst (s : State) (v : Lcs) : ({ s with lcs := v } : State).kst = s.kst := rfl
@[simp] theorem State.with_lcs_aut (s : State) (v : Lcs) : ({ s with lcs := v } : State).aut = s.aut := rfl
@[simp] theorem State.with_lcs_peat (s : State) (v : Lcs) : ({ s with lcs := v } : State).peat = s.peat := rfl
@[simp] theorem State.with_lcs_eng (s : State) (v : Lcs) : ({ s with lcs := v } : State).eng = s.eng := rfl
@[simp] theorem State.with_lcs_pav (s : State) (v : Lcs) : ({ s with lcs := v } : State).pav = s.pav := rfl
@[simp] theorem State.with_lcs_lib (s : State) (v : Lcs) : ({ s with lcs := v } : State).lib = s.lib := rfl
@[simp] theorem State.with_lcs_bne (s : State) (v : Lcs) : ({ s with lcs := v } : State).bne = s.bne := rfl
@[simp] theorem State.with_lcs_dgs (s : State) (v : Lcs) : ({ s with lcs := v } : State).dgs = s.dgs := rfl
@[simp] theorem State.with_lcs_rng (s : State) (v : Lcs) : ({ s with lcs := v } : State).rng = s.rng := rfl
@[simp] theorem State.with_lcs_prk (s : State) (v : Lcs) : ({ s with lcs := v } : State).prk = s.prk := rfl
@[simp] theorem State.with_lcs_ten (s : State) (v : Lcs) : ({ s with lcs := v } : State).ten = s.ten := rfl
@[simp] theorem State.with_lcs_ldg (s : State) (v : Lcs) : ({ s with lcs := v } : State).ldg = s.ldg := rfl
@[simp] theorem State.with_lcs_mpu (s : State) (v : Lcs) : ({ s with lcs := v } : State).mpu = s.mpu := rfl
@[simp] theorem State.with_lcs_pwr (s : State) (v : Lcs) : ({ s with lcs := v } : State).pwr = s.pwr := rfl
@[simp] theorem State.with_lcs_tmp (s : State) (v : Lcs) : ({ s with lcs := v } : State).tmp = s.tmp := rfl
@[simp] theorem State.with_lcs_lcs (s : State) (v : Lcs) : ({ s with lcs := v } : State).lcs = v := rfl
@[simp] theorem State.with_lcs_dbg (s : State) (v : Lcs) : ({ s with lcs := v } : State).dbg = s.dbg := rfl
@[simp] theorem State.with_lcs_tap (s : State) (v : Lcs) : ({ s with lcs := v } : State).tap = s.tap := rfl
@[simp] theorem State.with_lcs_boot (s : State) (v : Lcs) : ({ s with lcs := v } : State).boot = s.boot := rfl
@[simp] theorem State.with_lcs_evt (s : State) (v : Lcs) : ({ s with lcs := v } : State).evt = s.evt := rfl
@[simp] theorem State.with_lcs_pmc (s : State) (v : Lcs) : ({ s with lcs := v } : State).pmc = s.pmc := rfl
@[simp] theorem State.with_lcs_rep (s : State) (v : Lcs) : ({ s with lcs := v } : State).rep = s.rep := rfl
@[simp] theorem State.with_lcs_latch (s : State) (v : Lcs) : ({ s with lcs := v } : State).latch = s.latch := rfl
@[simp] theorem State.with_lcs_freeCtr (s : State) (v : Lcs) : ({ s with lcs := v } : State).freeCtr = s.freeCtr := rfl
@[simp] theorem State.with_lcs_out (s : State) (v : Lcs) : ({ s with lcs := v } : State).out = s.out := rfl
@[simp] theorem State.with_lcs_pending (s : State) (v : Lcs) : ({ s with lcs := v } : State).pending = s.pending := rfl
@[simp] theorem State.with_dbg_tick (s : State) (v : Dbg) : ({ s with dbg := v } : State).tick = s.tick := rfl
@[simp] theorem State.with_dbg_sdl (s : State) (v : Dbg) : ({ s with dbg := v } : State).sdl = s.sdl := rfl
@[simp] theorem State.with_dbg_gth (s : State) (v : Dbg) : ({ s with dbg := v } : State).gth = s.gth := rfl
@[simp] theorem State.with_dbg_kst (s : State) (v : Dbg) : ({ s with dbg := v } : State).kst = s.kst := rfl
@[simp] theorem State.with_dbg_aut (s : State) (v : Dbg) : ({ s with dbg := v } : State).aut = s.aut := rfl
@[simp] theorem State.with_dbg_peat (s : State) (v : Dbg) : ({ s with dbg := v } : State).peat = s.peat := rfl
@[simp] theorem State.with_dbg_eng (s : State) (v : Dbg) : ({ s with dbg := v } : State).eng = s.eng := rfl
@[simp] theorem State.with_dbg_pav (s : State) (v : Dbg) : ({ s with dbg := v } : State).pav = s.pav := rfl
@[simp] theorem State.with_dbg_lib (s : State) (v : Dbg) : ({ s with dbg := v } : State).lib = s.lib := rfl
@[simp] theorem State.with_dbg_bne (s : State) (v : Dbg) : ({ s with dbg := v } : State).bne = s.bne := rfl
@[simp] theorem State.with_dbg_dgs (s : State) (v : Dbg) : ({ s with dbg := v } : State).dgs = s.dgs := rfl
@[simp] theorem State.with_dbg_rng (s : State) (v : Dbg) : ({ s with dbg := v } : State).rng = s.rng := rfl
@[simp] theorem State.with_dbg_prk (s : State) (v : Dbg) : ({ s with dbg := v } : State).prk = s.prk := rfl
@[simp] theorem State.with_dbg_ten (s : State) (v : Dbg) : ({ s with dbg := v } : State).ten = s.ten := rfl
@[simp] theorem State.with_dbg_ldg (s : State) (v : Dbg) : ({ s with dbg := v } : State).ldg = s.ldg := rfl
@[simp] theorem State.with_dbg_mpu (s : State) (v : Dbg) : ({ s with dbg := v } : State).mpu = s.mpu := rfl
@[simp] theorem State.with_dbg_pwr (s : State) (v : Dbg) : ({ s with dbg := v } : State).pwr = s.pwr := rfl
@[simp] theorem State.with_dbg_tmp (s : State) (v : Dbg) : ({ s with dbg := v } : State).tmp = s.tmp := rfl
@[simp] theorem State.with_dbg_lcs (s : State) (v : Dbg) : ({ s with dbg := v } : State).lcs = s.lcs := rfl
@[simp] theorem State.with_dbg_dbg (s : State) (v : Dbg) : ({ s with dbg := v } : State).dbg = v := rfl
@[simp] theorem State.with_dbg_tap (s : State) (v : Dbg) : ({ s with dbg := v } : State).tap = s.tap := rfl
@[simp] theorem State.with_dbg_boot (s : State) (v : Dbg) : ({ s with dbg := v } : State).boot = s.boot := rfl
@[simp] theorem State.with_dbg_evt (s : State) (v : Dbg) : ({ s with dbg := v } : State).evt = s.evt := rfl
@[simp] theorem State.with_dbg_pmc (s : State) (v : Dbg) : ({ s with dbg := v } : State).pmc = s.pmc := rfl
@[simp] theorem State.with_dbg_rep (s : State) (v : Dbg) : ({ s with dbg := v } : State).rep = s.rep := rfl
@[simp] theorem State.with_dbg_latch (s : State) (v : Dbg) : ({ s with dbg := v } : State).latch = s.latch := rfl
@[simp] theorem State.with_dbg_freeCtr (s : State) (v : Dbg) : ({ s with dbg := v } : State).freeCtr = s.freeCtr := rfl
@[simp] theorem State.with_dbg_out (s : State) (v : Dbg) : ({ s with dbg := v } : State).out = s.out := rfl
@[simp] theorem State.with_dbg_pending (s : State) (v : Dbg) : ({ s with dbg := v } : State).pending = s.pending := rfl
@[simp] theorem State.with_tap_tick (s : State) (v : Tap) : ({ s with tap := v } : State).tick = s.tick := rfl
@[simp] theorem State.with_tap_sdl (s : State) (v : Tap) : ({ s with tap := v } : State).sdl = s.sdl := rfl
@[simp] theorem State.with_tap_gth (s : State) (v : Tap) : ({ s with tap := v } : State).gth = s.gth := rfl
@[simp] theorem State.with_tap_kst (s : State) (v : Tap) : ({ s with tap := v } : State).kst = s.kst := rfl
@[simp] theorem State.with_tap_aut (s : State) (v : Tap) : ({ s with tap := v } : State).aut = s.aut := rfl
@[simp] theorem State.with_tap_peat (s : State) (v : Tap) : ({ s with tap := v } : State).peat = s.peat := rfl
@[simp] theorem State.with_tap_eng (s : State) (v : Tap) : ({ s with tap := v } : State).eng = s.eng := rfl
@[simp] theorem State.with_tap_pav (s : State) (v : Tap) : ({ s with tap := v } : State).pav = s.pav := rfl
@[simp] theorem State.with_tap_lib (s : State) (v : Tap) : ({ s with tap := v } : State).lib = s.lib := rfl
@[simp] theorem State.with_tap_bne (s : State) (v : Tap) : ({ s with tap := v } : State).bne = s.bne := rfl
@[simp] theorem State.with_tap_dgs (s : State) (v : Tap) : ({ s with tap := v } : State).dgs = s.dgs := rfl
@[simp] theorem State.with_tap_rng (s : State) (v : Tap) : ({ s with tap := v } : State).rng = s.rng := rfl
@[simp] theorem State.with_tap_prk (s : State) (v : Tap) : ({ s with tap := v } : State).prk = s.prk := rfl
@[simp] theorem State.with_tap_ten (s : State) (v : Tap) : ({ s with tap := v } : State).ten = s.ten := rfl
@[simp] theorem State.with_tap_ldg (s : State) (v : Tap) : ({ s with tap := v } : State).ldg = s.ldg := rfl
@[simp] theorem State.with_tap_mpu (s : State) (v : Tap) : ({ s with tap := v } : State).mpu = s.mpu := rfl
@[simp] theorem State.with_tap_pwr (s : State) (v : Tap) : ({ s with tap := v } : State).pwr = s.pwr := rfl
@[simp] theorem State.with_tap_tmp (s : State) (v : Tap) : ({ s with tap := v } : State).tmp = s.tmp := rfl
@[simp] theorem State.with_tap_lcs (s : State) (v : Tap) : ({ s with tap := v } : State).lcs = s.lcs := rfl
@[simp] theorem State.with_tap_dbg (s : State) (v : Tap) : ({ s with tap := v } : State).dbg = s.dbg := rfl
@[simp] theorem State.with_tap_tap (s : State) (v : Tap) : ({ s with tap := v } : State).tap = v := rfl
@[simp] theorem State.with_tap_boot (s : State) (v : Tap) : ({ s with tap := v } : State).boot = s.boot := rfl
@[simp] theorem State.with_tap_evt (s : State) (v : Tap) : ({ s with tap := v } : State).evt = s.evt := rfl
@[simp] theorem State.with_tap_pmc (s : State) (v : Tap) : ({ s with tap := v } : State).pmc = s.pmc := rfl
@[simp] theorem State.with_tap_rep (s : State) (v : Tap) : ({ s with tap := v } : State).rep = s.rep := rfl
@[simp] theorem State.with_tap_latch (s : State) (v : Tap) : ({ s with tap := v } : State).latch = s.latch := rfl
@[simp] theorem State.with_tap_freeCtr (s : State) (v : Tap) : ({ s with tap := v } : State).freeCtr = s.freeCtr := rfl
@[simp] theorem State.with_tap_out (s : State) (v : Tap) : ({ s with tap := v } : State).out = s.out := rfl
@[simp] theorem State.with_tap_pending (s : State) (v : Tap) : ({ s with tap := v } : State).pending = s.pending := rfl
@[simp] theorem State.with_boot_tick (s : State) (v : Boot) : ({ s with boot := v } : State).tick = s.tick := rfl
@[simp] theorem State.with_boot_sdl (s : State) (v : Boot) : ({ s with boot := v } : State).sdl = s.sdl := rfl
@[simp] theorem State.with_boot_gth (s : State) (v : Boot) : ({ s with boot := v } : State).gth = s.gth := rfl
@[simp] theorem State.with_boot_kst (s : State) (v : Boot) : ({ s with boot := v } : State).kst = s.kst := rfl
@[simp] theorem State.with_boot_aut (s : State) (v : Boot) : ({ s with boot := v } : State).aut = s.aut := rfl
@[simp] theorem State.with_boot_peat (s : State) (v : Boot) : ({ s with boot := v } : State).peat = s.peat := rfl
@[simp] theorem State.with_boot_eng (s : State) (v : Boot) : ({ s with boot := v } : State).eng = s.eng := rfl
@[simp] theorem State.with_boot_pav (s : State) (v : Boot) : ({ s with boot := v } : State).pav = s.pav := rfl
@[simp] theorem State.with_boot_lib (s : State) (v : Boot) : ({ s with boot := v } : State).lib = s.lib := rfl
@[simp] theorem State.with_boot_bne (s : State) (v : Boot) : ({ s with boot := v } : State).bne = s.bne := rfl
@[simp] theorem State.with_boot_dgs (s : State) (v : Boot) : ({ s with boot := v } : State).dgs = s.dgs := rfl
@[simp] theorem State.with_boot_rng (s : State) (v : Boot) : ({ s with boot := v } : State).rng = s.rng := rfl
@[simp] theorem State.with_boot_prk (s : State) (v : Boot) : ({ s with boot := v } : State).prk = s.prk := rfl
@[simp] theorem State.with_boot_ten (s : State) (v : Boot) : ({ s with boot := v } : State).ten = s.ten := rfl
@[simp] theorem State.with_boot_ldg (s : State) (v : Boot) : ({ s with boot := v } : State).ldg = s.ldg := rfl
@[simp] theorem State.with_boot_mpu (s : State) (v : Boot) : ({ s with boot := v } : State).mpu = s.mpu := rfl
@[simp] theorem State.with_boot_pwr (s : State) (v : Boot) : ({ s with boot := v } : State).pwr = s.pwr := rfl
@[simp] theorem State.with_boot_tmp (s : State) (v : Boot) : ({ s with boot := v } : State).tmp = s.tmp := rfl
@[simp] theorem State.with_boot_lcs (s : State) (v : Boot) : ({ s with boot := v } : State).lcs = s.lcs := rfl
@[simp] theorem State.with_boot_dbg (s : State) (v : Boot) : ({ s with boot := v } : State).dbg = s.dbg := rfl
@[simp] theorem State.with_boot_tap (s : State) (v : Boot) : ({ s with boot := v } : State).tap = s.tap := rfl
@[simp] theorem State.with_boot_boot (s : State) (v : Boot) : ({ s with boot := v } : State).boot = v := rfl
@[simp] theorem State.with_boot_evt (s : State) (v : Boot) : ({ s with boot := v } : State).evt = s.evt := rfl
@[simp] theorem State.with_boot_pmc (s : State) (v : Boot) : ({ s with boot := v } : State).pmc = s.pmc := rfl
@[simp] theorem State.with_boot_rep (s : State) (v : Boot) : ({ s with boot := v } : State).rep = s.rep := rfl
@[simp] theorem State.with_boot_latch (s : State) (v : Boot) : ({ s with boot := v } : State).latch = s.latch := rfl
@[simp] theorem State.with_boot_freeCtr (s : State) (v : Boot) : ({ s with boot := v } : State).freeCtr = s.freeCtr := rfl
@[simp] theorem State.with_boot_out (s : State) (v : Boot) : ({ s with boot := v } : State).out = s.out := rfl
@[simp] theorem State.with_boot_pending (s : State) (v : Boot) : ({ s with boot := v } : State).pending = s.pending := rfl
@[simp] theorem State.with_evt_tick (s : State) (v : Evt) : ({ s with evt := v } : State).tick = s.tick := rfl
@[simp] theorem State.with_evt_sdl (s : State) (v : Evt) : ({ s with evt := v } : State).sdl = s.sdl := rfl
@[simp] theorem State.with_evt_gth (s : State) (v : Evt) : ({ s with evt := v } : State).gth = s.gth := rfl
@[simp] theorem State.with_evt_kst (s : State) (v : Evt) : ({ s with evt := v } : State).kst = s.kst := rfl
@[simp] theorem State.with_evt_aut (s : State) (v : Evt) : ({ s with evt := v } : State).aut = s.aut := rfl
@[simp] theorem State.with_evt_peat (s : State) (v : Evt) : ({ s with evt := v } : State).peat = s.peat := rfl
@[simp] theorem State.with_evt_eng (s : State) (v : Evt) : ({ s with evt := v } : State).eng = s.eng := rfl
@[simp] theorem State.with_evt_pav (s : State) (v : Evt) : ({ s with evt := v } : State).pav = s.pav := rfl
@[simp] theorem State.with_evt_lib (s : State) (v : Evt) : ({ s with evt := v } : State).lib = s.lib := rfl
@[simp] theorem State.with_evt_bne (s : State) (v : Evt) : ({ s with evt := v } : State).bne = s.bne := rfl
@[simp] theorem State.with_evt_dgs (s : State) (v : Evt) : ({ s with evt := v } : State).dgs = s.dgs := rfl
@[simp] theorem State.with_evt_rng (s : State) (v : Evt) : ({ s with evt := v } : State).rng = s.rng := rfl
@[simp] theorem State.with_evt_prk (s : State) (v : Evt) : ({ s with evt := v } : State).prk = s.prk := rfl
@[simp] theorem State.with_evt_ten (s : State) (v : Evt) : ({ s with evt := v } : State).ten = s.ten := rfl
@[simp] theorem State.with_evt_ldg (s : State) (v : Evt) : ({ s with evt := v } : State).ldg = s.ldg := rfl
@[simp] theorem State.with_evt_mpu (s : State) (v : Evt) : ({ s with evt := v } : State).mpu = s.mpu := rfl
@[simp] theorem State.with_evt_pwr (s : State) (v : Evt) : ({ s with evt := v } : State).pwr = s.pwr := rfl
@[simp] theorem State.with_evt_tmp (s : State) (v : Evt) : ({ s with evt := v } : State).tmp = s.tmp := rfl
@[simp] theorem State.with_evt_lcs (s : State) (v : Evt) : ({ s with evt := v } : State).lcs = s.lcs := rfl
@[simp] theorem State.with_evt_dbg (s : State) (v : Evt) : ({ s with evt := v } : State).dbg = s.dbg := rfl
@[simp] theorem State.with_evt_tap (s : State) (v : Evt) : ({ s with evt := v } : State).tap = s.tap := rfl
@[simp] theorem State.with_evt_boot (s : State) (v : Evt) : ({ s with evt := v } : State).boot = s.boot := rfl
@[simp] theorem State.with_evt_evt (s : State) (v : Evt) : ({ s with evt := v } : State).evt = v := rfl
@[simp] theorem State.with_evt_pmc (s : State) (v : Evt) : ({ s with evt := v } : State).pmc = s.pmc := rfl
@[simp] theorem State.with_evt_rep (s : State) (v : Evt) : ({ s with evt := v } : State).rep = s.rep := rfl
@[simp] theorem State.with_evt_latch (s : State) (v : Evt) : ({ s with evt := v } : State).latch = s.latch := rfl
@[simp] theorem State.with_evt_freeCtr (s : State) (v : Evt) : ({ s with evt := v } : State).freeCtr = s.freeCtr := rfl
@[simp] theorem State.with_evt_out (s : State) (v : Evt) : ({ s with evt := v } : State).out = s.out := rfl
@[simp] theorem State.with_evt_pending (s : State) (v : Evt) : ({ s with evt := v } : State).pending = s.pending := rfl
@[simp] theorem State.with_pmc_tick (s : State) (v : Pmc) : ({ s with pmc := v } : State).tick = s.tick := rfl
@[simp] theorem State.with_pmc_sdl (s : State) (v : Pmc) : ({ s with pmc := v } : State).sdl = s.sdl := rfl
@[simp] theorem State.with_pmc_gth (s : State) (v : Pmc) : ({ s with pmc := v } : State).gth = s.gth := rfl
@[simp] theorem State.with_pmc_kst (s : State) (v : Pmc) : ({ s with pmc := v } : State).kst = s.kst := rfl
@[simp] theorem State.with_pmc_aut (s : State) (v : Pmc) : ({ s with pmc := v } : State).aut = s.aut := rfl
@[simp] theorem State.with_pmc_peat (s : State) (v : Pmc) : ({ s with pmc := v } : State).peat = s.peat := rfl
@[simp] theorem State.with_pmc_eng (s : State) (v : Pmc) : ({ s with pmc := v } : State).eng = s.eng := rfl
@[simp] theorem State.with_pmc_pav (s : State) (v : Pmc) : ({ s with pmc := v } : State).pav = s.pav := rfl
@[simp] theorem State.with_pmc_lib (s : State) (v : Pmc) : ({ s with pmc := v } : State).lib = s.lib := rfl
@[simp] theorem State.with_pmc_bne (s : State) (v : Pmc) : ({ s with pmc := v } : State).bne = s.bne := rfl
@[simp] theorem State.with_pmc_dgs (s : State) (v : Pmc) : ({ s with pmc := v } : State).dgs = s.dgs := rfl
@[simp] theorem State.with_pmc_rng (s : State) (v : Pmc) : ({ s with pmc := v } : State).rng = s.rng := rfl
@[simp] theorem State.with_pmc_prk (s : State) (v : Pmc) : ({ s with pmc := v } : State).prk = s.prk := rfl
@[simp] theorem State.with_pmc_ten (s : State) (v : Pmc) : ({ s with pmc := v } : State).ten = s.ten := rfl
@[simp] theorem State.with_pmc_ldg (s : State) (v : Pmc) : ({ s with pmc := v } : State).ldg = s.ldg := rfl
@[simp] theorem State.with_pmc_mpu (s : State) (v : Pmc) : ({ s with pmc := v } : State).mpu = s.mpu := rfl
@[simp] theorem State.with_pmc_pwr (s : State) (v : Pmc) : ({ s with pmc := v } : State).pwr = s.pwr := rfl
@[simp] theorem State.with_pmc_tmp (s : State) (v : Pmc) : ({ s with pmc := v } : State).tmp = s.tmp := rfl
@[simp] theorem State.with_pmc_lcs (s : State) (v : Pmc) : ({ s with pmc := v } : State).lcs = s.lcs := rfl
@[simp] theorem State.with_pmc_dbg (s : State) (v : Pmc) : ({ s with pmc := v } : State).dbg = s.dbg := rfl
@[simp] theorem State.with_pmc_tap (s : State) (v : Pmc) : ({ s with pmc := v } : State).tap = s.tap := rfl
@[simp] theorem State.with_pmc_boot (s : State) (v : Pmc) : ({ s with pmc := v } : State).boot = s.boot := rfl
@[simp] theorem State.with_pmc_evt (s : State) (v : Pmc) : ({ s with pmc := v } : State).evt = s.evt := rfl
@[simp] theorem State.with_pmc_pmc (s : State) (v : Pmc) : ({ s with pmc := v } : State).pmc = v := rfl
@[simp] theorem State.with_pmc_rep (s : State) (v : Pmc) : ({ s with pmc := v } : State).rep = s.rep := rfl
@[simp] theorem State.with_pmc_latch (s : State) (v : Pmc) : ({ s with pmc := v } : State).latch = s.latch := rfl
@[simp] theorem State.with_pmc_freeCtr (s : State) (v : Pmc) : ({ s with pmc := v } : State).freeCtr = s.freeCtr := rfl
@[simp] theorem State.with_pmc_out (s : State) (v : Pmc) : ({ s with pmc := v } : State).out = s.out := rfl
@[simp] theorem State.with_pmc_pending (s : State) (v : Pmc) : ({ s with pmc := v } : State).pending = s.pending := rfl
@[simp] theorem State.with_rep_tick (s : State) (v : Rep) : ({ s with rep := v } : State).tick = s.tick := rfl
@[simp] theorem State.with_rep_sdl (s : State) (v : Rep) : ({ s with rep := v } : State).sdl = s.sdl := rfl
@[simp] theorem State.with_rep_gth (s : State) (v : Rep) : ({ s with rep := v } : State).gth = s.gth := rfl
@[simp] theorem State.with_rep_kst (s : State) (v : Rep) : ({ s with rep := v } : State).kst = s.kst := rfl
@[simp] theorem State.with_rep_aut (s : State) (v : Rep) : ({ s with rep := v } : State).aut = s.aut := rfl
@[simp] theorem State.with_rep_peat (s : State) (v : Rep) : ({ s with rep := v } : State).peat = s.peat := rfl
@[simp] theorem State.with_rep_eng (s : State) (v : Rep) : ({ s with rep := v } : State).eng = s.eng := rfl
@[simp] theorem State.with_rep_pav (s : State) (v : Rep) : ({ s with rep := v } : State).pav = s.pav := rfl
@[simp] theorem State.with_rep_lib (s : State) (v : Rep) : ({ s with rep := v } : State).lib = s.lib := rfl
@[simp] theorem State.with_rep_bne (s : State) (v : Rep) : ({ s with rep := v } : State).bne = s.bne := rfl
@[simp] theorem State.with_rep_dgs (s : State) (v : Rep) : ({ s with rep := v } : State).dgs = s.dgs := rfl
@[simp] theorem State.with_rep_rng (s : State) (v : Rep) : ({ s with rep := v } : State).rng = s.rng := rfl
@[simp] theorem State.with_rep_prk (s : State) (v : Rep) : ({ s with rep := v } : State).prk = s.prk := rfl
@[simp] theorem State.with_rep_ten (s : State) (v : Rep) : ({ s with rep := v } : State).ten = s.ten := rfl
@[simp] theorem State.with_rep_ldg (s : State) (v : Rep) : ({ s with rep := v } : State).ldg = s.ldg := rfl
@[simp] theorem State.with_rep_mpu (s : State) (v : Rep) : ({ s with rep := v } : State).mpu = s.mpu := rfl
@[simp] theorem State.with_rep_pwr (s : State) (v : Rep) : ({ s with rep := v } : State).pwr = s.pwr := rfl
@[simp] theorem State.with_rep_tmp (s : State) (v : Rep) : ({ s with rep := v } : State).tmp = s.tmp := rfl
@[simp] theorem State.with_rep_lcs (s : State) (v : Rep) : ({ s with rep := v } : State).lcs = s.lcs := rfl
@[simp] theorem State.with_rep_dbg (s : State) (v : Rep) : ({ s with rep := v } : State).dbg = s.dbg := rfl
@[simp] theorem State.with_rep_tap (s : State) (v : Rep) : ({ s with rep := v } : State).tap = s.tap := rfl
@[simp] theorem State.with_rep_boot (s : State) (v : Rep) : ({ s with rep := v } : State).boot = s.boot := rfl
@[simp] theorem State.with_rep_evt (s : State) (v : Rep) : ({ s with rep := v } : State).evt = s.evt := rfl
@[simp] theorem State.with_rep_pmc (s : State) (v : Rep) : ({ s with rep := v } : State).pmc = s.pmc := rfl
@[simp] theorem State.with_rep_rep (s : State) (v : Rep) : ({ s with rep := v } : State).rep = v := rfl
@[simp] theorem State.with_rep_latch (s : State) (v : Rep) : ({ s with rep := v } : State).latch = s.latch := rfl
@[simp] theorem State.with_rep_freeCtr (s : State) (v : Rep) : ({ s with rep := v } : State).freeCtr = s.freeCtr := rfl
@[simp] theorem State.with_rep_out (s : State) (v : Rep) : ({ s with rep := v } : State).out = s.out := rfl
@[simp] theorem State.with_rep_pending (s : State) (v : Rep) : ({ s with rep := v } : State).pending = s.pending := rfl
@[simp] theorem State.with_latch_tick (s : State) (v : KMap Nat) : ({ s with latch := v } : State).tick = s.tick := rfl
@[simp] theorem State.with_latch_sdl (s : State) (v : KMap Nat) : ({ s with latch := v } : State).sdl = s.sdl := rfl
@[simp] theorem State.with_latch_gth (s : State) (v : KMap Nat) : ({ s with latch := v } : State).gth = s.gth := rfl
@[simp] theorem State.with_latch_kst (s : State) (v : KMap Nat) : ({ s with latch := v } : State).kst = s.kst := rfl
@[simp] theorem State.with_latch_aut (s : State) (v : KMap Nat) : ({ s with latch := v } : State).aut = s.aut := rfl
@[simp] theorem State.with_latch_peat (s : State) (v : KMap Nat) : ({ s with latch := v } : State).peat = s.peat := rfl
@[simp] theorem State.with_latch_eng (s : State) (v : KMap Nat) : ({ s with latch := v } : State).eng = s.eng := rfl
@[simp] theorem State.with_latch_pav (s : State) (v : KMap Nat) : ({ s with latch := v } : State).pav = s.pav := rfl
@[simp] theorem State.with_latch_lib (s : State) (v : KMap Nat) : ({ s with latch := v } : State).lib = s.lib := rfl
@[simp] theorem State.with_latch_bne (s : State) (v : KMap Nat) : ({ s with latch := v } : State).bne = s.bne := rfl
@[simp] theorem State.with_latch_dgs (s : State) (v : KMap Nat) : ({ s with latch := v } : State).dgs = s.dgs := rfl
@[simp] theorem State.with_latch_rng (s : State) (v : KMap Nat) : ({ s with latch := v } : State).rng = s.rng := rfl
@[simp] theorem State.with_latch_prk (s : State) (v : KMap Nat) : ({ s with latch := v } : State).prk = s.prk := rfl
@[simp] theorem State.with_latch_ten (s : State) (v : KMap Nat) : ({ s with latch := v } : State).ten = s.ten := rfl
@[simp] theorem State.with_latch_ldg (s : State) (v : KMap Nat) : ({ s with latch := v } : State).ldg = s.ldg := rfl
@[simp] theorem State.with_latch_mpu (s : State) (v : KMap Nat) : ({ s with latch := v } : State).mpu = s.mpu := rfl
@[simp] theorem State.with_latch_pwr (s : State) (v : KMap Nat) : ({ s with latch := v } : State).pwr = s.pwr := rfl
@[simp] theorem State.with_latch_tmp (s : State) (v : KMap Nat) : ({ s with latch := v } : State).tmp = s.tmp := rfl
@[simp] theorem State.with_latch_lcs (s : State) (v : KMap Nat) : ({ s with latch := v } : State).lcs = s.lcs := rfl
@[simp] theorem State.with_latch_dbg (s : State) (v : KMap Nat) : ({ s with latch := v } : State).dbg = s.dbg := rfl
@[simp] theorem State.with_latch_tap (s : State) (v : KMap Nat) : ({ s with latch := v } : State).tap = s.tap := rfl
@[simp] theorem State.with_latch_boot (s : State) (v : KMap Nat) : ({ s with latch := v } : State).boot = s.boot := rfl
@[simp] theorem State.with_latch_evt (s : State) (v : KMap Nat) : ({ s with latch := v } : State).evt = s.evt := rfl
@[simp] theorem State.with_latch_pmc (s : State) (v : KMap Nat) : ({ s with latch := v } : State).pmc = s.pmc := rfl
@[simp] theorem State.with_latch_rep (s : State) (v : KMap Nat) : ({ s with latch := v } : State).rep = s.rep := rfl
@[simp] theorem State.with_latch_latch (s : State) (v : KMap Nat) : ({ s with latch := v } : State).latch = v := rfl
@[simp] theorem State.with_latch_freeCtr (s : State) (v : KMap Nat) : ({ s with latch := v } : State).freeCtr = s.freeCtr := rfl
@[simp] theorem State.with_latch_out (s : State) (v : KMap Nat) : ({ s with latch := v } : State).out = s.out := rfl
@[simp] theorem State.with_latch_pending (s : State) (v : KMap Nat) : ({ s with latch := v } : State).pending = s.pending := rfl
@[simp] theorem State.with_freeCtr_tick (s : State) (v : Nat) : ({ s with freeCtr := v } : State).tick = s.tick := rfl
@[simp] theorem State.with_freeCtr_sdl (s : State) (v : Nat) : ({ s with freeCtr := v } : State).sdl = s.sdl := rfl
@[simp] theorem State.with_freeCtr_gth (s : State) (v : Nat) : ({ s with freeCtr := v } : State).gth = s.gth := rfl
@[simp] theorem State.with_freeCtr_kst (s : State) (v : Nat) : ({ s with freeCtr := v } : State).kst = s.kst := rfl
@[simp] theorem State.with_freeCtr_aut (s : State) (v : Nat) : ({ s with freeCtr := v } : State).aut = s.aut := rfl
@[simp] theorem State.with_freeCtr_peat (s : State) (v : Nat) : ({ s with freeCtr := v } : State).peat = s.peat := rfl
@[simp] theorem State.with_freeCtr_eng (s : State) (v : Nat) : ({ s with freeCtr := v } : State).eng = s.eng := rfl
@[simp] theorem State.with_freeCtr_pav (s : State) (v : Nat) : ({ s with freeCtr := v } : State).pav = s.pav := rfl
@[simp] theorem State.with_freeCtr_lib (s : State) (v : Nat) : ({ s with freeCtr := v } : State).lib = s.lib := rfl
@[simp] theorem State.with_freeCtr_bne (s : State) (v : Nat) : ({ s with freeCtr := v } : State).bne = s.bne := rfl
@[simp] theorem State.with_freeCtr_dgs (s : State) (v : Nat) : ({ s with freeCtr := v } : State).dgs = s.dgs := rfl
@[simp] theorem State.with_freeCtr_rng (s : State) (v : Nat) : ({ s with freeCtr := v } : State).rng = s.rng := rfl
@[simp] theorem State.with_freeCtr_prk (s : State) (v : Nat) : ({ s with freeCtr := v } : State).prk = s.prk := rfl
@[simp] theorem State.with_freeCtr_ten (s : State) (v : Nat) : ({ s with freeCtr := v } : State).ten = s.ten := rfl
@[simp] theorem State.with_freeCtr_ldg (s : State) (v : Nat) : ({ s with freeCtr := v } : State).ldg = s.ldg := rfl
@[simp] theorem State.with_freeCtr_mpu (s : State) (v : Nat) : ({ s with freeCtr := v } : State).mpu = s.mpu := rfl
@[simp] theorem State.with_freeCtr_pwr (s : State) (v : Nat) : ({ s with freeCtr := v } : State).pwr = s.pwr := rfl
@[simp] theorem State.with_freeCtr_tmp (s : State) (v : Nat) : ({ s with freeCtr := v } : State).tmp = s.tmp := rfl
@[simp] theorem State.with_freeCtr_lcs (s : State) (v : Nat) : ({ s with freeCtr := v } : State).lcs = s.lcs := rfl
@[simp] theorem State.with_freeCtr_dbg (s : State) (v : Nat) : ({ s with freeCtr := v } : State).dbg = s.dbg := rfl
@[simp] theorem State.with_freeCtr_tap (s : State) (v : Nat) : ({ s with freeCtr := v } : State).tap = s.tap := rfl
@[simp] theorem State.with_freeCtr_boot (s : State) (v : Nat) : ({ s with freeCtr := v } : State).boot = s.boot := rfl
@[simp] theorem State.with_freeCtr_evt (s : State) (v : Nat) : ({ s with freeCtr := v } : State).evt = s.evt := rfl
@[simp] theorem State.with_freeCtr_pmc (s : State) (v : Nat) : ({ s with freeCtr := v } : State).pmc = s.pmc := rfl
@[simp] theorem State.with_freeCtr_rep (s : State) (v : Nat) : ({ s with freeCtr := v } : State).rep = s.rep := rfl
@[simp] theorem State.with_freeCtr_latch (s : State) (v : Nat) : ({ s with freeCtr := v } : State).latch = s.latch := rfl
@[simp] theorem State.with_freeCtr_freeCtr (s : State) (v : Nat) : ({ s with freeCtr := v } : State).freeCtr = v := rfl
@[simp] theorem State.with_freeCtr_out (s : State) (v : Nat) : ({ s with freeCtr := v } : State).out = s.out := rfl
@[simp] theorem State.with_freeCtr_pending (s : State) (v : Nat) : ({ s with freeCtr := v } : State).pending = s.pending := rfl
@[simp] theorem State.with_out_tick (s : State) (v : List Output) : ({ s with out := v } : State).tick = s.tick := rfl
@[simp] theorem State.with_out_sdl (s : State) (v : List Output) : ({ s with out := v } : State).sdl = s.sdl := rfl
@[simp] theorem State.with_out_gth (s : State) (v : List Output) : ({ s with out := v } : State).gth = s.gth := rfl
@[simp] theorem State.with_out_kst (s : State) (v : List Output) : ({ s with out := v } : State).kst = s.kst := rfl
@[simp] theorem State.with_out_aut (s : State) (v : List Output) : ({ s with out := v } : State).aut = s.aut := rfl
@[simp] theorem State.with_out_peat (s : State) (v : List Output) : ({ s with out := v } : State).peat = s.peat := rfl
@[simp] theorem State.with_out_eng (s : State) (v : List Output) : ({ s with out := v } : State).eng = s.eng := rfl
@[simp] theorem State.with_out_pav (s : State) (v : List Output) : ({ s with out := v } : State).pav = s.pav := rfl
@[simp] theorem State.with_out_lib (s : State) (v : List Output) : ({ s with out := v } : State).lib = s.lib := rfl
@[simp] theorem State.with_out_bne (s : State) (v : List Output) : ({ s with out := v } : State).bne = s.bne := rfl
@[simp] theorem State.with_out_dgs (s : State) (v : List Output) : ({ s with out := v } : State).dgs = s.dgs := rfl
@[simp] theorem State.with_out_rng (s : State) (v : List Output) : ({ s with out := v } : State).rng = s.rng := rfl
@[simp] theorem State.with_out_prk (s : State) (v : List Output) : ({ s with out := v } : State).prk = s.prk := rfl
@[simp] theorem State.with_out_ten (s : State) (v : List Output) : ({ s with out := v } : State).ten = s.ten := rfl
@[simp] theorem State.with_out_ldg (s : State) (v : List Output) : ({ s with out := v } : State).ldg = s.ldg := rfl
@[simp] theorem State.with_out_mpu (s : State) (v : List Output) : ({ s with out := v } : State).mpu = s.mpu := rfl
@[simp] theorem State.with_out_pwr (s : State) (v : List Output) : ({ s with out := v } : State).pwr = s.pwr := rfl
@[simp] theorem State.with_out_tmp (s : State) (v : List Output) : ({ s with out := v } : State).tmp = s.tmp := rfl
@[simp] theorem State.with_out_lcs (s : State) (v : List Output) : ({ s with out := v } : State).lcs = s.lcs := rfl
@[simp] theorem State.with_out_dbg (s : State) (v : List Output) : ({ s with out := v } : State).dbg = s.dbg := rfl
@[simp] theorem State.with_out_tap (s : State) (v : List Output) : ({ s with out := v } : State).tap = s.tap := rfl
@[simp] theorem State.with_out_boot (s : State) (v : List Output) : ({ s with out := v } : State).boot = s.boot := rfl
@[simp] theorem State.with_out_evt (s : State) (v : List Output) : ({ s with out := v } : State).evt = s.evt := rfl
@[simp] theorem State.with_out_pmc (s : State) (v : List Output) : ({ s with out := v } : State).pmc = s.pmc := rfl
@[simp] theorem State.with_out_rep (s : State) (v : List Output) : ({ s with out := v } : State).rep = s.rep := rfl
@[simp] theorem State.with_out_latch (s : State) (v : List Output) : ({ s with out := v } : State).latch = s.latch := rfl
@[simp] theorem State.with_out_freeCtr (s : State) (v : List Output) : ({ s with out := v } : State).freeCtr = s.freeCtr := rfl
@[simp] theorem State.with_out_out (s : State) (v : List Output) : ({ s with out := v } : State).out = v := rfl
@[simp] theorem State.with_out_pending (s : State) (v : List Output) : ({ s with out := v } : State).pending = s.pending := rfl
@[simp] theorem State.with_pending_tick (s : State) (v : List Instr) : ({ s with pending := v } : State).tick = s.tick := rfl
@[simp] theorem State.with_pending_sdl (s : State) (v : List Instr) : ({ s with pending := v } : State).sdl = s.sdl := rfl
@[simp] theorem State.with_pending_gth (s : State) (v : List Instr) : ({ s with pending := v } : State).gth = s.gth := rfl
@[simp] theorem State.with_pending_kst (s : State) (v : List Instr) : ({ s with pending := v } : State).kst = s.kst := rfl
@[simp] theorem State.with_pending_aut (s : State) (v : List Instr) : ({ s with pending := v } : State).aut = s.aut := rfl
@[simp] theorem State.with_pending_peat (s : State) (v : List Instr) : ({ s with pending := v } : State).peat = s.peat := rfl
@[simp] theorem State.with_pending_eng (s : State) (v : List Instr) : ({ s with pending := v } : State).eng = s.eng := rfl
@[simp] theorem State.with_pending_pav (s : State) (v : List Instr) : ({ s with pending := v } : State).pav = s.pav := rfl
@[simp] theorem State.with_pending_lib (s : State) (v : List Instr) : ({ s with pending := v } : State).lib = s.lib := rfl
@[simp] theorem State.with_pending_bne (s : State) (v : List Instr) : ({ s with pending := v } : State).bne = s.bne := rfl
@[simp] theorem State.with_pending_dgs (s : State) (v : List Instr) : ({ s with pending := v } : State).dgs = s.dgs := rfl
@[simp] theorem State.with_pending_rng (s : State) (v : List Instr) : ({ s with pending := v } : State).rng = s.rng := rfl
@[simp] theorem State.with_pending_prk (s : State) (v : List Instr) : ({ s with pending := v } : State).prk = s.prk := rfl
@[simp] theorem State.with_pending_ten (s : State) (v : List Instr) : ({ s with pending := v } : State).ten = s.ten := rfl
@[simp] theorem State.with_pending_ldg (s : State) (v : List Instr) : ({ s with pending := v } : State).ldg = s.ldg := rfl
@[simp] theorem State.with_pending_mpu (s : State) (v : List Instr) : ({ s with pending := v } : State).mpu = s.mpu := rfl
@[simp] theorem State.with_pending_pwr (s : State) (v : List Instr) : ({ s with pending := v } : State).pwr = s.pwr := rfl
@[simp] theorem State.with_pending_tmp (s : State) (v : List Instr) : ({ s with pending := v } : State).tmp = s.tmp := rfl
@[simp] theorem State.with_pending_lcs (s : State) (v : List Instr) : ({ s with pending := v } : State).lcs = s.lcs := rfl
@[simp] theorem State.with_pending_dbg (s : State) (v : List Instr) : ({ s with pending := v } : State).dbg = s.dbg := rfl
@[simp] theorem State.with_pending_tap (s : State) (v : List Instr) : ({ s with pending := v } : State).tap = s.tap := rfl
@[simp] theorem State.with_pending_boot (s : State) (v : List Instr) : ({ s with pending := v } : State).boot = s.boot := rfl
@[simp] theorem State.with_pending_evt (s : State) (v : List Instr) : ({ s with pending := v } : State).evt = s.evt := rfl
@[simp] theorem State.with_pending_pmc (s : State) (v : List Instr) : ({ s with pending := v } : State).pmc = s.pmc := rfl
@[simp] theorem State.with_pending_rep (s : State) (v : List Instr) : ({ s with pending := v } : State).rep = s.rep := rfl
@[simp] theorem State.with_pending_latch (s : State) (v : List Instr) : ({ s with pending := v } : State).latch = s.latch := rfl
@[simp] theorem State.with_pending_freeCtr (s : State) (v : List Instr) : ({ s with pending := v } : State).freeCtr = s.freeCtr := rfl
@[simp] theorem State.with_pending_out (s : State) (v : List Instr) : ({ s with pending := v } : State).out = s.out := rfl
@[simp] theorem State.with_pending_pending (s : State) (v : List Instr) : ({ s with pending := v } : State).pending = v := rfl

end Sys2Proof.Machine
end

