-- ==== Sys2Proof/Tests/Slice0.lean ====
section
/-! SUPPORT. Small tests of one step each, on states built here, and states and operands that meet the hypotheses of the
statements: `test_meets_X` is a witness of the statement `X`. Expected values are worked by hand from the rules cited. -/

namespace Sys2Proof.Tests

open Sys2Proof Sys2Proof.Machine

/-! Isagil: engine 0 runs job 1, a program, with the word `w` at PC 0 of an overlay of four words -/

def desc0 : Desc :=
  { opcode := 0x2001, flags := 0, cls := 0, tag := 7, keyA := 0, keyB := 0, select := 0, inLen := 0, inAddr := 0, outLen := 64,
    outAddr := 0x1000, auxLen := 0, auxAddr := 0, authAddr := 0 }

def cmd0 : Cmd :=
  { fn := 0, queue := 0, desc := desc0, inSgl := [], outSgl := [], input := [], aux := [], auth := [], tokens := [], dma := .good }

def job0 : Job :=
  { cmd := cmd0, item := none, batch := none, kind := .program, prog := 0x80000001, profile := 0, rel := .grid, ladder := false,
    accepted := 0, base := 0, allot := 100, steps := 0, load := 0, pav := 0, phase := .running, part := some 0, part2 := none,
    started := 0, status := 0, detail := 0, output := [], direct := false, required := 0, pair := 0, due := 0, late := false,
    staged := 64, pieces := 0, piecesAll := 0, useA := none, useB := none, attrA := none, attrB := none, matA := [], matB := [],
    index := 0, waitOts := false, crit := false, stream := 0 }

/-- Every port is declared; one public row and three secret rows, key A in rows 1 and 2. -/
def man0 : Manifest :=
  { noManifest with
    ports := 0xFF, pubRows := 1, secRows := 3, decl := [(0, 0)],
    key0 := { usage := 2, alg := 0x0102, firstRow := 1, rows := 2 }, key1 := { usage := 2, alg := 0x0102, firstRow := 1, rows := 2 } }

def port0 : KeyPort :=
  { present := true, alg := 0x0102, material := List.replicate 32 9, requested := true, valid := true, landed := 0 }

/-- Public registers s1 = 5, s2 = 3, s3 = 2^28 − 1; v2, v3 and v4 hold small words; q0 is `q`; p0 all ones; a1 = 1. -/
def engAt (q : QReg) (w : BitVec 32) : Eng :=
  { engIdle true false 0 with
    st := .running, job := some 1, imem := [w, 0, 0, 0], outLimit := 64, q := [(0, q)], man := man0,
    keyA := port0, keyB := port0, core := some { alg := 0x0102, key := List.replicate 16 1, hash := some (List.replicate 16 2) },
    returnLen := some 64, input := [1, 2, 3], aux := [4, 5], inLen := 3, auxLen := 2, a := [(1, 1)],
    fnt := { noFountain with seeded := true },
    p := [(0, { val := 0xFFFF, tag := pubTag })],
    sc := [(1, { val := 5, tag := pubTag }), (2, { val := 3, tag := pubTag }), (3, { val := 0xFFFFFFF, tag := pubTag })],
    v := [(2, { val := 0x0014003, tag := pubTag }), (3, { val := 0x0008005, tag := pubTag }),
          (4, { val := 7, tag := pubTag })] }

def place (g : Eng) : State :=
  { State.reset with eng := [(0, g)], gth := { gthReset with jobs := [(1, job0)], nextJob := 2 } }

def ix (w : BitVec 32) : IsaX := { e := 0, w := w, hw := .none }
def at0 (q : QReg) (w : BitVec 32) : State := place (engAt q w)

/-- Format R: major, D, S1, S2, Q, FUNC (R185). -/
def fmtR (major d s1 s2 q func : Nat) : BitVec 32 :=
  BitVec.ofNat 32 (major * 2 ^ 26 + d * 2 ^ 21 + s1 * 2 ^ 16 + s2 * 2 ^ 11 + q * 2 ^ 9 + func)
/-- Format I. -/
def fmtI (major d s1 imm : Nat) : BitVec 32 := BitVec.ofNat 32 (major * 2 ^ 26 + d * 2 ^ 21 + s1 * 2 ^ 16 + imm)

def q0 : QReg := qget (engIdle true false 0) 0
def qModq : QReg := { mode := .modq, param := 0, modulus := 3329 }
def qPair : QReg := { mode := .pair28, param := 0, modulus := 8380417 }
def qGf : QReg := { mode := .gf2m, param := 13, modulus := 27 }
def qQuad : QReg := { mode := .quad56, param := 30, modulus := 0 }

/-- The word at PC 0 names `op`, and the engine runs on at PC 1. -/
def goes (q : QReg) (op : IsaOp) (i : IsaX → Instr) (w : BitVec 32) : Bool :=
  atPc op (ix w) (at0 q w) && (match exec (i (ix w)) (at0 q w) with
    | .next t => (getEng t 0).st == .running && (getEng t 0).pc == 1
    | _ => false)

/-- The step goes on, and the next state is as `P` says. -/
def lands (r : Host.Outcome State Fault Refusal) (P : State → Bool) : Bool := match r with
  | .next t => P t
  | _ => false

/-- What the engine is after the instruction. -/
def after (q : QReg) (i : IsaX → Instr) (w : BitVec 32) : Eng := match exec (i (ix w)) (at0 q w) with
  | .next t => getEng t 0
  | _ => engIdle true false 0

theorem test_goes_scalar :
    goes q0 .sadd .sadd (fmtR 0x01 5 3 1 0 0) && goes q0 .ssub .ssub (fmtR 0x01 5 3 1 0 1)
    && goes q0 .sand .sand (fmtR 0x01 5 3 1 0 2) && goes q0 .sor .sor (fmtR 0x01 5 3 1 0 3)
    && goes q0 .sxor .sxor (fmtR 0x01 5 3 1 0 4) && goes q0 .sshl .sshl (fmtR 0x01 5 3 1 0 5)
    && goes q0 .sshr .sshr (fmtR 0x01 5 3 1 0 6) && goes q0 .smul .smul (fmtR 0x01 5 3 1 0 7)
    && goes q0 .seq .seq (fmtR 0x01 5 3 1 0 8) && goes q0 .slt .slt (fmtR 0x01 5 3 1 0 9)
    && goes q0 .sltu .sltu (fmtR 0x01 5 3 1 0 10) && goes q0 .smov .smov (fmtR 0x01 5 3 0 0 11)
    && goes q0 .saddi .saddi (fmtI 0x02 5 3 2) && goes q0 .sli .sli (fmtI 0x09 5 0 2)
    && goes q0 .slui .slui (fmtI 0x09 5 1 2) = true := by decide

theorem test_goes_predicate :
    goes q0 .pand .pand (fmtR 0x08 1 0 2 0 0) && goes q0 .por .por (fmtR 0x08 1 0 2 0 1)
    && goes q0 .pxor .pxor (fmtR 0x08 1 0 2 0 2) && goes q0 .pnot .pnot (fmtR 0x08 1 0 0 0 3)
    && goes q0 .pmovS .pmovS (fmtR 0x08 1 3 0 0 4) && goes q0 .smovP .smovP (fmtR 0x08 5 0 0 0 5)
    && goes q0 .pset .pset (fmtI 0x0B 1 0 3) = true := by decide

theorem test_goes_control :
    goes q0 .nop .nop 0 && goes q0 .brZ .brZ (fmtI 0x03 1 0 2) && goes q0 .brNz .brNz (fmtI 0x03 0 4 2)
    && goes q0 .brLtz .brLtz (fmtI 0x03 1 8 2) && goes q0 .brGez .brGez (fmtI 0x03 3 12 2)
    && goes q0 .brPany .brPany (fmtI 0x03 1 16 2) && goes q0 .brPnone .brPnone (fmtI 0x03 0 20 2)
    && goes q0 .jmp .jmp (fmtI 0x03 0 24 1) && goes q0 .loopI .loopI 0x10002002
    && goes q0 .loopIShf .loopIShf 0x12002002 && goes q0 .loopS .loopS 0x11001002
    && goes q0 .loopSShf .loopSShf 0x13001002 && goes q0 .call .call 0x14000001 = true := by decide

theorem test_goes_address :
    goes q0 .aset .aset (fmtI 0x06 1 0 7) && goes q0 .aadd .aadd (fmtI 0x06 1 8 7)
    && goes q0 .asetLi .asetLi (fmtI 0x06 1 16 7) && goes q0 .amovS .amovS (fmtI 0x06 1 24 3) = true := by decide

theorem test_goes_modular :
    goes qModq .vaddM .vaddM (fmtR 0x10 1 2 3 0 0) && goes qModq .vsubM .vsubM (fmtR 0x10 1 2 3 0 1)
    && goes qModq .vnegM .vnegM (fmtR 0x10 1 2 0 0 2) && goes qPair .vmulM .vmulM (fmtR 0x10 1 2 3 0 3)
    && goes qPair .vmacM .vmacM (fmtR 0x10 1 2 3 0 4) && goes qPair .vmulsM .vmulsM (fmtR 0x10 1 2 3 0 5)
    && goes qModq .vredM .vredM (fmtR 0x10 1 2 0 0 6) && goes qModq .vchkQ .vchkQ (fmtR 0x10 1 2 0 0 7)
    && goes qModq .vcmpEq .vcmpEq (fmtR 0x10 1 2 3 0 8) && goes qModq .vcmpLt .vcmpLt (fmtR 0x10 1 2 3 0 9)
    && goes qModq .vsel .vsel (fmtR 0x10 1 2 3 0 10) = true := by decide

theorem test_goes_butterfly :
    goes qModq .vbflyCt .vbflyCt (fmtR 0x11 1 2 3 0 0) && goes qModq .vbflyGs .vbflyGs (fmtR 0x11 1 2 3 0 16)
    && goes qGf .vbflyGf .vbflyGf (fmtR 0x11 1 2 3 0 32) && goes qModq .vbmulM .vbmulM (fmtR 0x11 1 2 3 0 48)
    && goes qModq .vbflyCt .vbflyCt (fmtR 0x11 1 0 3 0 4) = true := by decide

theorem test_goes_permute :
    goes q0 .vperm .vperm (fmtR 0x12 1 2 3 0 0) && goes q0 .vzipLo .vzipLo (fmtR 0x12 1 2 3 0 1)
    && goes q0 .vzipHi .vzipHi (fmtR 0x12 1 2 3 0 2) && goes q0 .vuzpEv .vuzpEv (fmtR 0x12 1 2 3 0 3)
    && goes q0 .vuzpOd .vuzpOd (fmtR 0x12 1 2 3 0 4) && goes q0 .vrev .vrev (fmtR 0x12 1 2 0 0 5)
    && goes q0 .vbcastL .vbcastL (fmtR 0x12 1 2 15 0 6) && goes qPair .vbcastS .vbcastS (fmtR 0x12 1 2 0 0 7) = true := by
  decide

theorem test_goes_sample :
    goes qModq .vsampRej .vsampRej (fmtR 0x13 6 2 1 0 0) && goes qPair .vsampEtaLo .vsampEtaLo (fmtR 0x13 6 2 1 0 64)
    && goes qPair .vsampEtaHi .vsampEtaHi (fmtR 0x13 6 2 1 0 128) && goes qModq .vsampCbd .vsampCbd (fmtR 0x13 6 2 0 0 192)
    && goes qModq .vsampCbt .vsampCbt (fmtR 0x13 6 2 0 0 256) && goes qPair .vsampUnfLo .vsampUnfLo (fmtR 0x13 6 2 0 0 320)
    && goes qPair .vsampUnfHi .vsampUnfHi (fmtR 0x13 6 2 0 0 384) && goes qModq .vsampNext .vsampNext (fmtR 0x13 6 0 1 0 448)
      = true := by decide

theorem test_goes_pack :
    goes qModq .vcomp .vcomp (fmtR 0x14 6 2 11 0 0) && goes qModq .vdcmp .vdcmp (fmtR 0x14 6 2 1 0 64)
    && goes qModq .vpack .vpack (fmtR 0x14 6 2 12 0 (128 + 32)) && goes qModq .vunpack .vunpack (fmtR 0x14 6 2 12 0 (192 + 32))
      = true := by decide

theorem test_goes_bits :
    goes qGf .vgmulF .vgmulF (fmtR 0x15 1 2 3 0 0) && goes qGf .vgsqF .vgsqF (fmtR 0x15 1 2 0 0 1)
    && goes q0 .vand .vand (fmtR 0x16 1 2 3 0 0)
    && goes q0 .vor .vor (fmtR 0x16 1 2 3 0 1) && goes q0 .vxor .vxor (fmtR 0x16 1 2 3 0 2)
    && goes q0 .vnot .vnot (fmtR 0x16 1 2 0 0 3) && goes q0 .vshlL .vshlL (fmtR 0x16 1 2 13 0 4)
    && goes q0 .vshrL .vshrL (fmtR 0x16 1 2 13 0 5) && goes q0 .vshlR .vshlR (fmtR 0x16 1 2 3 0 6)
    && goes q0 .vshrR .vshrR (fmtR 0x16 1 2 3 0 7) && goes q0 .vrotR .vrotR (fmtR 0x16 1 2 1 0 8)
    && goes q0 .vclmulLo .vclmulLo (fmtR 0x17 1 2 3 0 0) && goes q0 .vclmulHi .vclmulHi (fmtR 0x17 1 2 3 0 1) = true := by
  decide

theorem test_goes_inverse : goes qGf .vginvF .vginvF (fmtR 0x15 1 4 0 0 2) = true := by decide

theorem test_goes_paired :
    goes qPair .vp2r .vp2r (fmtR 0x18 6 2 0 0 0) && goes qPair .vdecompN .vdecompN (fmtR 0x18 6 2 0 0 1)
    && goes qPair .vdecompW .vdecompW (fmtR 0x18 6 2 0 0 2) && goes qPair .vhintMkN .vhintMkN (fmtR 0x18 6 2 3 0 3)
    && goes qPair .vhintMkW .vhintMkW (fmtR 0x18 6 2 3 0 4) && goes qPair .vhintUseN .vhintUseN (fmtR 0x18 6 2 3 0 5)
    && goes qPair .vhintUseW .vhintUseW (fmtR 0x18 6 2 3 0 6) && goes qPair .vnormGe .vnormGe (fmtR 0x18 1 2 1 0 7) = true := by
  decide

theorem test_goes_quad :
    goes qQuad .vfaddX .vfaddX (fmtR 0x19 6 2 3 0 0) && goes qQuad .vfsubX .vfsubX (fmtR 0x19 6 2 3 0 1)
    && goes qQuad .vfmulX .vfmulX (fmtR 0x19 6 2 3 0 2) && goes qQuad .vfcmulX .vfcmulX (fmtR 0x19 6 2 3 0 3)
    && goes qQuad .vfbflyX .vfbflyX (fmtR 0x19 6 2 3 0 4) && goes qQuad .vfcvtX .vfcvtX (fmtR 0x19 6 2 3 0 5)
    && goes qQuad .vfrndX .vfrndX (fmtR 0x19 6 2 3 0 6) = true := by decide

/-- `vld`, `vst` by a1 with PI and INC −1: V 2, A 1, PI 1, INC 63, OFF 0. -/
theorem test_goes_memory :
    goes q0 .vld .vld (BitVec.ofNat 32 (0x20 * 2 ^ 26 + 2 * 2 ^ 21 + 2 ^ 18 + 2 ^ 17 + 63 * 2 ^ 11))
    && goes q0 .vst .vst (BitVec.ofNat 32 (0x21 * 2 ^ 26 + 2 * 2 ^ 21 + 2 ^ 18 + 2 ^ 17 + 63 * 2 ^ 11))
    && goes q0 .vli .vli (fmtI 0x0A 1 0 0x3FFF) && goes q0 .vmov .vmov (fmtR 0x22 1 2 0 0 0)
    && goes q0 .vzero .vzero (fmtR 0x22 1 0 0 0 1) && goes qPair .sget .sget (fmtR 0x22 1 2 7 0 2)
    && goes qPair .sput .sput (fmtR 0x22 2 1 7 0 3) = true := by decide

/-- Format P: V, A, PI, RS, NM1, SUB. -/
def fmtP (major v a pi rs nm1 sub : Nat) : BitVec 32 :=
  BitVec.ofNat 32 (major * 2 ^ 26 + v * 2 ^ 21 + a * 2 ^ 18 + pi * 2 ^ 17 + rs * 2 ^ 16 + nm1 * 2 ^ 11 + sub)

theorem test_goes_ports :
    goes q0 .vin .vin (fmtP 0x2C 6 0 0 0 27 0) && goes q0 .vaux .vaux (fmtP 0x2C 0 0 1 1 27 1)
    && goes q0 .vout .vout (fmtP 0x2C 2 0 0 0 27 2) && goes q0 .vdecl .vdecl (fmtP 0x31 2 0 0 0 27 0)
    && goes q0 .kldA .kldA (fmtP 0x2B 0 0 0 0 0 0) && goes q0 .kldB .kldB (fmtP 0x2B 0 0 0 0 0 1)
    && goes q0 .kldCa .kldCa (fmtP 0x2B 0 0 0 0 0 2) && goes q0 .kldCb .kldCb (fmtP 0x2B 0 0 0 0 0 3)
    && goes q0 .kput .kput (fmtP 0x2B 0 1 1 1 27 4) = true := by decide

theorem test_goes_convert :
    goes qModq .vconvAb .vconvAb (fmtR 0x30 1 2 0 0 0) && goes qModq .vconvBa .vconvBa (fmtR 0x30 1 2 0 0 1)
    && goes q0 .sconvAb .sconvAb (fmtR 0x30 1 2 0 0 2) && goes q0 .sconvBa .sconvBa (fmtR 0x30 1 2 0 0 3)
    && goes q0 .vremask .vremask (fmtR 0x30 1 2 0 0 4) && goes q0 .vtaint .vtaint (fmtR 0x30 2 0 0 0 5)
    && goes q0 .staint .staint (fmtR 0x30 1 0 0 0 6) && goes q0 .vrand .vrand (fmtR 0x30 1 0 0 0 7)
    && goes q0 .sdecl .sdecl (fmtR 0x32 5 1 0 0 0) && goes q0 .fcmp .fcmp (fmtR 0x32 27 2 3 0 1) = true := by decide

theorem test_goes_cgh : goes q0 .cghInit .cghInit (fmtR 0x2A 0 0 0 0 2) = true := by decide
set_option maxRecDepth 20000 in
theorem test_goes_cghash : goes q0 .cghash .cghash (fmtR 0x2A 2 3 0 0 3) = true := by decide
set_option maxRecDepth 20000 in
theorem test_goes_cblkE : goes q0 .cblkE .cblkE (fmtR 0x2A 2 3 0 0 0) = true := by decide
set_option maxRecDepth 20000 in
theorem test_goes_cblkD : goes q0 .cblkD .cblkD (fmtR 0x2A 2 3 0 0 1) = true := by decide
set_option maxRecDepth 40000 in
theorem test_goes_keccak : goes q0 .vkeccakF .vkeccakF (fmtR 0x28 8 0 0 0 0) = true := by decide
set_option maxRecDepth 20000 in
theorem test_goes_sha256 : goes q0 .vshaCs .vshaCs (fmtR 0x29 8 16 0 0 0) = true := by decide
set_option maxRecDepth 20000 in
theorem test_goes_sha512 : goes q0 .vshaCl .vshaCl (fmtR 0x29 8 16 0 0 1) = true := by decide

/-! One result in each family, worked by hand -/

/-- R193: 2^28 − 1 + 5 = 4 modulo 2^28. -/
theorem test_sadd_wraps : (sget (after q0 .sadd (fmtR 0x01 5 3 1 0 0)) 5).val = 4 := by decide
/-- R193: 3 − 5 wraps to 2^28 − 2. -/
theorem test_ssub_wraps : (sget (after q0 .ssub (fmtR 0x01 5 2 1 0 1)) 5).val = 0xFFFFFFE := by decide
/-- R193: a signed comparison: −1 is below 5. -/
theorem test_slt_signed : (sget (after q0 .slt (fmtR 0x01 5 3 1 0 9)) 5).val = 1 := by decide
/-- R193: the immediate 0xFFFF is −1. -/
theorem test_sli_signed : (sget (after q0 .sli (fmtI 0x09 5 0 0xFFFF)) 5).val = 0xFFFFFFF := by decide
/-- R194: `br.ltz` of s3, whose bit 27 is 1, goes to TARGET 3. -/
theorem test_brLtz_taken : (after q0 .brLtz (fmtI 0x03 3 8 3)).pc = 3 := by decide
/-- R198: aadd of 1 and −2 gives 2,047. -/
theorem test_aadd_wraps : aget (after q0 .aadd (fmtI 0x06 2 9 0xFFFE)) 2 = 2047 := by decide
/-- R200: lanes 0 and 1 of v2 are 3 and 5, of v3 5 and 2: 3 − 5 = 3,327 mod 3,329, and 3. -/
theorem test_vsub_mod : (vget (after qModq .vsubM (fmtR 0x10 1 2 3 0 1)) 1).val = 3 * 2 ^ 14 + 3327 := by decide
/-- R200: `vchk.q`: every lane below q sets its bit. -/
theorem test_vchk : (pget (after qModq .vchkQ (fmtR 0x10 1 2 0 0 7)) 1).val = 0xFFFF := by decide
/-- R202: `vrev` puts lane 0 into lane 15. -/
theorem test_vrev : lane (vget (after q0 .vrev (fmtR 0x12 1 2 0 0 5)) 1).val 15 = 3 := by decide
/-- R204: the first 12-bit candidate, 7, is accepted. -/
theorem test_vsampRej : lane (vget (after qModq .vsampRej (fmtR 0x13 6 4 0 0 0)) 6).val 0 = 7 := by decide
set_option maxRecDepth 20000 in
/-- R205: 12-bit words from byte 0: the first is 7. -/
theorem test_vunpack : lane (vget (after qModq .vunpack (fmtR 0x14 6 4 12 0 192)) 6).val 0 = 7 := by decide
/-- R206: in GF(2^13): v4 holds x² + x + 1, whose square is x⁴ + x² + 1. -/
theorem test_vgsq : lane (vget (after qGf .vgsqF (fmtR 0x15 1 4 0 0 1)) 1).val 0 = 21 := by decide
/-- R206: `vrot.r` by 5 of the row 7. -/
theorem test_vrot : (vget (after q0 .vrotR (fmtR 0x16 6 4 1 0 8)) 6).val = 7 * 32 := by decide
/-- R207: 7 = 0 · 2^13 + 7, so the high part is 0 and the low part 7. -/
theorem test_vp2r : (vget (after qPair .vp2r (fmtR 0x18 6 4 0 0 0)) 7).val = 7 := by decide
/-- R208: 7 in lane 0 becomes 7 · 2^30. -/
theorem test_vfcvt : word .quad56 (vget (after qQuad .vfcvtX (fmtR 0x19 6 4 0 0 5)) 6).val 0 = 7 * 2 ^ 30 := by decide
/-- R214: the first 28 bytes of the key land in row 1, the first of the key's rows. -/
theorem test_kld_row : (rowGet (after q0 .kldA (fmtP 0x2B 0 0 0 0 0 0)) 1).val = bytesRow (List.replicate 28 9) := by decide
/-- R215: three bytes of input, zero-filled. -/
theorem test_vin_fills : (vget (after q0 .vin (fmtP 0x2C 6 0 0 0 27 0)) 6).val = 0x030201 := by decide
/-- R218: v2 and v3 differ, so the pair takes the mismatch values. -/
theorem test_fcmp_miss : (after q0 .fcmp (fmtR 0x32 27 2 3 0 1)).cmpOkn = 0xFFFFFFFF := by decide
/-- R174: a secret branch condition faults, and the engine goes to SCRUBBING. -/
theorem test_secret_branch :
    (match exec (.brZ (ix (fmtI 0x03 5 0 2)))
        (place { engAt q0 (fmtI 0x03 5 0 2) with sc := [(5, { val := 0, tag := { pubTag with secret := true, kind := .bool } })] }) with
      | .next t => (getEng t 0).st
      | _ => .idle) = .scrubbing := by decide

/-! States that meet the hypotheses of the statements of Isagil -/

/-- What `scalarClaim` asks. -/
def scalarHyp (op : IsaOp) (c : Cost) (w : BitVec 32) (k : Kind) : Bool :=
  let s := at0 q0 w
  let x := ix w
  atPc op x s && mayRun (engOf x s) c [(sA x s).tag, (sB x s).tag] false
    && decide (wD x.w < 16 ∧ wS1 x.w < 16 ∧ wS2 x.w < 16 ∧ wQ x.w = 0 ∧ wPs x.w = 0)
    && kindsFit k [(sA x s).tag, (sB x s).tag]

theorem test_meets_ScalarArithmetic :
    scalarHyp .sadd (.linear, 1, 2, 3) (fmtR 0x01 15 3 15 0 0) arithS
    && scalarHyp .sand (.gadget2, 1, 4, 9) (fmtR 0x01 0 3 1 0 2) .bool
    && scalarHyp .sltu (.gadget, 2, 8, 18) (fmtR 0x01 5 3 1 0 10) .bool = true := by decide

theorem test_meets_ScalarMovesAndShifts :
    let w := fmtR 0x01 5 3 1 0 5
    let s := at0 q0 w
    atPc .sshl (ix w) s = true ∧ wD w < 16 ∧ wS1 w < 16 ∧ wS2 w < 16 ∧ wQ w = 0 ∧ wPs w = 0
      ∧ (sB (ix w) s).tag.secret = false ∧ kindOk .bool (sA (ix w) s).tag = true := by decide

theorem test_meets_PredicateRegisters :
    let w := fmtR 0x08 3 0 2 0 0
    let s := at0 q0 w
    atPc .pand (ix w) s = true
      ∧ mayRun (engOf (ix w) s) (.gadget2, 1, 4, 9) [(pA (ix w) s).tag, (pB (ix w) s).tag] false = true
      ∧ wD w < 4 ∧ wS1 w < 4 ∧ wS2 w < 4 ∧ wQ w = 0 ∧ wPs w = 0 := by decide

/-- `qset.s q3, s2`: s2 = 1 (MODQ), s3 = 3,329. -/
theorem test_meets_ModeRegisters :
    let w := fmtR 0x07 3 2 0 0 0
    let s := place { engAt q0 w with sc := [(2, { val := 1, tag := pubTag }), (3, { val := 3329, tag := pubTag })] }
    let x := ix w
    atPc .qsetS x s = true ∧ wD w < 4 ∧ wS1 w < 16 ∧ wS1 w % 2 = 0 ∧ wS2 w = 0 ∧ wQ w = 0 ∧ wPs w = 0
      ∧ (sA x s).tag.secret = false ∧ (sget (engOf x s) (wS1 w + 1)).tag.secret = false
      ∧ qDecode ((sA x s).val.toNat % 2 ^ 9 + (sget (engOf x s) (wS1 w + 1)).val.toNat * 2 ^ 9) = some qModq
      ∧ lands (exec (.qsetS x) s) (fun t => decide (qget (getEng t 0) 3 = qModq)) = true := by decide

/-- A branch to the last word of the overlay, taken (s1 is not 0) and not taken (s0 is 0). -/
theorem test_meets_BranchesAndLoops :
    let hyp (w : BitVec 32) : Bool :=
      let s := at0 q0 w
      let x := ix w
      atPc .brNz x s && decide (wD w < 16 ∧ bitsOf w.toNat 17 12 = 0) && !inShuffle (engOf x s) && !atEnd (engOf x s)
        && !(sget (engOf x s) (wD w)).tag.secret && decide (wTarget w < (engOf x s).imem.length)
        && staysNested (engOf x s) (wTarget w)
    hyp (fmtI 0x03 1 4 3) && hyp (fmtI 0x03 0 4 3) = true := by decide

/-- A branch to END + 1 closes the loop that is open. -/
theorem test_branch_closes_loop :
    let w := fmtI 0x03 1 4 3
    let f : Frame := { first := 0, last := 2, idx := 0, count := 5, shuffled := false, order := [], aWritten := [], depth := 0 }
    lands (exec (.brNz (ix w)) (place { engAt q0 w with loops := [f] })) (fun t => decide ((getEng t 0).loops.length = 0 ∧ (getEng t 0).pc = 3)) = true := by decide

/-- Loops with END at the last word: counts 4,095 and, from a scalar, 3 and 0. -/
theorem test_meets_BranchesAndLoops_open :
    mayOpen (ix 0x10FFF003) (at0 q0 0x10FFF003) && decide (wCount 0x10FFF003 = 4095)
    && mayOpen (ix 0x13002003) (at0 q0 0x13002003) && countOk 256 (ix 0x13002003) (at0 q0 0x13002003)
    && fntReady (engAt q0 0x13002003)
    && mayOpen (ix 0x11000003) (at0 q0 0x11000003) && countOk 0 (ix 0x11000003) (at0 q0 0x11000003) = true := by decide

/-- `call 3` with seven return addresses stacked, and `ret`. -/
theorem test_meets_CallsAndOverlays :
    (let s := place { engAt q0 0x14000003 with calls := List.replicate 7 1 }
     atPc .call (ix 0x14000003) s = true ∧ bitsOf (0x14000003 : BitVec 32).toNat 19 12 = 0 ∧ wOvl 0x14000003 = 0
        ∧ inShuffle (engOf (ix 0x14000003) s) = false ∧ atEnd (engOf (ix 0x14000003) s) = false
        ∧ (engOf (ix 0x14000003) s).calls.length < 8 ∧ wTarget 0x14000003 < (engOf (ix 0x14000003) s).imem.length)
    ∧ (let s := place { engAt q0 0x14100000 with calls := [2] }
       atPc .ret (ix 0x14100000) s = true ∧ (engOf (ix 0x14100000) s).calls = [2] ∧ wTarget 0x14100000 = 0
        ∧ lands (exec (.ret (ix 0x14100000)) s) (fun t => decide ((getEng t 0).pc = 2)) = true) := by decide

/-- A package of two overlays. -/
def prog0 : Program :=
  { man := { man0 with progId := 0x80000001 }, manBytes := [], overlays := [[0x14200001], [0, 0]], const := [], size := 4096,
    vendor := false, removed := false }

/-- `jov` to overlay 1, word 1. -/
theorem test_meets_jov :
    let w : BitVec 32 := 0x14600001
    let s := { at0 q0 w with eng := [(0, { engAt q0 w with package := prog0.overlays })] }
    atPc .jov (ix w) s = true ∧ bitsOf w.toNat 19 12 = 0 ∧ (engOf (ix w) s).loops = [] ∧ (engOf (ix w) s).calls = []
      ∧ (envAt (ix w) s).overlays[wOvl w]? = some [0, 0] ∧ wTarget w < 2
      ∧ lands (exec (.jov (ix w)) s) (fun t => decide ((getEng t 0).overlay = 1 ∧ (getEng t 0).pc = 1)) = true := by decide

theorem test_meets_AddressRegisters :
    let w := fmtI 0x06 7 0 2047
    atPc .aset (ix w) (at0 q0 w) = true ∧ wD w < 8 ∧ wImm w < 2048 ∧ isaAs w = 0 := by decide

/-- `halt`, and `halt.pr` with status 0x0101 and detail 5 before anything is secret. -/
theorem test_meets_JobControl :
    (let s := at0 q0 1
     atPc .halt (ix 1) s = true ∧ wD 1 = 0 ∧ wQ 1 = 0 ∧ wPs 1 = 0 ∧ wS1 1 = 0 ∧ wS2 1 = 0 ∧ inShuffle (engOf (ix 1) s) = false
        ∧ atEnd (engOf (ix 1) s) = false ∧ (engOf (ix 1) s).job = some 1 ∧ getJob s 1 = some job0)
    ∧ (let w := fmtR 0 0 4 1 0 3
       let s := place { engAt q0 w with
        sc := [(1, { val := 5, tag := pubTag }), (4, { val := 0x0101, tag := pubTag })], returnLen := none }
       atPc .haltPr (ix w) s = true ∧ keyOwed (engOf (ix w) s) = false ∧ wS1 w < 16 ∧ wS2 w < 16
        ∧ [0x0101, 0x0206, 0x0401, 0x0402, 0x0403].contains ((sA (ix w) s).val.toNat % 2 ^ 16) = true
        ∧ lands (exec (.haltPr (ix w)) s) (fun t => decide ((getEng t 0).st = .clearing ∧ (getJob t 1).map (fun j => (j.status, j.detail, j.due)) = some (0x0101, 5, 2))) = true) := by decide

/-- What `vectorClaim` asks. -/
def vectorHyp (q : QReg) (op : IsaOp) (c : Cost) (k : Kind) (src : IsaX → State → List Tag) (ok : QReg → Bool) (w : BitVec 32) :
    Bool :=
  let s := at0 q w
  let x := ix w
  atPc op x s && mayRun (engOf x s) c (src x s) (pG x s).tag.secret && ok (qX x s) && kindsFit k (src x s)
    && govFits k (engOf x s) w (wD w)

def srcAB (x : IsaX) (s : State) : List Tag := [(vA x s).tag, (vB x s).tag]

theorem test_meets_VectorModular :
    vectorHyp qModq .vaddM (.linear, 1, 2, 3) (arithOf qModq) srcAB (fun q => isPrime q.mode) (fmtR 0x10 31 2 3 0 0)
    && vectorHyp qPair .vmulM (.gadget2, 1, 6, 16) (arithOf qPair) srcAB (fun q => isPrime q.mode) (fmtR 0x10 0 2 3 0 3) = true := by
  decide

theorem test_meets_VectorCompareSelect :
    let w := fmtR 0x10 3 2 3 0 9
    let s := at0 qModq w
    atPc .vcmpLt (ix w) s = true ∧ mayRun (engOf (ix w) s) (.gadget, 1, 6, 14) (srcAB (ix w) s) false = true ∧ wD w < 4
      ∧ wPs w = 0 ∧ isPrime (qX (ix w) s).mode = true ∧ kindsFit (arithOf (qX (ix w) s)) (srcAB (ix w) s) = true := by decide

/-- SPAN 0 over two registers, SPAN 4 within one. -/
theorem test_meets_Butterflies :
    (let w := fmtR 0x11 1 2 3 0 0
     let s := at0 qModq w
     let x := ix w
     atPc .vbflyCt x s = true ∧ mayRun (engOf x s) (.linear, 2, 4, 6) [(vOld x s).tag, (vA x s).tag, (vB x s).tag] false = true
        ∧ bitsOf w.toNat 3 0 = 0 ∧ wD w ≠ wS1 w ∧ isPrime (qX x s).mode = true
        ∧ kindsFit (arithOf (qX x s)) [(vOld x s).tag, (vA x s).tag, (vB x s).tag] = true
        ∧ govFits (arithOf (qX x s)) (engOf x s) w (wD w) = true ∧ govFits (arithOf (qX x s)) (engOf x s) w (wS1 w) = true)
    ∧ (let w := fmtR 0x11 1 0 3 0 4
       let s := at0 qModq w
       bitOf w.toNat 3 = false ∧ wS1 w = 0 ∧ bitsOf w.toNat 2 0 = 4 ∧ spanDist (qX (ix w) s).mode (bitsOf w.toNat 2 0) ≠ 0
        ∧ atPc .vbflyCt (ix w) s = true) := by decide

theorem test_meets_ProductsOfPairs :
    vectorHyp qModq .vbmulM (.gadget2, 4, 20, 48) (arithOf qModq) srcAB (fun q => q.mode == .modq) (fmtR 0x11 1 2 3 0 48)
    && bitsOf (fmtR 0x11 1 2 3 0 48).toNat 3 0 == 0 && !(vOld (ix (fmtR 0x11 1 2 3 0 48)) (at0 qModq (fmtR 0x11 1 2 3 0 48))).tag.secret
      = true := by decide

theorem test_meets_Permutes :
    let w := fmtR 0x12 1 2 15 0 6
    let s := at0 q0 w
    let x := ix w
    atPc .vbcastL x s = true ∧ mayRun (engOf x s) (.linear, 1, 2, 3) [(vA x s).tag] (pG x s).tag.secret = true ∧ wQ w = 0
      ∧ wS2 w < 16 ∧ joinKind [(vA x s).tag] = some .any
      ∧ govFits (if anySecret [(vA x s).tag] then .any else .bool) (engOf x s) w (wD w) = true := by decide

/-- The window's last 24 bytes: OFF 32. -/
theorem test_meets_SamplingAccumulators :
    let w := fmtR 0x13 6 2 15 0 32
    let s := at0 qModq w
    let x := ix w
    atPc .vsampRej x s = true
      ∧ mayRun (engOf x s) (.gadget, 2, 10, 24) [(sB x s).tag, (vA x s).tag, (vget (engOf x s) (wS1 w + 1)).tag,
          (vOld x s).tag, (vget (engOf x s) (wD w + 1)).tag] false = true
      ∧ wD w % 2 = 0 ∧ wS2 w < 16 ∧ wS1 w % 2 = 0 ∧ wWinOff w + 24 ≤ 56 ∧ isPrime (qX x s).mode = true
      ∧ kindsFit .bool [(vA x s).tag, (vget (engOf x s) (wS1 w + 1)).tag] = true
      ∧ kindsFit (arithOf (qX x s)) [(vOld x s).tag, (vget (engOf x s) (wD w + 1)).tag] = true
      ∧ kindOk arithS (sB x s).tag = true := by decide

/-- `vunpack` of words of 14 bits from byte 28, the last place where they fit. -/
theorem test_meets_SamplingRowsAndPacking :
    let w := fmtR 0x14 6 2 14 0 (192 + 28)
    let s := at0 qModq w
    let x := ix w
    atPc .vunpack x s = true ∧ bitOf w.toNat 8 = false ∧ wS1 w % 2 = 0 ∧ packMode (qX x s).mode = true ∧ 1 ≤ wS2 w
      ∧ wS2 w ≤ packMax (qX x s).mode ∧ 8 * wWinOff w + wordCount (qX x s).mode * wS2 w ≤ 448
      ∧ kindsFit .bool [(vA x s).tag, (vget (engOf x s) (wS1 w + 1)).tag] = true := by decide

theorem test_meets_FieldAndBitwise :
    vectorHyp qGf .vgmulF (.gadget2, 1, 6, 16) .bool srcAB (fun q => q.mode == .gf2m) (fmtR 0x15 1 2 3 0 0)
    && vectorHyp q0 .vclmulHi (.gadget2, 1, 6, 16) .bool srcAB (fun _ => true) (fmtR 0x17 1 2 3 0 1) = true := by decide

theorem test_meets_PairedRounding :
    vectorHyp qPair .vhintMkN (.gadget, 3, 14, 34) (arithOf qPair) srcAB (fun q => q.mode == .pair28 && q.modulus == 8380417)
      (fmtR 0x18 6 2 3 0 3) = true := by decide

theorem test_meets_QuadFixedPoint :
    vectorHyp qQuad .vfmulX (.gadget2, 3, 14, 34) (arithOf qQuad) srcAB (fun q => q.mode == .quad56) (fmtR 0x19 6 2 3 0 2)
      = true := by decide

/-- The last row of the job, a secret one. -/
theorem test_meets_OperandMemory :
    let w := fmtP 0x20 2 1 0 0 0 2
    let s := at0 q0 w
    atPc .vld (ix w) s = true ∧ (wPi w || wInc w == 0) = true ∧ aget (engOf (ix w) s) (wA w) + wOff w < rowLimit (engOf (ix w) s)
      ∧ rowLimit (engOf (ix w) s) = 4 ∧ aget (engOf (ix w) s) (wA w) + wOff w = 3
      ∧ rowSecret (engOf (ix w) s) 3 = true := by decide

theorem test_meets_CoresAndCiphers :
    let w := fmtR 0x2A 2 3 0 0 0
    let s := at0 q0 w
    atPc .cblkE (ix w) s = true ∧ masksReady (engOf (ix w) s) = true ∧ wS2 w = 0 ∧ wQ w = 0 ∧ wPs w = 0
      ∧ portOn (engOf (ix w) s) 6 = true ∧ (engOf (ix w) s).core.isSome = true ∧ kindOk .bool (vA (ix w) s).tag = true
      ∧ kindOk .bool (vOld (ix w) s).tag = true := by decide

theorem test_meets_KeysInputOutput :
    let w := fmtP 0x2B 0 0 0 0 0 0
    let g := engAt q0 w
    atPc .kldA (ix w) (at0 q0 w) = true ∧ masksReady g = true ∧ kldReserved w = false ∧ inShuffle g = false ∧ portOn g 2 = true
      ∧ keyDeclared g false = true ∧ (keyPort g false).landed < (keyEntry g false).rows ∧ (keyPort g false).valid = true := by
  decide

theorem test_meets_ConversionsAndDeclassify :
    let w := fmtR 0x32 5 1 0 0 0
    let s := at0 q0 w
    let x := ix w
    atPc .sdecl x s = true ∧ wD w < 16 ∧ wS1 w < 16 ∧ wS2 w = 0 ∧ wQ w = 0 ∧ wPs w = 0 ∧ inShuffle (engOf x s) = false
      ∧ (engOf x s).man.decl.contains ((engOf x s).overlay, (engOf x s).pc) = true ∧ (sA x s).tag.sealed = false := by decide

/-! The gatehouse and the jobs: a part in service in FIELD, its link up, PF queue 0 and VF 3's queue 0 enabled -/

def qpLive : QPair := { qpReset with depthM1 := 7, enable := true, sqTail := 1 }

def live : State :=
  { State.reset with
    tick := 100,
    boot := { bootReset with pwrGood := true, phase := .service },
    lcs := { lcsReset with state := 3 },
    rng := { rngReset with st := .running },
    gth := { gthReset with linkUp := true, qp := [(0, qpLive)] } }

def withJob (j : Job) (s : State) : State := { s with gth := { s.gth with jobs := [(1, j)] } }
def held0 (why : HoldWhy) : Held := { cmd := cmd0, why := why, since := 0, tick := 0, plan := none }
def holding (why : HoldWhy) (s : State) : State := { s with gth := { s.gth with held := [held0 why] } }

/-- A doorbell to the last index, an entry beyond, and a queue that is enabled with the highest vector. -/
theorem test_meets_QueueRegisters :
    queueIs 0 0 = true ∧ hostReach live = true ∧ (getQp live (qpIx 0 0)).enable = true
      ∧ ringDist 8 0 1 + ringDist 8 1 7 ≤ 7 ∧ ringDist 8 0 0 ≤ ringDist 8 0 0
      ∧ queueIs 1023 3 = true ∧ (getQp live (qpIx 1023 3)).enable = false ∧ (getQp live (qpIx 1023 3)).sqBase % 4096 = 0
      ∧ ((0x0007_FFFF : BitVec 32) ||| 0x10000).toNat / 2 ^ 17 % 64 = 3 := by decide

theorem test_sqTail_moves : lands (exec (.sqTail 0 0 7) live) (fun t => (getQp t 0).sqTail == 7) = true := by decide
theorem test_qpEnable_vf : lands (exec (.qpEnable 1023 3 0x0007FFFF) live) (fun t => (getQp t (qpIx 1023 3)).depthM1 == 65535) = true := by
  decide

/-- Index 8 of a ring of 8; 7 more entries than the ring holds. -/
theorem test_meets_QueueErrors :
    queueIs 0 0 = true ∧ hostReach live = true ∧ (getQp live 0).enable = true ∧ (getQp live 0).depthM1 + 1 ≤ 8
      ∧ lands (exec (.sqTail 0 0 8) live) (fun t => (getQp t 0).error && t.gth.qerr == 1 && t.gth.qerrCause == 2) = true := by decide

theorem test_meets_FetchAndHolds :
    (queueReady live 0 = true ∧ critFull live = false ∧ poolPaused live = false ∧ horizonPaused live = false
      ∧ arbPick live = some (qpIx 0 0))
    ∧ (holding .rng { live with tick := 5243 }).gth.held = [held0 .rng] ∧ (held0 .rng).since + 5243 ≤ 5243
    ∧ (holding .stage { live with tick := 1024 }).gth.starved = none ∧ (held0 .stage).since + 1024 ≤ 1024 := by decide

theorem test_meets_fence : noneBehind (resumed (holding .fence live) (held0 .fence)) = true := by decide

/-- R65: the fetch moves SQ_HEAD and counts the command. -/
theorem test_fetch_moves : lands (exec (.descriptorFetch cmd0 false) live)
    (fun t => (getQp t 0).sqHead == 1 && (getQp t 0).fetched == 1) = true := by decide

def jobDone : Job := { job0 with phase := .done, part := none, due := 0 }

theorem test_meets_ReleaseAndAborts :
    (dueJobs (withJob jobDone live) (fun _ => true)).map (·.1) = [1] ∧ getJob (withJob jobDone live) 1 = some jobDone
      ∧ jobDone.batch = none ∧ jobDone.crit = false ∧ isStream jobDone.cmd.desc.opcode = false ∧ jobDone.status ≠ stSquashed
      ∧ toHost (withJob jobDone live) jobDone.cmd = true := by decide

/-- R43: the last tick of a GRID job with A = 100 is B + 400: aborted there, not before. -/
theorem test_abort_at_limit :
    lands (exec .allotmentAbort (withJob job0 { live with sdl := { sdlReset with grid := 400 }, eng := [(0, engAt q0 0)] }))
      (fun t => (getJob t 1).map (fun j => (j.status, j.detail)) == some (0x0601, 0x0160)) = true
    ∧ lands (exec .allotmentAbort (withJob job0 { live with sdl := { sdlReset with grid := 399 }, eng := [(0, engAt q0 0)] }))
      (fun t => (getJob t 1) == some job0) = true := by decide

/-- R43: a result at B + A leaves there; one tick later at B + 2A, late. -/
theorem test_release_grid :
    releaseAt job0 100 = (100, false) ∧ releaseAt job0 101 = (200, true) ∧ releaseAt job0 201 = (400, true) := by decide

/-- The bounds of the power cap, the pairs of interrupt registers, reads that are no words, a locked region. -/
theorem test_meets_RegisterAccess :
    hostReach live = true ∧ readLive live .pf = true ∧ readLive live .keeper = true ∧ 0x2218 ∈ intPairs.map (·.1)
      ∧ hiPair 0x2200 = none ∧ loLatch live 0x2200 = none ∧ regionForm (List.replicate 16 0) = true
      ∧ regionLocked { regionReset with perm := 0x83 } = true
      ∧ lands (exec (.pwrCapWrite 110) live) (fun t => t.pwr.capNext == 110) = true
      ∧ lands (exec (.pwrCapWrite 111) live) (fun t => t.pwr.capErr) = true
      ∧ lands (exec (.pwrCapWrite 39) live) (fun t => t.pwr.capErr) = true
      ∧ lands (exec (.pwrCapWrite 40) live) (fun t => t.pwr.capNext == 40) = true := by decide

/-- R506: a byte read answers all ones of its size. -/
theorem test_misaligned_read :
    lands (exec (.latchRead .pf 0 ⟨.regs, 0x2201⟩ 1) live) (fun t => t.out == [.readData 0x2201 255]) = true := by decide

def vfServing : Vf := { vfReset with st := .serving, tenant := 5 }

theorem test_meets_LinkAndResets :
    (getVf { live with ten := { tenReset with vf := [(1023, { vfServing with st := .quiesced })] } } 1023).st = .quiesced
      ∧ hostReach live = true ∧ (0 : Nat) + 1048 ≤ 1048 ∧ live.gth.ideSecure = false ∧ live.gth.ideHeld = []
      ∧ lands (exec (.flrComplete 1023) { live with
          tick := 1048, ten := { tenReset with vf := [(1023, { vfServing with flrBusy := true })] } })
          (fun t => !(getVf t 1023).flrBusy) = true
      ∧ lands (exec (.flrComplete 1023) { live with
          tick := 1047, ten := { tenReset with vf := [(1023, { vfServing with flrBusy := true })] } })
          (fun t => (getVf t 1023).flrBusy) = true := by decide

def jobQueued : Job := { job0 with phase := .queued, part := none }

theorem test_meets_EngineLife :
    (nextJob (withJob jobQueued live) 0).map (·.1) = some 1 ∧ freeEngine (withJob jobQueued live) 0 = some 0
      ∧ isCipher jobQueued = false ∧ (getPav live 0).issued < dutyNow live ∧ (suspendDetail live).isSome = false
      ∧ noWork live = true ∧ kilnReleasing live = true := by decide

/-- R171, R176: after CLEARING every register reads zero. -/
theorem test_clearing_wipes :
    lands (exec (.clearingEnd 0) { live with eng := [(0, { engAt q0 0 with st := .clearing })] })
      (fun t => (getEng t 0).st == .idle && (sget (getEng t 0) 1).val == 0 && (getEng t 0).imem == []) = true := by decide

/-- R154: at the start of a job s0 holds IN_LEN and the predicates are all ones. -/
theorem test_loading_end :
    lands (exec (.loadingEnd 0) (withJob job0 { live with
        eng := [(0, { engIdle true false 0 with st := .loading, job := some 1 })],
        lib := { libReset with programs := [(0x80000001, prog0)] } }))
      (fun t => (getEng t 0).st == .running && (pget (getEng t 0) 3).val == 0xFFFF) = true := by decide

def jobCipher : Job := { job0 with kind := .cipher, phase := .running, part := some 0, piecesAll := 2 }

theorem test_meets_PiecesAndPool :
    isCipher jobCipher = true ∧ jobCipher.pieces + 1 < jobCipher.piecesAll ∧ jobCipher.direct = false
      ∧ freeBnes live = List.range 32 ∧ live.bne.issued < dutyNow live
      ∧ (nextPool (withJob { jobQueued with kind := .pool false } live)).map (·.1) = some 1
      ∧ isDual { jobQueued with kind := .pool false } = false ∧ poolBlinds jobQueued = false := by decide

/-- R218: a failed comparison scrubs, and the job ends with FAULT_DETECTED, 0x0159. -/
theorem test_piece_fault :
    lands (exec (.cipherPieceEnd 0 false .pairFault) (withJob jobCipher { live with eng := [(0, engAt q0 0)] }))
      (fun t => (getEng t 0).st == .scrubbing && (getJob t 1).map (fun j => (j.status, j.detail)) == some (0x0801, 0x0159)) = true := by
  decide

/-! The sundial -/

/-- LOCKED at second 10, 100 ticks before the boundary, the last frame naming second 11. -/
def sdlLocked : Sdl :=
  { sdlReset with
    state := .locked, grid := 11 * 2 ^ 20, nextEdge := 11 * 2 ^ 20, lastSeconds := 11, prevSeconds := 10, frameIn := true,
    qualCount := 5, anyEdge := true, lastEdge := 0, todTxEn := true }

def sunAt (d : Sdl) : State := { live with tick := 2 ^ 20, sdl := d }
def sdlAcquire (grid : Nat) : Sdl := { sdlLocked with state := .acquire, qualCount := 3, grid := grid, nextEdge := 2 ^ 20 }

def entry0 : SchedEntry :=
  { tick := 11 * 2 ^ 20, seq := 4, action := 3, parkWide := false, armed := true, tenant := 0, target := 1, param := 0, previous := 0 }

set_option maxRecDepth 4000 in
theorem test_meets_SundialEvents :
    edgeInWindow (sunAt sdlLocked) = true ∧ frameQualifies sdlLocked = true
      ∧ edgeInWindow (sunAt (sdlAcquire (11 * 2 ^ 20 - 5000))) = true ∧ frameQualifies (sdlAcquire (11 * 2 ^ 20 - 5000)) = true
      ∧ (dueEntries (sunAt { sdlLocked with sched := [entry0] })).length = 1
      ∧ (524288 : Nat) ≤ (11 * 2 ^ 20 + 524288) % 2 ^ 20 := by decide

/-- R37: an offset of 1,025 ticks forward is stepped, of 1,024 slewed, of −1,048,577 stepped back in HOLDOVER or waits. -/
theorem test_align_step :
    lands (exec (.ppsEdge 0 ⟨true, true⟩) (sunAt (sdlAcquire (11 * 2 ^ 20 - 1025))))
      (fun t => t.sdl.state == .locked && t.sdl.grid == 11 * 2 ^ 20) = true := by decide
theorem test_align_slew :
    lands (exec (.ppsEdge 0 ⟨true, true⟩) (sunAt (sdlAcquire (11 * 2 ^ 20 - 1024)))) (fun t => t.sdl.state == .acquire && t.sdl.slewing) = true := by
  decide
theorem test_align_half_rate :
    lands (exec (.ppsEdge 0 ⟨true, true⟩) (sunAt (sdlAcquire (11 * 2 ^ 20 + 1048576)))) (fun t => t.sdl.halfRate) = true := by decide
theorem test_align_step_back :
    lands (exec (.ppsEdge 0 ⟨true, true⟩) (sunAt (sdlAcquire (11 * 2 ^ 20 + 1048577)))) (fun t => t.sdl.stepBack && !t.sdl.halfRate) = true := by
  decide
/-- R488: ±200 ppm counts as present, 201 does not. -/
theorem test_ref_window :
    lands (exec (.refCheckWindow true (-200)) live) (fun t => t.sdl.refPresent) = true
    ∧ lands (exec (.refCheckWindow true 201) live) (fun t => !t.sdl.refPresent) = true := by decide
/-- R40: two counters that differ stop the time core; equal ones do nothing. -/
theorem test_core_fault :
    lands (exec (.coreFault 1) live) (fun t => t.sdl.coreFault && t.sdl.state == .untraceable) = true
    ∧ lands (exec (.coreFault 0) live) (fun t => !t.sdl.coreFault) = true := by decide

/-! The kiln -/

theorem test_meets_KilnEvents :
    kilnReleasing live = true ∧ srcPassing live 7 = true
      ∧ 2 ≤ ((List.range 8).filter (fun k => k != 7 && srcPassing live k)).length
      ∧ kilnAlone { live with rng := { rngReset with st := .warming } } = true
      ∧ passingCount live = 8
      ∧ (getInst { live with rng := { live.rng with inst := [(0, { instReset with seeded := true, requests := 2 ^ 20 })] } } 0).seeded
        = true := by decide

/-- R303, R305: a source that repeats is excluded, and the kiln is DEGRADED; with one other source it fails. -/
theorem test_exclusion :
    lands (exec (.repetitionFail 7) live) (fun t => t.rng.st == .degraded && (getSrc t 7).st == .excluded) = true := by decide

/-! The key store -/

def attr0 : Attr :=
  { usage := 2, alg := 0x0102, flags := 0, floor := 0, origin := 1, root := 2, tenant := 0, len := 16, units := 2, cls := 1, meter := 0,
    meterKind := 0, notBefore := 0, notAfter := 0, limit := 0, handle := 0x01000200, kcv := 0, openFloor := 0, created := 0,
    label := 0 }
def obj0 : Obj :=
  { st := .active, gen := 1, attr := attr0, material := List.replicate 16 3, tag := List.replicate 16 4, waiting := 0, txn := 0 }
def withObj (b : Nat) (o : Obj) (s : State) : State := { s with kst := { s.kst with objs := [(b, o)], ready := true } }

theorem test_meets_KeyStoreEvents :
    kfind (withObj 512 { obj0 with st := .draining } live).kst.objs 512 = some { obj0 with st := .draining }
      ∧ scrubDue { withObj 512 obj0 live with tick := 2 ^ 24 } = true
      ∧ coverOf { withObj 512 obj0 live with kst := { (withObj 512 obj0 live).kst with scrubPos := 513 } } 513 = some 512 := by decide

/-- R118: the generation after 255 is 1. -/
theorem test_generation_wraps :
    lands (exec (.objectDrained 512) (withObj 512 { obj0 with st := .draining, gen := 255 } live))
      (fun t => kfind t.kst.objs 512 == none && kget (fun _ => 1) t.kst.gens 512 == 1) = true := by decide

/-! Tamper and the peat domain -/

def meshed : State := { live with tmp := { tmpReset with meshEn := 15 } }

theorem test_meets_TamperAndPeat :
    live.peat.main = true ∧ live.boot.pwrGood = true ∧ live.tmp.halted = false ∧ srcWatched meshed 10 = true
      ∧ (getSrcCfg live 10).n = 1 ∧ (getSrcCfg live 10).resp = 4
      ∧ (getSrcCfg live 8).n = 4 ∧ (getSrcCfg live 8).resp = 2
      ∧ cellWatched { meshed with peat := { peatReset with main := false } } 10 = true
      ∧ (3 : Nat) < (getSrcCfg live 8).n := by decide

/-- R405, R408: a source of response QUENCH clears the roots and sets the latch. -/
theorem test_quench_fires :
    lands (exec (.detectorEvent 10 1) { meshed with peat := { peatReset with roots := [(2, [1])] } })
      (fun t => t.peat.roots == [] && t.peat.latch.isSome && t.tmp.quench.isSome) = true := by decide
/-- R401: source 8 fires at its fourth event in 1,024 ticks. -/
theorem test_window_fires :
    let s := setCnt live 8 { srcCountReset with recent := [10, 20, 30] }
    lands (exec (.detectorEvent 8 461) s) (fun t => t.tmp.level == 2) = true
      ∧ lands (exec (.detectorEvent 8 461) { s with tick := 10 + 1024 }) (fun t => t.tmp.level == 0) = true := by decide
/-- R28: an estimate above the cap takes 1/64 off the duty. -/
def measured (mw : Nat) : State := { live with pwr := { live.pwr with windowTick := 36, activity := mw * 256 * 64 } }
theorem test_power_window :
    lands (exec (.powerWindow none) (measured 110001)) (fun t => t.pwr.duty == 63) = true
    ∧ lands (exec (.powerWindow none) (measured 110000)) (fun t => t.pwr.duty == 64) = true := by decide

/-! Starts and resets -/

def off : State := State.reset
def booting (step : Nat) : State :=
  { live with boot := { live.boot with phase := .rom, start := some { kind := .power, began := 0, step := step, time := true } } }

/-- A start whose keeper region is under the root in force. -/
def kept (s : State) : State := { s with boot := { s.boot with keeperKey := storageKey s 0x04 0 } }
theorem kept_key (s : State) : (kept s).boot.keeperKey = storageKey (kept s) 0x04 0 := by
  have h : rootBytes (kept s) = rootBytes s := rfl
  unfold storageKey
  rw [h]
  rfl
theorem test_meets_StartAndReset_keeper : (kept (booting 4)).boot.keeperKey = storageKey (kept (booting 4)) 0x04 0 :=
  kept_key (booting 4)

theorem test_meets_StartAndReset :
    off.boot.pwrGood = false ∧ lcsMarks off.lcs = 0 ∧ off.lcs.step = none ∧ off.boot.resetLow = false
      ∧ kilnReleasing (booting 4) = true ∧ lcsMarks (booting 4).lcs = 0
      ∧ live.boot.pwrGood = true ∧ live.tmp.quench = none ∧ lcsMarks live.lcs = 0 ∧ live.lcs.step = none
      ∧ stopped (booting 7) = false ∧ (booting 7).boot.retest = []
      ∧ live.boot.request = none ∧ live.boot.start = none ∧ stopped live = false ∧ live.dbg.isOpen = false
      ∧ allDrained { live with boot := { live.boot with shutdown := [(0, 0, 9)] } } = true := by decide

theorem test_power_rises :
    lands (exec (.pwrGoodRise true .intact) off) (fun t => t.boot.pwrGood && t.prk.headStrap && t.boot.cold) = true := by decide
set_option maxRecDepth 100000 in
/-- R446: a flash of 63 MiB halts the boot with FAIL 4, of 64 MiB does not. -/
theorem test_boot_flash :
    lands (exec (.bootKilnReady { mib := some 63, dirOk := true, slotA := true, slotB := true, keeperOk := true }) (booting 4))
      (fun t => t.boot.phase == .halted && t.boot.fail == 4) = true
    ∧ lands (exec (.bootKilnReady { mib := some 64, dirOk := true, slotA := false, slotB := true, keeperOk := true }) (booting 4))
      (fun t => t.boot.phase == .firmware && t.boot.slot == 1) = true := by decide
theorem test_watchdog :
    lands (exec .watchdog live) (fun t => t.boot.request.map (·.cause) == some 6) = true := by decide
theorem test_power_falls :
    lands (exec (.pwrGoodFall true 150) (withObj 512 obj0 live)) (fun t => t.kst.objs == [] && !t.peat.main && t.peat.vbat == 150)
      = true := by decide

/-! The operator port -/

def conFrame (ty seq : Nat) (p : Bytes) : Bytes :=
  let b := [0x3C, BitVec.ofNat 8 ty] ++ leBytes 2 p.length ++ leBytes 2 seq ++ p
  b ++ leBytes 4 (crc32c b)

def wait0 : Wait :=
  { cmd := cmd0, digest := List.replicate 32 5, start := 0, finish := 60 * 2 ^ 20, required := 2, role := 0, counted := [],
    presence := false, present := [], comps := [], refusals := 2, conSeen := true, quorate := false, enrolSlot := none }
def cardAt (st : CardStep) : Card := { cardReset with present := true, vccEn := true, cls := .c, step := st, ident := some (3, List.replicate 97 1) }
def waiting (st : CardStep) : State := { live with aut := { autReset with wait := some wait0, card0 := cardAt st } }

set_option maxRecDepth 4000 in
theorem test_frame_parses : conParse (conFrame 0x81 7 [0, 0x31, 0x32, 0x33, 0x34]) = some (0x81, 7, [0, 0x31, 0x32, 0x33, 0x34]) := by decide

set_option maxRecDepth 4000 in
theorem test_meets_ConsoleAndCards :
    keeperRests live = true ∧ slotOf [1] < 2 ∧ (getCard (waiting .pin) 0).step = .pin
      ∧ (conParse (conFrame 0x84 7 [])).isSome = true ∧ toHost (waiting .pin) wait0.cmd = true
      ∧ (getCard (waiting .pin) 1).present = false ∧ live.aut.custodians = [] ∧ live.aut.wait = none
      ∧ now (waiting .pin) < wait0.finish := by decide

set_option maxRecDepth 4000 in
/-- R112: the PIN goes to the card as VERIFY, the shortest and the longest. -/
theorem test_pin_goes :
    lands (exec (.pin (conFrame 0x81 7 [0, 0x31, 0x32, 0x33, 0x34])) (waiting .pin)) (fun t => (getCard t 0).step == .verify) = true := by decide
set_option maxRecDepth 4000 in
theorem test_cancel_ends : lands (exec (.cancel (conFrame 0x84 7 [])) (waiting .pin)) (fun t => t.aut.wait == none) = true := by decide
/-- R112: the wait ends at its last tick, not before. -/
theorem test_window_end :
    lands (exec .approvalWindowEnd { waiting .pin with sdl := { sdlReset with grid := 60 * 2 ^ 20 } }) (fun t => t.aut.wait == none) = true
    ∧ lands (exec .approvalWindowEnd { waiting .pin with sdl := { sdlReset with grid := 60 * 2 ^ 20 - 1 } })
      (fun t => t.aut.wait == some wait0) = true := by decide
theorem test_card_removed : lands (exec (.cardRemove 0) (waiting .pin)) (fun t => t.aut.card0 == cardReset) = true := by decide


/-! The park: three units, this one at address 0, its links up -/

def fr (ty flags src dst seq : Nat) : FrameIn :=
  { portB := true, bytes := frameBytes ty flags dst src seq 0 0 1 [], assoc := some (1, 0), signed := true }
def portUp : PeerPort := { portReset with linkUp := true }

def park (st : ParkState) : State :=
  { live with
    prk := { prkReset with
      st := st, address := 0, addressed := true, parkId := [9], roster := [[1], [2], [3]], rosterDigest := [8], epoch := 1,
      key := List.replicate 32 6, named := 7, portA := portUp, portB := portUp } }

def agree0 : KeyAgree :=
  { cmd := cmd0, epoch := 2, key := List.replicate 32 7, sent := 7, acked := 3, first := 0, switch := none }
def txn0 : Txn :=
  { id := { unit := 0, counter := 5 }, cmd := some cmd0, change := .delete 0x01000200, members := 2, attempt := 0, yes := 0,
    no := none, gens := [], deadline := 1000, commitFirst := none, commitLast := 0, committed := 0, lost := 0, activate := none,
    output := [] }
def part0 : PartTxn :=
  { id := { unit := 1, counter := 5 }, change := .delete 0x01000200, deadline := 1000, committed := false, activate := none, units := 0 }
def withTxn (x : Txn) (s : State) : State := { s with prk := { s.prk with txns := [x] } }
def withPart (x : PartTxn) (s : State) : State := { s with prk := { s.prk with parts := [x] } }
def atTick (n : Nat) (s : State) : State := { s with tick := n, sdl := { s.sdl with grid := n } }
def objPark : Obj := { obj0 with attr := { attr0 with flags := 2 ^ flParkWide } }

set_option maxRecDepth 8000 in
/-- Frames: the smallest and largest addresses, broadcasts, a frame for another unit at TTL 63, sequence numbers. -/
theorem test_meets_ParkFrames :
    let s := park .formed
    frameOf (.heartbeat (fr 0x10 5 1 0x3F 0) [] 0) = some (fr 0x10 5 1 0x3F 0, 0x10)
      ∧ frameForm (fr 0x10 5 1 0x3F 0).bytes = true ∧ frameForm ((fr 0x10 5 1 0x3F 0).bytes.drop 1) = false
      ∧ heard (fr 0x10 5 1 0x3F 0) 0x10 s = true ∧ heard (fr 0x11 5 2 0x3F 0) 0x11 s = true
      ∧ heard (fr 0x20 4 1 0 7) 0x20 s = true ∧ sequenced (fr 0x20 4 1 0 7) 0x20 = true
      ∧ heard (fr 0x20 4 1 0 6) 0x20 (setPeer s 1 { peerReset with rxSeq := 7 }) = false
      ∧ taken (fr 0x20 4 1 2 7) 0x20 s = true ∧ forUs (fr 0x20 4 1 2 7) 0x20 s = false
      ∧ frTtl (fr 0x20 4 1 2 7).bytes = 63
      ∧ outsider (fr 0x20 4 1 0 7) 0x20 { s with prk := { s.prk with lost := 2 } } = true
      ∧ heard (fr 0x12 4 1 0 0) 0x12 s = true ∧ heard (fr 0x13 4 1 0 0) 0x13 s = true := by decide

set_option maxRecDepth 8000 in
theorem test_frame_secure_dropped :
    lands (exec (.heartbeat { fr 0x10 5 1 0x3F 0 with assoc := none } [] 0) (park .formed)) (fun t => t.prk.macsecDrop == 1) = true := by
  decide

set_option maxRecDepth 8000 in
theorem test_meets_ParkLink :
    (let w := park .walking
     let h := { w with prk := { w.prk with headStrap := true, walkSince := some 0 } }
     heard (fr 0x02 4 0x3F 1 0) 0x02 w = true ∧ frBcast (fr 0x02 4 0x3F 1 0).bytes = false ∧ heard (fr 0x04 5 1 0x3F 0) 0x04 w = true
      ∧ heard (fr 0x03 4 1 0x3F 0) 0x03 h = true ∧ h.prk.walkNext ≤ h.tick ∧ h.prk.walkSince.isSome = true ∧ parkN h = 3)
    ∧ (let s := { park .assembled with prk := { (park .assembled).prk with agree := some agree0 } }
       heard (fr 0x06 4 2 0 0) 0x06 s = true ∧ agree0.switch = none ∧ agree0.sent.testBit 2 = true
        ∧ agree0.acked ||| 2 ^ 2 = agree0.sent ∧ agree0.first + 65536 ≤ now (atTick 65536 s)
        ∧ heard (fr 0x05 4 1 0 0) 0x05 s = true)
    ∧ (let s := { park .formed with prk := { (park .formed).prk with next := some { epoch := 2, key := [], switch := some 100 } } }
       heard (fr 0x07 5 1 0x3F 0) 0x07 s = true ∧ (100 : Nat) ≤ now (atTick 100 s) ∧ s.prk.agree = none)
    ∧ (let s := atTick 256 (setPeer (park .formed) 1 { peerReset with lease := true, renewed := 0, heardB := some 1 })
       (getPeer s 1).lease = true ∧ (getPeer s 1).renewed + 256 ≤ s.tick ∧ (256 : Nat) < 1 + 256)
    ∧ (let s := atTick 65536 (setPeer (park .formed) 1 { peerReset with silentSince := some 0 })
       (getPeer s 1).silentSince = some 0 ∧ (0 : Nat) + 65536 ≤ s.tick ∧ isLost s 1 = false ∧ isEvicted s 1 = false ∧ 1 < parkN s
        ∧ isSelf s 1 = false ∧ s.prk.heardTick + 65536 ≤ s.tick ∧ s.prk.helloTick + 1024 ≤ s.tick)
    ∧ heard (fr 0x42 5 1 0x3F 0) 0x42 (park .formed) = true := by decide

set_option maxRecDepth 8000 in
/-- R329: the head of three ends the walk at NEXT 3, and fails it at 2. -/
theorem test_walk_ends :
    (let w := park .walking
     let h := { w with prk := { w.prk with headStrap := true, walkSince := some 0 } }
     lands (exec (.walk (fr 0x02 4 2 0x3F 0) 3 [9] [8]) h) (fun t => t.prk.st == .assembled) = true
      ∧ lands (exec (.walk (fr 0x02 4 2 0x3F 0) 2 [9] [8]) h) (fun t => t.prk.st == .walking) = true) := by decide

/-- R333: a lease lapses 256 ticks after the last heartbeat; it moves where the other arc was heard within 256 ticks. -/
theorem test_lease :
    (let s := atTick 256 (setPeer (park .formed) 1 { peerReset with lease := true, renewed := 0, heardB := some 1 })
     lands (exec (.leaseExpire 1) s) (fun t => (getPeer t 1).lease && (getPeer t 1).arcB && t.prk.switchovers == 1) = true)
    ∧ (let s := atTick 256 (setPeer (park .formed) 1 { peerReset with lease := true, renewed := 0, heardB := some 0 })
       lands (exec (.leaseExpire 1) s) (fun t => !(getPeer t 1).lease) = true)
    ∧ (let s := atTick 255 (setPeer (park .formed) 1 { peerReset with lease := true, renewed := 0 })
       lands (exec (.leaseExpire 1) s) (fun t => (getPeer t 1).lease) = true) := by decide

/-- R332: the switch is at its tick, and the packet numbers start again. -/
theorem test_epoch_switch :
    (let s := { park .assembled with prk := { (park .assembled).prk with next := some { epoch := 2, key := [5], switch := some 100 } } }
     lands (exec .epochSwitch s) (fun t => t.prk.st == .assembled) = true
      ∧ lands (exec .epochSwitch (atTick 100 s)) (fun t => t.prk.st == .formed && t.prk.epoch == 2 && t.prk.key == [5]) = true) := by
  decide

/-- A batch spread over the park with one item outstanding at unit 1. -/
def share0 : Share := { batch := 4, fn := 0, unit := 1, items := [3], assigned := 1, ok := 0, failed := 0, outcome := 0 }
def batch0 : Batch := { plan := job0, todo := [], count := 2, left := 2, ok := 0, spread := true }
def spreading : State :=
  { park .formed with
    prk := { (park .formed).prk with shares := [share0] }, gth := { (park .formed).gth with batches := [(4, batch0)] } }
def resync0 : Resync := { cmd := cmd0, since := 0, server := none, loaded := false }

set_option maxRecDepth 8000 in
theorem test_meets_ParkTransactions :
    (let s := withObj 512 objPark (park .formed)
     heard (fr 0x20 4 1 0 0) 0x20 s = true ∧ noPart s 1 5 = true ∧ parkFlag s = false ∧ s.prk.serving = none
      ∧ handleBusy s { unit := 1, counter := 5 } (.delete 0x01000200) = false ∧ (parkKeyOf s 0x01000200).isSome = true
      ∧ (parkKeyOf s 0x02000200).isNone = true)
    ∧ (let s := withTxn txn0 (park .formed)
       heard (fr 0x21 4 1 0 0) 0x21 s = true ∧ findTxn s txn0.id = some txn0 ∧ txn0.members.testBit 1 = true
        ∧ bitUnits txn0.members = [1] ∧ isLost s 1 = false ∧ toHost s cmd0 = true ∧ s.aut.mailbox = []
        ∧ changeObjs txn0.change = [] ∧ txn0.deadline ≤ now (atTick 1000 s))
    ∧ (let x := { txn0 with commitFirst := some 0 }
       let s := withTxn x (park .formed)
       heard (fr 0x23 4 1 0 0) 0x23 s = true ∧ findTxn s x.id = some x ∧ txnSilent s x = [1]
        ∧ txnSilent s { x with committed := 2 } = [] ∧ x.commitLast + 4096 ≤ now (atTick 4096 s)
        ∧ (0 : Nat) + 65536 ≤ now (atTick 65536 s) ∧ 1 < parkN s ∧ isSelf s 1 = false ∧ isEvicted s 1 = false)
    ∧ (let s := withPart part0 (withObj 512 objPark (park .formed))
       heard (fr 0x22 4 1 0 0) 0x22 s = true ∧ findPart s part0.id = some part0 ∧ heard (fr 0x25 4 1 0 0) 0x25 s = true
        ∧ heard (fr 0x24 4 1 0 0) 0x24 s = true ∧ parkKeyOf s 0x01000200 = some (512, objPark) ∧ objPark.waiting = 0
        ∧ part0.deadline + 65536 ≤ now (atTick 66536 s))
    ∧ (heard (fr 0x30 4 1 0 0) 0x30 (park .formed) = true ∧ heard (fr 0x31 4 1 0 0) 0x31 spreading = true
      ∧ getBatch spreading 4 = some batch0 ∧ 1 < batch0.left ∧ (3 : Nat) ∈ share0.items
      ∧ retryOk spreading batch0.plan.cmd = false ∧ isLost { spreading with prk := { spreading.prk with lost := 2 } } 1 = true)
    ∧ (let s := { park .formed with prk := { (park .formed).prk with lost := 2, resync := some resync0 } }
       heard (fr 0x40 4 1 0 0) 0x40 s = true ∧ 1 < parkN s ∧ isLost s 1 = true ∧ resync0.since + 2 ^ 20 ≤ (atTick (2 ^ 20) s).tick) := by
  decide

/-- R121: a committed deletion takes effect at its activation tick, not before. -/
theorem test_activation :
    let s := withPart { part0 with committed := true, activate := some 100 } (withObj 512 objPark (park .formed))
    lands (exec .activationTick s) (fun t => (kfind t.kst.objs 512).isSome) = true
      ∧ lands (exec .activationTick (atTick 100 s)) (fun t => kfind t.kst.objs 512 == none && t.prk.parts == []) = true := by decide

set_option maxRecDepth 8000 in
/-- R338: one NO aborts, and the command completes with the vote's status. -/
theorem test_vote_no :
    lands (exec (.vote (fr 0x21 4 1 0 0) 0 5 0 false 0x0201 0 []) (withTxn txn0 (park .formed)))
      (fun t => t.prk.txns == [] && t.prk.txnAbort == 1) = true := by decide


/-! The Lodge, the protection units, debug, the parts and the recorder -/

def applet0 : Applet :=
  { ident := 1, isScoped := false, tenant := 0, granules := [0], memKib := 64, ways := [1], budget := 10, entry := 0, queue := [],
    running := some { cmd := cmd0, since := 0, ret := none }, calls := 1, gateOut := 0, faulted := false, removing := none }
def lodge (a : Applet) : State := { live with ldg := { ldgReset with visitorUp := true, parts := [(5, a)] } }
def region0 : Region := { base := 0x1000, sizeLog2 := 8, perm := 3, master := 0, mask := 0 }
def guarded (r : Region) : State := { live with mpu := { mpuReset with active := [(mpuIx 7 0, r)] } }

theorem test_meets_LodgeEvents :
    kfind (lodge applet0).ldg.parts 5 = some applet0 ∧ applet0.gateOut < 64 ∧ toHost (lodge applet0) cmd0 = true
      ∧ appletStatuses.contains 0x0102 = false ∧ (0 : Nat) + applet0.budget ≤ (lodge applet0).tick
      ∧ (lodge applet0).ldg.sliceTick + 64 ≤ (lodge applet0).tick
      ∧ nextPart { lodge applet0 with ldg := { (lodge applet0).ldg with cores := [] } } = some 5
      ∧ gateOpcode 0x6001 = true ∧ gateOpcode 0x6011 = false ∧ gateOpcode 0x7001 = false ∧ gateOpcode 0x0FFF = false
      ∧ firstMatch (guarded region0) 7 0x100 0x10FF = some region0 ∧ firstMatch (guarded region0) 7 0x100 0x1100 = none
      ∧ defaultMap (guarded region0) 7 0x100 .read = false ∧ live.mpu.committing = false
      ∧ live.boot.request = none ∧ live.boot.start = none ∧ domainInUse live 16 = false ∧ domainInUse live 15 = true := by decide

/-- R381: the budget ends the call at its last tick, not before. -/
theorem test_applet_budget :
    lands (exec (.callBudgetExpire 5) { lodge applet0 with tick := 9 }) (fun t => t.gth == (lodge applet0).gth) = true
    ∧ lands (exec (.callBudgetExpire 5) { lodge applet0 with tick := 10 })
      (fun t => (kfind t.ldg.parts 5).map (fun a => a.running) == some none) = true := by decide
/-- R391: the last byte of a region is inside it, the next one outside. -/
theorem test_mpu_denial :
    lands (exec (.mpuDenial 7 0x100 0x10FF ⟨.write, none⟩) (guarded region0)) (fun t => t.mpu.denied == 0) = true
    ∧ lands (exec (.mpuDenial 7 0x100 0x1100 ⟨.write, none⟩) (guarded region0))
      (fun t => t.mpu.denied == 1 && (getFault t 7).addr == 0x1100 && (getFault t 7).noMatch) = true
    ∧ lands (exec (.mpuDenial 7 0x100 0x10FF ⟨.exec, none⟩) (guarded region0))
      (fun t => t.mpu.denied == 1 && !(getFault t 7).noMatch) = true := by decide
/-- R389: a commit takes the staged regions, and the epoch goes on. -/
theorem test_mpu_commit :
    lands (exec (.mpuCommit 0) { live with mpu := { mpuReset with staged := [(0, region0)] } })
      (fun t => t.mpu.active == [(0, region0)] && t.mpu.epoch == 1 && !t.mpu.committing) = true := by decide

def openWith (rights : Nat) : State := { live with dbg := { live.dbg with isOpen := true, rights := rights, endTick := 100 } }

theorem test_meets_DebugAndTap :
    debugRight live 1 = false ∧ debugRight (openWith 2) 1 = true ∧ debugRight (openWith 16) 4 = true ∧ debugRight (openWith 32) 5 = true
      ∧ debugRight (openWith 256) 8 = true ∧ (openWith 256).dbg.endTick ≤ now (atTick 100 (openWith 256))
      ∧ stopped live = false ∧ (List.range 16).find? (fun r => debugMatch live 7 r 0x10FF) = none
      ∧ (List.range 16).find? (fun r => debugMatch (guarded { region0 with base := 0x100 }) 7 r 0x1FC) = some 0
      ∧ targetBlock 7 = some (0x1000, 0x1000) ∧ (getRegion (guarded region0) 7 0).perm.testBit 0 = true
      ∧ (getRegion (guarded region0) 7 0).perm.testBit 1 = true
      ∧ (List.range 16).find? (fun r => debugMatch { live with mpu := { mpuReset with active := [(mpuIx 20 0, region0)] } } 20 r 0x10FF)
        = some 0 := by decide

/-- R436: with debug closed the chain is the bypass register. -/
theorem test_scan_closed : lands (exec (.scanChain 100) live) (fun t => t.tap.instr == .bypass) = true := by decide
/-- R432: the session ends at its last tick. -/
theorem test_debug_ends :
    lands (exec .debugSessionEnd (openWith 2)) (fun t => t.dbg.isOpen) = true
    ∧ lands (exec .debugSessionEnd (atTick 100 (openWith 2))) (fun t => !t.dbg.isOpen && t.dbg.rights == 0) = true := by decide

def repair0 (k i : Nat) (w : RepairWork) : Repair :=
  { kind := k, index := i, work := w, testOnly := false, cause := 1, started := 0, waiters := [(0, 0, 7)], thenReturn := false }
def repairing (k i : Nat) (w : RepairWork) : State := { live with rep := { live.rep with work := [repair0 k i w] } }
def rec1 : EvtRec :=
  { type := 0x0801, source := 0, severity := 1, flags := 0, repeats := 1, firstHours := 0, lastHours := 0, cycles := 0, unit := 0,
    tenant := 0, grid := 0, seq := 0, payload := [], flushed := false }

theorem test_meets_RepairAndRecorder :
    findWork (repairing 1 271 .draining) 1 271 = some (repair0 1 271 .draining) ∧ partIdle (repairing 1 271 .draining) 1 271 = true
      ∧ findWork (repairing 3 31 .testing) 3 31 = some (repair0 3 31 .testing) ∧ live.gth.jobs = []
      ∧ toHost live cmd0 = true ∧ (0 : Nat) + 1048 ≤ (atTick 1048 live).tick
      ∧ unflushed { live with evt := { evtReset with ring := List.replicate 64 rec1 } } = 64
      ∧ fnDrained live 3 = true := by decide

/-- R472, R475: a test that fails leaves the engine QUARANTINED, one that passes returns it. -/
theorem test_part_test :
    lands (exec (.partTestEnd 1 0 (some 9) []) (repairing 1 0 .testing))
      (fun t => (getEng t 0).st == .quarantined && t.rep.work == []) = true
    ∧ lands (exec (.partTestEnd 1 0 none []) (repairing 1 0 .testing)) (fun t => (getEng t 0).st == .idle && t.rep.work == [])
      = true := by decide
/-- R474: a scrub that has not ended after 1,048 ticks is a wedge; before, nothing. -/
theorem test_wedge :
    lands (exec (.wedgeTimeout 1 0) { repairing 1 0 (.forcing 0) with tick := 1047 }) (fun t => t.boot.request == none) = true
    ∧ lands (exec (.wedgeTimeout 1 0) { repairing 1 0 (.forcing 0) with tick := 1048 })
      (fun t => t.boot.request.map (fun r => r.cause) == some 10) = true := by decide
set_option maxRecDepth 20000 in
/-- R466: 64 records of the ring make a page of the history. -/
theorem test_flush :
    lands (exec .historyFlush { live with evt := { evtReset with ring := List.replicate 63 rec1, historyCap := 64 } })
      (fun t => t.evt.history.length == 0) = true
    ∧ lands (exec .historyFlush { live with evt := { evtReset with ring := List.replicate 64 rec1, historyCap := 64 } })
      (fun t => t.evt.history.length == 64 && t.evt.flushes == 1) = true := by decide


/-! Commands from the host -/

def cmdOf (op select inLen outLen : Nat) (b : Bytes) : Cmd :=
  { cmd0 with
    desc := { desc0 with
      opcode := op, select := select, inLen := inLen, inAddr := (if inLen = 0 then 0 else 0x2000), outLen := outLen,
      outAddr := (if outLen = 0 then 0 else 0x1000) },
    input := padTo inLen b }
/-- A command that names key A. -/
def keyed (c : Cmd) : Cmd := { c with desc := { c.desc with keyA := 0x01000200 } }

/-- What `served` and `plans` ask, of a command with its opcode. -/
def isReady (c : Cmd) (s : State) : Bool :=
  ready (rowCmd c.desc.opcode c) s && payloadGood (rowCmd c.desc.opcode c) && !coldSave (rowCmd c.desc.opcode c)

def keyLive : State := withObj 512 obj0 live

theorem test_meets_ImmediateCommands :
    isReady (cmdOf 0x0001 0 0 4096 []) live && isReady (cmdOf 0x0002 0 0 8192 []) live && isReady (cmdOf 0x0003 0 0 0 []) live
    && isReady (cmdOf 0x0004 5 1 1 []) (lodge applet0) && isReady (cmdOf 0x0005 0x100 0 0 []) live
    && isReady (cmdOf 0x0006 0x100 0 0 []) live && isReady (cmdOf 0x0007 0 0 0 []) live
    && isReady (keyed (cmdOf 0x1003 2 0 64 [])) keyLive && isReady (keyed (cmdOf 0x1005 0 0 32 [])) keyLive
    && isReady (cmdOf 0x2002 1 0 64 []) live && isReady (cmdOf 0x4006 31 0 64 []) live && isReady (cmdOf 0x4007 16 48 0 []) live
    && isReady (cmdOf 0x6001 1 0 1 []) live && isReady (cmdOf 0x6002 15 0 65536 []) live && isReady (cmdOf 0x7001 0 0 64 []) live
    && isReady (cmdOf 0x7002 0 0 64 []) live && isReady (cmdOf 0x8001 0 0 2048 []) live && isReady (cmdOf 0x9001 1023 0 0 []) live
    && isReady (cmdOf 0x9002 1 0 0 []) live && isReady (cmdOf 0x9003 1 4 0 []) live && isReady (cmdOf 0xA001 0 0 64 []) live
    && isReady (cmdOf 0xB001 0 16 16384 []) live && isReady (cmdOf 0xC001 0x2000 0 4096 []) live
    && isReady (cmdOf 0xC002 0 16 0 []) live = true := by decide

/-- The conditions under which the clauses of `ImmediateCommands` say what happens. -/
theorem test_meets_immediate_clauses :
    kfind (lodge applet0).ldg.parts 5 = some applet0 ∧ passes (quarantineCheck live (cmdOf 0x0005 0x1301 0 0 [])) = false
      ∧ (match keyLookup keyLive (keyed (cmdOf 0x1003 0 0 64 [])) 0x01000200 with
        | .ok r => r == (512, obj0)
        | .error _ => false) = true
      ∧ passes (keyWindow keyLive obj0.attr) = true ∧ passes (keyMeter keyLive obj0.attr (meterUnits obj0.attr 0 0 0 1)) = true
      ∧ kilnReleasing live = true ∧ (getVf live 5).st = .unbound ∧ fnDrained live 5 = true := by decide

theorem test_nop_completes :
    lands (exec (.adminNop (cmdOf 0x0003 0 0 0 [])) live)
      (fun t => t.out.head? == some (.completion 0 0 { tag := 7, status := 0, detail := 0, written := 0, time := 0, pair := 0, unit := 0xFF }))
      = true := by decide

/-- The release-G rows: what may be planned is planned, in states with the key the row asks for. -/
def planGood (c : Cmd) (s : State) : Bool := match planG s (seen (rowCmd c.desc.opcode c) s) with
  | .ok (j, _) => stageOk s c j.staged && otsRoom s j && chargesFit s j && (isPool j || (planPav s).isSome)
  | .error _ => false

/-- A state whose object 512 is a key for `usage` and algorithm `alg`. -/
def keyFor (usage alg : Nat) : State := withObj 512 { obj0 with attr := { attr0 with usage := usage, alg := alg } } live

/-- A descriptor of a general row: flags, select, lengths, and whether it names key A and key B. -/
structure Plan0 where
  op : Nat
  flags : Nat
  select : Nat
  inLen : Nat
  auxLen : Nat
  outLen : Nat
  usage : Nat
  alg : Nat
  cls : Nat
  twoKeys : Bool

def Plan0.cmd (p : Plan0) : Cmd :=
  let c := cmdOf p.op p.select p.inLen p.outLen []
  { c with desc := { c.desc with
      flags := p.flags, auxLen := p.auxLen, auxAddr := (if p.auxLen = 0 then 0 else 0x5000),
      keyA := (if p.usage = 0 then 0 else 0x01000200), keyB := (if p.twoKeys then 0x01000200 else 0) } }

def stream0 : Stream :=
  { fn := 0, number := 0, queue := 0, opcode := 0x4002, paramSet := 1, keyA := 0, declared := none, total := 0, processed := 0,
    text := 0, context := [], aad := [], nonce := [], busy := 0, ended := false, ident := 0 }

/-- Object 512 is a key of that usage, algorithm and class (an RSA key is of 2,048 bits); stream 0 is open where a segment goes
on with it. -/
def Plan0.state (p : Plan0) : State :=
  let len := if p.alg = 0x0301 then (if p.cls = 1 then 1156 else 260) else 16
  { withObj 512 { obj0 with attr := { attr0 with usage := p.usage, alg := p.alg, cls := p.cls, len := len } } live with
    lib := { libReset with programs := [(0x80000001, { prog0 with man := { prog0.man with profiles := 7 } })] },
    gth := { live.gth with streams := (if p.flags = 0x80 then [stream0] else []) } }

/-- It is ready, and the checks and the plan accept it. -/
def Plan0.good (p : Plan0) : Bool := isReady p.cmd p.state && planGood p.cmd p.state

/-- Each general row with a command that becomes a job. -/
theorem test_meets_GeneralCommands :
    ([⟨0x1001, 0, 0, 120, 0, 4, 0, 0, 0, false⟩, ⟨0x1002, 0, 0, 0, 0, 256, 1, 0x0102, 0, false⟩,
      ⟨0x1004, 0, 0x0F01, 0, 64, 4, 5, 0x0103, 0, true⟩, ⟨0x1006, 0, 0, 0, 0, 3, 1, 0x0102, 0, false⟩,
      ⟨0x2001, 0, 0x80000001, 3, 0, 64, 2, 0x0102, 0, true⟩, ⟨0x3001, 0, 1, 16, 0, 64, 1, 0x0102, 0, false⟩,
      ⟨0x3002, 0, 1, 44, 0, 16, 2, 0x0102, 0, false⟩, ⟨0x3003, 0x40, 1, 16, 0, 64, 1, 0x0102, 0, false⟩,
      ⟨0x3004, 0, 4, 16, 0, 16, 6, 0x0102, 0, false⟩, ⟨0x3005, 0, 4, 16, 16, 0, 7, 0x0102, 0, false⟩,
      ⟨0x3007, 0, 4, 16, 48, 0, 12, 0x0102, 0, false⟩, ⟨0x3008, 0, 2, 16, 40, 8, 14, 0x0111, 0, false⟩,
      ⟨0x3009, 0, 1, 32, 0, 4, 14, 0x0111, 0, false⟩, ⟨0x300A, 0, 1, 32, 3, 0, 14, 0x0111, 0, false⟩,
      ⟨0x4001, 0, 1, 5, 0, 32, 0, 0, 0, false⟩, ⟨0x4002, 0x40, 1, 64, 0, 0, 0, 0, 0, false⟩,
      ⟨0x4003, 0x80, 1, 5, 0, 32, 0, 0, 0, false⟩, ⟨0x4004, 0, 1, 5, 0, 32, 6, 0x0121, 0, false⟩,
      ⟨0x4005, 0, 1, 5, 32, 0, 7, 0x0121, 0, false⟩, ⟨0x5001, 0, 0x0212, 16, 0, 4000, 8, 0x0212, 1, false⟩,
      ⟨0x5002, 0, 0x0212, 16, 3309, 0, 9, 0x0212, 2, false⟩, ⟨0x5003, 0, 0x0202, 0, 64, 2000, 10, 0x0202, 2, false⟩,
      ⟨0x5004, 0, 0x0202, 1088, 64, 64, 11, 0x0202, 1, false⟩, ⟨0x5005, 0, 0x0331, 32, 64, 64, 5, 0x0331, 1, false⟩,
      ⟨0x5006, 0, 0x0301, 16, 0, 512, 1, 0x0301, 2, false⟩, ⟨0x5007, 0, 0x0301, 256, 0, 256, 2, 0x0301, 1, false⟩]
      : List Plan0).all Plan0.good = true := by decide

/-- PIN translation takes two keys of two usages. -/
def twoKeyState : State :=
  { live with kst := { live.kst with ready := true, objs := [(512, { obj0 with attr := { attr0 with usage := 12, cls := 0 } }),
      (514, { obj0 with attr := { attr0 with usage := 13, cls := 0, handle := 0x01000202 } })] } }
def translate0 : Cmd :=
  let c := keyed (cmdOf 0x3006 0x44 16 16 [])
  { c with desc := { c.desc with auxLen := 32, auxAddr := 0x5000, keyB := 0x01000202 } }
theorem test_meets_pin_translate : isReady translate0 twoKeyState = true ∧ planGood translate0 twoKeyState = true := by decide

/-- KEY_SAVE with COLD, for the keeper world. -/
theorem test_meets_cold_save :
    (let c := keyed (cmdOf 0x1002 0x20000 0 256 [])
     ready (rowCmd 0x1002 c) keyLive = true
      ∧ (match planCold keyLive (seen (rowCmd 0x1002 c) keyLive) with
        | .ok (j, _) => otsRoom keyLive j && chargesFit keyLive j
        | .error _ => false) = true) ∧ kilnReleasing keyLive = true ∧ (planPav keyLive).isSome = true := by decide


/-! Critical commands: authority blocks whose tag is right, and what follows. The signatures of tokens and approvals are
checked by a function that the model leaves open, so that witnesses of two or more custodians take as a premise that the
signatures hold. -/

/-- An authority block up to its tag (R95). -/
def blockHead (kind index mode tokens counter : Nat) : Bytes :=
  leBytes 1 1 ++ leBytes 1 kind ++ leBytes 2 index ++ leBytes 1 mode ++ leBytes 1 tokens ++ leBytes 1 0xFF ++ [0]
    ++ leBytes 8 counter ++ leBytes 8 (if tokens = 0 then 0 else 0x4000) ++ List.replicate 8 0

def withBlock (head tag : Bytes) (c : Cmd) : Cmd := { c with auth := head ++ tag ++ List.replicate 16 0 }
/-- The command with the block whose tag is right under `key`. -/
def signedBlock (key head : Bytes) (c : Cmd) (s : State) : Cmd :=
  withBlock head (authTagOf key (authMessage (seen c s) (authParse (head ++ List.replicate 32 0)))) c

def chan0 : Bytes := List.replicate 32 0x5A
def custodian0 : Custodian :=
  { roles := 0xFF, isScoped := false, scope := 0, notAfter := 0, name := [], sigEc := [], sigMl := [], kemPk := [] }
/-- The PF's channel, and custodian 3 with every role and a channel of its own. -/
def governed : State := { live with aut := { autReset with chanKey := [(0, chan0), (1027, chan0)], custodians := [(3, custodian0)] } }

/-- The state past the checks of the block, and the custodians that count. -/
def pastChecks (x : Cmd) (u : State) : State × List Nat :=
  let a := authParse x.auth
  let s1 := setCounter u (channelIx a) a.counter
  let w := { s1 with aut := { s1.aut with check6 := now u } }
  let r := countTokens w x (sha3_256 (authMessage x a)) (now u) a.tokens 0 ([], 0)
  let v := { w with aut := { w.aut with tokenReject := satAdd 32 w.aut.tokenReject r.2 } }
  (v, channelApproval v x a r.1)

def atKeeper (c : Cmd) (s : State) : Cmd × State := (seen c s, pmcDev (counted (seen c s) s) 167 1)

def reaches (c : Cmd) (s : State) : Bool :=
  ready c s && isCritical c.desc.opcode && c.dma != .payloadFails && c.dma != .authFails && keeperFree s

def checksOk (x : Cmd) (u : State) : Bool :=
  let a := authParse x.auth
  authForm u x.desc.opcode == .normal && passes (authCheck1 u x a) && passes (authCheck23 u x a) && passes (authCheck4 u a)
    && (List.range a.tokens).all (fun i => tokenForm (tokenAt x i))

theorem keccakRound_length (a : List Nat) (rc : Nat) : (keccakRound a rc).length = 25 := by
  unfold keccakRound keccakRoundW
  simp only []
  split <;> rename_i h <;> have := congrArg List.length h <;> simp at this ⊢ <;> omega

theorem foldl_round_length (l : List Nat) (a : List Nat) (h : a.length = 25) : (l.foldl keccakRound a).length = 25 := by
  induction l generalizing a with
  | nil => exact h
  | cons x l ih => exact ih _ (keccakRound_length a x)

theorem foldl_round_length' (x : Nat) (l : List Nat) (a : List Nat) : ((x :: l).foldl keccakRound a).length = 25 :=
  foldl_round_length l _ (keccakRound_length a x)

theorem keccakF_length (a : List Nat) : (keccakF a).length = 25 := foldl_round_length' _ _ a

theorem absorb_length (rate n : Nat) (m : Bytes) (a : List Nat) (h : a.length = 25) : (absorb rate n m a).length = 25 := by
  induction n generalizing m a with
  | zero => exact h
  | succ n ih => exact ih _ _ (keccakF_length _)

theorem leBytes_length (n v : Nat) : (leBytes n v).length = n := by
  induction n generalizing v with
  | zero => rfl
  | succ n ih => simp [leBytes, ih]

theorem lanesBytes_length (a : List Nat) : (lanesBytes a).length = 8 * a.length := by
  unfold lanesBytes
  induction a with
  | nil => rfl
  | cons x l ih => simp only [List.flatMap_cons, List.length_append, leBytes_length, List.length_cons, ih]; omega

theorem authTagOf_length (key m : Bytes) : (authTagOf key m).length = 16 := by
  simp [authTagOf, kmac256, kmac, cshake, sponge, squeeze, ceilDiv, lanesBytes_length, absorb_length]
theorem parse_block (head tag : Bytes) (h : head.length = 32) (h1 : tag.length = 16) :
    authParse (head ++ tag ++ List.replicate 16 0) = { authParse (head ++ List.replicate 32 0) with tag := tag } := by
  simp [authParse, leAt, padTo, List.drop_append, List.take_append, h, h1]

theorem ok_of_passes {r : Res Unit} (h : passes r = true) : r = .ok () := by
  cases r with
  | ok u => rfl
  | error e => cases h

theorem reachesKeeper_of {c : Cmd} {s : State} (h : reaches c s = true) : reachesKeeper c s (atKeeper c s).1 (atKeeper c s).2 := by
  simp only [reaches, Bool.and_eq_true, bne_iff_ne] at h
  exact ⟨h.1.1.1.1, h.1.1.1.2, h.1.1.2, h.1.2, h.2, rfl, rfl⟩

theorem checked_of {x : Cmd} {u : State} (h : checksOk x u = true) : checked x u (pastChecks x u).1 (pastChecks x u).2 := by
  simp only [checksOk, Bool.and_eq_true, List.all_eq_true, List.mem_range, beq_iff_eq] at h
  exact ⟨h.1.1.1.1, ok_of_passes h.1.1.1.2, ok_of_passes h.1.1.2, ok_of_passes h.1.2, h.2, _, _, rfl, rfl, rfl, rfl⟩

/-- An approved command of the ordinary form is one whose counted custodians reach the quorum. -/
theorem approved_of {x : Cmd} {u : State} (h : checksOk x u = true) (h1 : x.desc.opcode ≠ 0x0016) (h2 : x.desc.opcode ≠ 0x1015)
    (h3 : required (pastChecks x u).1 x ≤ (pastChecks x u).2.length) : approved x u (pastChecks x u).1 :=
  .inr ⟨h1, h2, _, checked_of h, h3⟩


/-- The tag of `signedBlock` is right. -/
theorem signed_tag (key head : Bytes) (c : Cmd) (s : State) (h : head.length = 32) :
    (authParse (signedBlock key head c s).auth).tag
      = authTagOf key (authMessage (seen (signedBlock key head c s) s) (authParse (signedBlock key head c s).auth)) := by
  have hp := parse_block head _ h (authTagOf_length key (authMessage (seen c s) (authParse (head ++ List.replicate 32 0))))
  have e : (signedBlock key head c s).auth = head ++ authTagOf key (authMessage (seen c s)
    (authParse (head ++ List.replicate 32 0))) ++ List.replicate 16 0 := rfl
  rw [e, hp]
  have m : seen (signedBlock key head c s) s = { seen c s with auth := (signedBlock key head c s).auth } := by
    simp only [seen, normCmd, signedBlock, withBlock]
    split <;> rfl
  rw [m]
  rfl

/-- What the checks look at besides the tag and the tokens. -/
def channelOk (key : Bytes) (a : AuthBlock) (x : Cmd) (u : State) : Bool :=
  authForm u x.desc.opcode == .normal && passes (authCheck1 u x a) && channelPermitted x.fn a && chanKeyOf u (channelIx a) == some key
    && a.unit == unitByte u && passes (authCheck4 u a)

theorem checksOk_signed {c : Cmd} {s : State} {key head : Bytes} (hh : head.length = 32)
    (h : channelOk key (authParse (atKeeper (signedBlock key head c s) s).1.auth) (atKeeper (signedBlock key head c s) s).1
      (atKeeper (signedBlock key head c s) s).2 = true)
    (h7 : (List.range (authParse (atKeeper (signedBlock key head c s) s).1.auth).tokens).all
      (fun i => tokenForm (tokenAt (atKeeper (signedBlock key head c s) s).1 i)) = true) :
    checksOk (atKeeper (signedBlock key head c s) s).1 (atKeeper (signedBlock key head c s) s).2 = true := by
  have ht := signed_tag key head c s hh
  simp only [channelOk, Bool.and_eq_true, beq_iff_eq] at h
  obtain ⟨⟨⟨⟨⟨h1, h2⟩, h3⟩, h4⟩, h5⟩, h6⟩ := h
  have e : (atKeeper (signedBlock key head c s) s).1 = seen (signedBlock key head c s) s := rfl
  have ea : (seen (signedBlock key head c s) s).auth = (signedBlock key head c s).auth := by
    simp only [seen, normCmd, signedBlock, withBlock]
    split <;> rfl
  have h23 : passes (authCheck23 (atKeeper (signedBlock key head c s) s).2 (atKeeper (signedBlock key head c s) s).1
      (authParse (atKeeper (signedBlock key head c s) s).1.auth)) = true := by
    simp only [authCheck23, h3, h4, h5]
    rw [e, ea, ← ht]
    simp [failIf, passes]
  simp only [checksOk, Bool.and_eq_true, beq_iff_eq]
  exact ⟨⟨⟨⟨h1, h2⟩, h23⟩, h6⟩, h7⟩

def critical (c : Cmd) : Cmd := { c with desc := { c.desc with authAddr := 0x3000 } }

theorem auth_of (key head : Bytes) (c : Cmd) (s : State) :
    (atKeeper (signedBlock key head c s) s).1.auth = head ++ authTagOf key (authMessage (seen c s)
      (authParse (head ++ List.replicate 32 0))) ++ List.replicate 16 0 := by
  simp only [atKeeper, seen, normCmd, signedBlock, withBlock]
  split <;> rfl

theorem parsed (key head : Bytes) (c : Cmd) (s : State) (hh : head.length = 32) :
    authParse (atKeeper (signedBlock key head c s) s).1.auth = { authParse (head ++ List.replicate 32 0) with
      tag := authTagOf key (authMessage (seen c s) (authParse (head ++ List.replicate 32 0))) } := by
  rw [auth_of, parse_block head _ hh (authTagOf_length _ _)]

/-- A command whose block is right, with no token. -/
theorem witness_of {c : Cmd} {key head : Bytes} {row : Cmd → Cmd} {s : State}
    (hh : head.length = 32) (h0 : (authParse (head ++ List.replicate 32 0)).tokens = 0)
    (hrow : row (signedBlock key head c s) = signedBlock key head c s)
    (hr : ∀ b, reaches { c with auth := b } s = true)
    (hc : ∀ b t, channelOk key { authParse (head ++ List.replicate 32 0) with tag := t } (atKeeper { c with auth := b } s).1
      (atKeeper { c with auth := b } s).2 = true) :
    reachesKeeper (row (signedBlock key head c s)) s (atKeeper (signedBlock key head c s) s).1 (atKeeper (signedBlock key head c s) s).2
      ∧ checksOk (atKeeper (signedBlock key head c s) s).1 (atKeeper (signedBlock key head c s) s).2 = true := by
  refine ⟨by rw [hrow]; exact reachesKeeper_of (hr _), checksOk_signed hh ?_ ?_⟩
  · rw [parsed key head c s hh]
    exact hc _ _
  · rw [parsed key head c s hh]
    show (List.range (authParse (head ++ List.replicate 32 0)).tokens).all _ = true
    rw [h0]
    rfl

def tokenHead : Bytes := [1, 4, 1, 0, 0, 0, 0, 0, 0, 0, 0, 0, 0, 0, 0, 0, 0, 0, 0x10, 0, 0, 0, 0, 0]
def tokenFor (d : Bytes) : Bytes := tokenHead ++ d ++ List.replicate 3416 0

theorem tokenHead_length : tokenHead.length = 24 := rfl

theorem tokenFor_length (d : Bytes) (h : d.length = 32) : (tokenFor d).length = 3472 := by
  simp [-List.reduceReplicate, tokenFor, tokenHead_length, h]

theorem tokenFor_head (d : Bytes) (i n : Nat) (h : i + n ≤ 24) : leAt (tokenFor d) i n = leAt tokenHead i n := by
  have h1 : i - 24 = 0 := by omega
  have h2 : n - (24 - i) = 0 := by omega
  simp [-List.reduceReplicate, tokenFor, leAt, List.drop_append, List.take_append, tokenHead_length, h1, h2]

theorem tokenFor_zeros (d : Bytes) (h : d.length = 32) (i n : Nat) (hi : 56 ≤ i) (hn : i + n ≤ 3472) :
    leAt (tokenFor d) i n = leNat (List.replicate n 0) := by
  have e : (tokenHead ++ d).length = 56 := by simp [tokenHead_length, h]
  have h1 : (tokenHead ++ d).drop i = [] := List.drop_eq_nil_of_le (by omega)
  unfold tokenFor leAt
  rw [List.drop_append, h1, e, List.drop_replicate, List.nil_append, List.take_replicate]
  congr 2
  omega

theorem tokenFor_form (d : Bytes) (h : d.length = 32) : tokenForm (tokenFor d) = true := by
  simp only [tokenForm, tokenFor_length d h, tokenSize, zeroAt, tokenFor_head d 0 1 (by omega), tokenFor_head d 2 1 (by omega),
    tokenFor_head d 3 5 (by omega), tokenFor_head d 8 8 (by omega), tokenFor_head d 16 8 (by omega),
    tokenFor_zeros d h 56 8 (by omega) (by omega), tokenFor_zeros d h 3469 3 (by omega) (by omega)]
  decide

theorem tokenFor_digest (d : Bytes) (h : d.length = 32) : ((tokenFor d).drop 24).take 32 = d := by
  simp [-List.reduceReplicate, tokenFor, List.drop_append, List.take_append, tokenHead_length, h]

theorem sha3_256_length (m : Bytes) : (sha3_256 m).length = 32 := by
  simp [sha3_256, sponge, squeeze, ceilDiv, lanesBytes_length, absorb_length]

/-- The command with the token of custodian 4, and with the block that counts one token. -/
def twoSigned (key head : Bytes) (c : Cmd) (s : State) : Cmd :=
  signedBlock key head { c with tokens := tokenFor (sha3_256 (authMessage (seen c s) (authParse (head ++ List.replicate 32 0)))) } s

theorem first_token (key head : Bytes) (c : Cmd) (s : State) (d : Bytes) (h : d.length = 32) :
    tokenAt (atKeeper (signedBlock key head { c with tokens := tokenFor d } s) s).1 0 = tokenFor d := by
  have e : (atKeeper (signedBlock key head { c with tokens := tokenFor d } s) s).1.tokens = tokenFor d := by
    simp only [atKeeper, seen, normCmd, signedBlock, withBlock]
    split <;> rfl
  rw [tokenAt, e, Nat.mul_zero, List.drop_zero]
  exact List.take_of_length_le (by rw [tokenFor_length d h]; decide)

theorem all_one {p : Nat → Bool} (h : p 0 = true) : (List.range 1).all p = true := by
  simp [List.range_succ, h]

/-- A block of custodian 3's channel and a token of custodian 4: both count, where the token's signatures hold. -/
theorem two_witness_of {c : Cmd} {key head : Bytes} {row : Cmd → Cmd} {s : State}
    (hh : head.length = 32) (h1 : (authParse (head ++ List.replicate 32 0)).tokens = 1)
    (hrow : row (twoSigned key head c s) = twoSigned key head c s)
    (hr : ∀ b k, reaches { c with auth := b, tokens := k } s = true)
    (hc : ∀ b k t, channelOk key { authParse (head ++ List.replicate 32 0) with tag := t }
      (atKeeper { c with auth := b, tokens := k } s).1 (atKeeper { c with auth := b, tokens := k } s).2 = true) :
    reachesKeeper (row (twoSigned key head c s)) s (atKeeper (twoSigned key head c s) s).1 (atKeeper (twoSigned key head c s) s).2
      ∧ checksOk (atKeeper (twoSigned key head c s) s).1 (atKeeper (twoSigned key head c s) s).2 = true := by
  refine ⟨by rw [hrow]; exact reachesKeeper_of (hr _ _), checksOk_signed hh ?_ ?_⟩
  · rw [parsed key head _ s hh]
    exact hc _ _ _
  · rw [parsed key head _ s hh]
    show (List.range (authParse (head ++ List.replicate 32 0)).tokens).all _ = true
    rw [h1]
    refine all_one ?_
    rw [first_token _ _ _ _ _ (sha3_256_length _)]
    exact tokenFor_form _ (sha3_256_length _)

/-- What the state and the command give so that the token of custodian 4 and the channel of custodian 3 count. -/
def canCount (a : AuthBlock) (x : Cmd) (u : State) : Bool :=
  kfind u.aut.custodians 4 == some custodian0 && decide (now u ≤ 2 ^ 20) && decide (1 ≤ u.aut.policy.tokenSpan) && !untraceable u
    && approvalCounts u x 4 && approvalCounts u x 3 && a.kind == 2 && a.index == 3

theorem token_counts (s u : State) (x : Cmd) (a : AuthBlock) (d : Bytes) (h : d.length = 32) (hu : canCount a x u = true)
    (hs : s = { setCounter u (channelIx a) a.counter with
      aut := { (setCounter u (channelIx a) a.counter).aut with check6 := now u } })
    (hg : approvalSigned custodian0 ((tokenFor d).take 64) (((tokenFor d).drop 64).take 96) (((tokenFor d).drop 160).take 3309) = true)
    (ht : tokenAt x 0 = tokenFor d) : countTokens s x d (now u) 1 0 ([], 0) = ([4], 0) := by
  simp only [canCount, Bool.and_eq_true, beq_iff_eq, decide_eq_true_eq] at hu
  obtain ⟨⟨⟨⟨⟨⟨⟨h1, h2⟩, h3⟩, h4⟩, h5⟩, h6⟩, h7⟩, h8⟩ := hu
  have c4 : kfind s.aut.custodians 4 = some custodian0 := by rw [hs]; exact h1
  have ca : approvalCounts s x 4 = true := by rw [hs]; exact h5
  have cu : untraceable s = untraceable u := by rw [hs]; rfl
  have cp : s.aut.policy = u.aut.policy := by rw [hs]; rfl
  have k1 : leAt (tokenFor d) 1 1 = 4 := tokenFor_head d 1 1 (by omega)
  have k2 : leAt (tokenFor d) 8 8 = 0 := tokenFor_head d 8 8 (by omega)
  have k3 : leAt (tokenFor d) 16 8 = 2 ^ 20 := tokenFor_head d 16 8 (by omega)
  have kc : tokenCounts s (tokenFor d) d (now u) = true := by
    simp only [tokenCounts, k1, k2, k3, c4, hg, tokenFor_digest d h, cu, cp]
    simp_all
    try omega
  simp only [countTokens, ht, k1, kc, ca]
  rfl

theorem message_of (key head : Bytes) (c : Cmd) (s : State) (k t : Bytes) :
    authMessage (atKeeper (signedBlock key head { c with tokens := k } s) s).1
        { authParse (head ++ List.replicate 32 0) with tag := t }
      = authMessage (seen c s) (authParse (head ++ List.replicate 32 0)) := by
  simp only [atKeeper, seen, normCmd, signedBlock, withBlock, authMessage]
  split <;> rfl

theorem channel_adds (v : State) (x : Cmd) (a : AuthBlock) (h : approvalCounts v x 3 = true) (h1 : a.kind = 2) (h2 : a.index = 3) :
    channelApproval v x a [4] = [4, 3] := by
  simp only [channelApproval, h1, h2, h]
  rfl

/-- The signatures of custodian 4's tokens hold. -/
def SignaturesHold : Prop := ∀ d,
  approvalSigned custodian0 ((tokenFor d).take 64) (((tokenFor d).drop 64).take 96) (((tokenFor d).drop 160).take 3309) = true

theorem both_count {x : Cmd} {u : State} {a : AuthBlock} {d : Bytes} (h1 : a.tokens = 1) (ha : authParse x.auth = a)
    (hu : canCount a x u = true) (hd : d.length = 32) (hm : sha3_256 (authMessage x a) = d) (hf : tokenAt x 0 = tokenFor d)
    (hg : SignaturesHold) : (pastChecks x u).2 = [4, 3] := by
  have hu' := hu
  simp only [canCount, Bool.and_eq_true, beq_iff_eq, decide_eq_true_eq] at hu'
  obtain ⟨⟨⟨_, h6⟩, h7⟩, h8⟩ := hu'
  unfold pastChecks
  simp only [ha, h1, hm]
  rw [token_counts _ u x a d hd hu rfl (hg d) hf]
  exact channel_adds _ _ _ h6 h7 h8

/-- A block of custodian 3's channel and a token of custodian 4: the command is approved by two, where the signatures hold. -/
theorem two_approve {c : Cmd} {key head : Bytes} {row : Cmd → Cmd} {s : State}
    (hh : head.length = 32) (h1 : (authParse (head ++ List.replicate 32 0)).tokens = 1)
    (hrow : row (twoSigned key head c s) = twoSigned key head c s)
    (hr : ∀ b k, reaches { c with auth := b, tokens := k } s = true)
    (hc : ∀ b k t, channelOk key { authParse (head ++ List.replicate 32 0) with tag := t }
      (atKeeper { c with auth := b, tokens := k } s).1 (atKeeper { c with auth := b, tokens := k } s).2 = true)
    (hu : ∀ b k t, canCount { authParse (head ++ List.replicate 32 0) with tag := t }
      (atKeeper { c with auth := b, tokens := k } s).1 (atKeeper { c with auth := b, tokens := k } s).2 = true)
    (hq : ∀ b k, let x := (atKeeper { c with auth := b, tokens := k } s).1
      x.desc.opcode ≠ 0x0016 ∧ x.desc.opcode ≠ 0x1015
        ∧ ∀ v, v.aut.policy = (atKeeper { c with auth := b, tokens := k } s).2.aut.policy → required v x ≤ 2)
    (hg : SignaturesHold) :
    ∃ c s x u v, reachesKeeper (row c) s x u ∧ approved x u v := by
  have w := two_witness_of hh h1 hrow hr hc
  have k : (pastChecks (atKeeper (twoSigned key head c s) s).1 (atKeeper (twoSigned key head c s) s).2).2 = [4, 3] :=
    both_count (a := { authParse (head ++ List.replicate 32 0) with
        tag := authTagOf key (authMessage (seen { c with
          tokens := tokenFor (sha3_256 (authMessage (seen c s) (authParse (head ++ List.replicate 32 0)))) } s)
          (authParse (head ++ List.replicate 32 0))) })
      (d := sha3_256 (authMessage (seen c s) (authParse (head ++ List.replicate 32 0))))
      h1 (parsed key head _ s hh) (hu _ _ _) (sha3_256_length _) (congrArg sha3_256 (message_of key head c s _ _))
      (first_token key head c s _ (sha3_256_length _)) hg
  have q := hq (twoSigned key head c s).auth (twoSigned key head c s).tokens
  refine ⟨_, s, _, _, _, w.1, approved_of w.2 q.1 q.2.1 ?_⟩
  rw [k]
  exact q.2.2 _ rfl

/-- The PF's channel, custodians 3 and 4 with every role, and traceable time. -/
def quorate : State :=
  { live with
    aut := { autReset with chanKey := [(0, chan0), (1027, chan0)], custodians := [(3, custodian0), (4, custodian0)] },
    sdl := { sdlReset with state := .locked } }

/-- ADMIN_RESET wants no custodian: the PF's channel is enough. -/
theorem test_meets_CriticalAdmin : ∃ c s x u v, reachesKeeper (rowSet 0x0012 0 c) s x u ∧ approved x u v ∧ v.boot.request = none := by
  have h := witness_of (c := critical (cmdOf 0x0012 0 0 0 [])) (key := chan0) (head := blockHead 0 0 0 0 1) (row := rowSet 0x0012 0)
    (s := governed) (by decide) (by decide) rfl (fun b => by with_unfolding_all rfl) (fun b t => by with_unfolding_all rfl)
  exact ⟨_, _, _, _, _, h.1, approved_of h.2 (by decide) (by decide) (Nat.le_of_ble_eq_true (by with_unfolding_all rfl)),
    by with_unfolding_all rfl⟩

set_option maxRecDepth 8000 in
/-- ADMIN_FW_ACTIVATE wants two. -/
theorem test_meets_CriticalAdmin_of_two (hg : SignaturesHold) :
    ∃ c s x u v, reachesKeeper (rowCmd 0x0011 c) s x u ∧ approved x u v := by
  refine two_approve (c := critical (cmdOf 0x0011 0 0 0 [])) (key := chan0) (head := blockHead 2 3 0 1 1) (row := rowCmd 0x0011)
    (s := quorate) (by decide) (by decide) rfl (fun b k => by with_unfolding_all rfl) (fun b k t => by with_unfolding_all rfl)
    (fun b k t => by with_unfolding_all rfl) (fun b k => ⟨Nat.ne_of_beq_eq_false (by with_unfolding_all rfl),
      Nat.ne_of_beq_eq_false (by with_unfolding_all rfl), fun v hv => ?_⟩) hg
  have h : v.aut.policy.entries = [] := by rw [hv]; with_unfolding_all rfl
  simp only [required, h, List.find?_nil]
  exact Nat.le_of_ble_eq_true (by with_unfolding_all rfl)


/-- KEY_DELETE wants no custodian for a key of one unit, KEY_COMPONENT waits for the console. -/
theorem test_meets_CriticalKeys :
    (∃ c s x u v, reachesKeeper (rowCmd 0x1013 c) s x u ∧ approved x u v ∧ v.prk.st = .alone)
    ∧ (∃ c s x u v l, reachesKeeper (rowCmd 0x1015 c) s x u ∧ checked x u v l ∧ 0 < required v x) := by
  have h := witness_of (c := critical (keyed (cmdOf 0x1013 0 0 0 []))) (key := chan0) (head := blockHead 0 0 0 0 1)
    (row := rowCmd 0x1013) (s := withObj 512 obj0 governed) (by decide) (by decide) rfl (fun b => by with_unfolding_all rfl)
    (fun b t => by cbv)
  have k := witness_of (c := critical (cmdOf 0x1015 2 64 0 [])) (key := chan0) (head := blockHead 0 0 1 0 1)
    (row := rowCmd 0x1015) (s := governed) (by decide) (by decide) rfl (fun b => by with_unfolding_all rfl)
    (fun b t => by cbv)
  exact ⟨⟨_, _, _, _, _, h.1, approved_of h.2 (by decide) (by decide) (Nat.le_of_ble_eq_true (by with_unfolding_all rfl)),
      by with_unfolding_all rfl⟩,
    ⟨_, _, _, _, _, _, k.1, checked_of k.2, Nat.le_of_ble_eq_true (by with_unfolding_all rfl)⟩⟩

/-- ADMIN_CUSTODIAN_ENROL reaches its checks. -/
theorem test_meets_enrol : ∃ c s x u v l, reachesKeeper (rowCmd 0x0016 c) s x u ∧ checked x u v l := by
  have k := witness_of (c := critical (cmdOf 0x0016 0 3296 0 [])) (key := chan0) (head := blockHead 0 0 1 0 1)
    (row := rowCmd 0x0016) (s := governed) (by decide) (by decide) rfl (fun b => by with_unfolding_all rfl)
    (fun b t => by with_unfolding_all rfl)
  exact ⟨_, _, _, _, _, _, k.1, checked_of k.2⟩

/-- TENANT_QUOTA_SET wants one custodian: custodian 3 on its own channel. -/
theorem test_meets_CriticalTenants : ∃ c s x u v, reachesKeeper (rowCmd 0x9014 c) s x u ∧ approved x u v := by
  have h := witness_of (c := critical (cmdOf 0x9014 0 32 0 [])) (key := chan0) (head := blockHead 2 3 0 0 1)
    (row := rowCmd 0x9014) (s := governed) (by decide) (by decide) rfl (fun b => by with_unfolding_all rfl)
    (fun b t => by cbv)
  exact ⟨_, _, _, _, _, h.1, approved_of h.2 (by decide) (by decide) (Nat.le_of_ble_eq_true (by with_unfolding_all rfl))⟩

def latch0 : TLatch := { cause := 1, source := 10, response := 4, onCell := false, hours := 0, cycles := 0 }
def quenchedState : State := { live with peat := { peatReset with latch := some latch0 } }

/-- In RAW the block is empty; in FIELD LIFE_DEBUG_CLOSE wants the PF's channel; LIFE_RECOMMISSION wants presence. -/
theorem test_meets_CriticalUnits :
    (∃ c s x u v, reachesKeeper (rowCmd 0xA010 c) s x u ∧ approved x u v ∧ transitionCert v.lcs.state 5 = some false)
    ∧ (∃ c s x u v, reachesKeeper (rowCmd 0xA012 c) s x u ∧ approved x u v ∧ v.dbg.isOpen = false)
    ∧ (∃ c s x u v, reachesKeeper (rowCmd 0xA014 c) s x u ∧ authCheck1 u x (authParse x.auth) = .ok () ∧ u.peat.latch.isSome = true
        ∧ 2 ≤ u.lcs.state ∧ u.lcs.state ≤ 4 ∧ v = { u with aut := { u.aut with check6 := now u } }) := by
  have h := witness_of (c := critical (cmdOf 0xA012 0 0 0 [])) (key := chan0) (head := blockHead 0 0 0 0 1)
    (row := rowCmd 0xA012) (s := governed) (by decide) (by decide) rfl (fun b => by with_unfolding_all rfl)
    (fun b t => by cbv)
  refine ⟨⟨withBlock (blockHead 0 0 0 0 0) (List.replicate 16 0) (critical (cmdOf 0xA010 0 16 0 [])),
      { live with lcs := { lcsReset with state := 0 } }, _, _, _, reachesKeeper_of (by decide),
      .inl ⟨by decide, ok_of_passes (by decide), rfl⟩, by decide⟩, ?_,
    ⟨withBlock (blockHead 0 0 1 0 0) (List.replicate 16 0) (critical (cmdOf 0xA014 0 0 0 [])), quenchedState, _, _, _,
      reachesKeeper_of (by decide), ok_of_passes (by decide), by decide, by decide, by decide, rfl⟩⟩
  exact ⟨_, _, _, _, _, h.1, approved_of h.2 (by decide) (by decide) (Nat.le_of_ble_eq_true (by with_unfolding_all rfl)),
    by with_unfolding_all rfl⟩


theorem check23_signed {c : Cmd} {s : State} {key head : Bytes} (hh : head.length = 32)
    (h3 : channelPermitted (atKeeper (signedBlock key head c s) s).1.fn (authParse (atKeeper (signedBlock key head c s) s).1.auth) = true)
    (h4 : chanKeyOf (atKeeper (signedBlock key head c s) s).2 (channelIx (authParse (atKeeper (signedBlock key head c s) s).1.auth))
      = some key)
    (h5 : (authParse (atKeeper (signedBlock key head c s) s).1.auth).unit = unitByte (atKeeper (signedBlock key head c s) s).2) :
    authCheck23 (atKeeper (signedBlock key head c s) s).2 (atKeeper (signedBlock key head c s) s).1
      (authParse (atKeeper (signedBlock key head c s) s).1.auth) = .ok () := by
  have ht := signed_tag key head c s hh
  have e : (atKeeper (signedBlock key head c s) s).1 = seen (signedBlock key head c s) s := rfl
  have ea : (seen (signedBlock key head c s) s).auth = (signedBlock key head c s).auth := by
    simp only [seen, normCmd, signedBlock, withBlock]
    split <;> rfl
  simp only [authCheck23, h3, h4, h5]
  rw [e, ea, ← ht]
  simp [failIf]

def errOf (r : Res Unit) : Option (Nat × Nat) := match r with
  | .ok _ => none
  | .error e => some e

theorem error_of {r : Res Unit} {e : Nat × Nat} (h : errOf r = some e) : r = .error e := by
  cases r with
  | ok u => cases h
  | error x => cases h; rfl

/-- The counter of the PF's channel stands at 1. -/
def replayState : State := setCounter governed 0 1

/-- The failures of steps 1 to 5: an unknown version; a channel without a key; a counter used before; a token that is none;
no custodian where two are wanted, at once and at the console. -/
theorem test_meets_AuthorityDecides :
    (∃ c s x u e, cmdRow (.adminFwActivate c) = some (rowCmd 0x0011 c) ∧ reachesKeeper (rowCmd 0x0011 c) s x u
      ∧ authCheck1 u x (authParse x.auth) = .error e)
    ∧ (∃ c s x u e, reachesKeeper (rowCmd 0x0011 c) s x u ∧ authForm u x.desc.opcode = .normal
      ∧ authCheck1 u x (authParse x.auth) = .ok () ∧ authCheck23 u x (authParse x.auth) = .error e)
    ∧ (∃ c s x u v l, reachesKeeper (rowCmd 0x0011 c) s x u ∧ checked x u v l ∧ l.length < required v x
      ∧ x.desc.opcode ≠ 0x0016 ∧ x.desc.opcode ≠ 0x1015 ∧ (authParse x.auth).mode = 0) := by
  have h := witness_of (c := critical (cmdOf 0x0011 0 0 0 [])) (key := chan0) (head := blockHead 0 0 0 0 1) (row := rowCmd 0x0011)
    (s := governed) (by decide) (by decide) rfl (fun b => by with_unfolding_all rfl) (fun b t => by cbv)
  refine ⟨⟨withBlock (List.replicate 32 0) [] (critical (cmdOf 0x0011 0 0 0 [])), governed, _, _, (0x0101, 0x0105), rfl,
      reachesKeeper_of (by decide), error_of (by decide)⟩,
    ⟨withBlock (blockHead 0 0 0 0 1) (List.replicate 16 0) (critical (cmdOf 0x0011 0 0 0 [])), live, _, _, (0x0301, 0x0101),
      reachesKeeper_of (by decide), by decide, ok_of_passes (by decide), error_of (by decide)⟩,
    ⟨_, _, _, _, _, _, h.1, checked_of h.2, Nat.le_of_ble_eq_true (by with_unfolding_all rfl), ?_, ?_, ?_⟩⟩
  · exact Nat.ne_of_beq_eq_false (by with_unfolding_all rfl)
  · exact Nat.ne_of_beq_eq_false (by with_unfolding_all rfl)
  · rw [parsed _ _ _ _ (by decide)]
    rfl

/-- Steps 1 to 3 pass and the counter has been used before; a token is missing. -/
theorem test_meets_counter_and_token :
    (∃ c s x u e, reachesKeeper (rowCmd 0x0011 c) s x u ∧ authForm u x.desc.opcode = .normal
      ∧ authCheck1 u x (authParse x.auth) = .ok () ∧ authCheck23 u x (authParse x.auth) = .ok ()
      ∧ authCheck4 u (authParse x.auth) = .error e)
    ∧ (∃ c s x u, reachesKeeper (rowCmd 0x0011 c) s x u ∧ authForm u x.desc.opcode = .normal
      ∧ authCheck1 u x (authParse x.auth) = .ok () ∧ authCheck23 u x (authParse x.auth) = .ok ()
      ∧ authCheck4 u (authParse x.auth) = .ok ()
      ∧ ∃ k, k < (authParse x.auth).tokens ∧ tokenForm (tokenAt x k) = false) := by
  have reach : ∀ {c : Cmd} {s : State}, rowCmd 0x0011 c = c → reaches c s = true →
      reachesKeeper (rowCmd 0x0011 c) s (atKeeper c s).1 (atKeeper c s).2 := fun {c s} h hr => by rw [h]; exact reachesKeeper_of hr
  have p1 := parsed chan0 (blockHead 0 0 0 0 1) (critical (cmdOf 0x0011 0 0 0 [])) replayState (by decide)
  have p2 := parsed chan0 (blockHead 0 0 0 1 1) (critical (cmdOf 0x0011 0 0 0 [])) governed (by decide)
  have c1 := check23_signed (c := critical (cmdOf 0x0011 0 0 0 [])) (s := replayState) (key := chan0) (head := blockHead 0 0 0 0 1)
    (by decide) (by rw [p1]; with_unfolding_all rfl) (by rw [p1]; with_unfolding_all rfl) (by rw [p1]; with_unfolding_all rfl)
  have c2 := check23_signed (c := critical (cmdOf 0x0011 0 0 0 [])) (s := governed) (key := chan0) (head := blockHead 0 0 0 1 1)
    (by decide) (by rw [p2]; with_unfolding_all rfl) (by rw [p2]; with_unfolding_all rfl) (by rw [p2]; with_unfolding_all rfl)
  refine ⟨⟨_, _, _, _, (0x0302, 0x0103), reach rfl (by with_unfolding_all rfl), by with_unfolding_all rfl, ok_of_passes ?_, c1,
    error_of ?_⟩, ⟨_, _, _, _, reach rfl (by with_unfolding_all rfl), by with_unfolding_all rfl, ok_of_passes ?_, c2,
    ok_of_passes ?_, 0, ?_, by with_unfolding_all rfl⟩⟩
  · rw [p1]; with_unfolding_all rfl
  · rw [p1]; with_unfolding_all rfl
  · rw [p2]; with_unfolding_all rfl
  · rw [p2]; with_unfolding_all rfl
  · rw [p2]; decide

def waitFor (op : Nat) (presence : Bool) : Wait :=
  { wait0 with
    cmd := { cmd0 with desc := { desc0 with opcode := op } }, counted := [4], presence := presence }
def approving (w : Wait) (st : CardStep) : State :=
  { quorate with
    aut := { quorate.aut with wait := some w, card0 := cardAt st }, peat := { peatReset with latch := some latch0 } }

/-- Custodian 3 approves at the console after custodian 4; presence is shown by a first card and by a second; the last key of
an enrolment arrives. -/
theorem test_meets_card_responses :
    (let s := approving (waitFor 0x0011 false) .approve
     (getCard s 0).step = .approve ∧ (getCard s 0).ident = some (3, List.replicate 97 1)
      ∧ kfind s.aut.custodians 3 = some custodian0 ∧ approvalCounts s (waitFor 0x0011 false).cmd 3 = true
      ∧ (waitFor 0x0011 false).required ≤ (addOnce (waitFor 0x0011 false).counted 3).length ∧ s.aut.mailbox = [] ∧ s.aut.busy = none
      ∧ s.aut.startCmd = none ∧ toHost s (waitFor 0x0011 false).cmd = true)
    ∧ (let s := approving (waitFor 0xA014 true) .approve
       s.aut.wait = some (waitFor 0xA014 true) ∧ (waitFor 0xA014 true).present = [] ∧ (getCard s 1).present = false
        ∧ s.peat.latch = some latch0 ∧ serving s = true ∧ tamperActive s = false ∧ s.peat.recom < 64) := by decide

def enrol0 : Cmd := { cmd0 with desc := { desc0 with opcode := 0x0016 }, input := List.replicate 3296 0 }

set_option maxRecDepth 40000 in
theorem test_meets_install : enrolCheck quorate enrol0 = .ok () := by
  have l : enrol0.input.length = 3296 := List.length_replicate
  refine ok_of_passes ?_
  unfold enrolCheck custodianForm
  rw [l]
  decide

/-! The gate, the queue, the machine as a whole -/

def nop0 : Cmd := cmdOf 0x0003 0 0 0 []
def fenceNop : Cmd := { nop0 with desc := { nop0.desc with flags := 4 } }

theorem test_meets_CommandsAtTheGate :
    cmdRow (.adminNop nop0) = some (rowCmd 0x0003 nop0) ∧ mayFetch State.reset 0 = false ∧ mayFetch live 0 = true
      ∧ (holding .rng live).gth.held.any (fun h => h.cmd.fn == nop0.fn && h.cmd.queue == nop0.queue) = true
      ∧ atGate nop0 live = true ∧ gateOpen nop0 live = true
      ∧ fenced fenceNop { live with gth := { live.gth with qp := [(0, { qpLive with inFlight := 1 })] } } = true
      ∧ errOf (check1 live (seen (cmdOf 0x0003 1 0 0 []) live)) = some (0x0101, 0x002A)
      ∧ errOf (check2 live (seen (cmdOf 0xB001 0 15 64 []) live)) = some (0x0102, 0)
      ∧ gateOpen nop0 { live with boot := { live.boot with phase := .halted } } = true
      ∧ gateOpen nop0 { live with boot := { live.boot with phase := .shut } } = true
      ∧ gateOpen nop0 { live with boot := { live.boot with phase := .firmware } } = true
      ∧ (opRow 0x0001).isSome = true ∧ opRow 0x0FFF = none ∧ (opRow 0x0010).map (fun r => r.pfOnly) = some true
      ∧ ready { cmdOf 0xC002 0 16 0 [] with dma := .payloadFails } live = true := by decide

/-- R88: an opcode of no row completes PARAM, opcode unknown; a row's own opcode is not of this command. -/
theorem test_unknown :
    lands (exec (.unknownOpcode (cmdOf 0x0FFF 0 0 0 [])) live)
      (fun t => t.out.head? == some (.completion 0 0
        { tag := 7, status := 0x0101, detail := 0x0020, written := 0, time := 0, pair := 0, unit := 0xFF })) = true
    ∧ lands (exec (.unknownOpcode (cmdOf 0x0001 0 0 0 [])) live) (fun t => t == live) = true := by decide

theorem test_meets_CriticalPayloadLimit :
    (let c := critical (cmdOf 0x0010 0 (2 ^ 21 + 1) 0 [])
     isCritical c.desc.opcode = true ∧ gateOpen (rowCmd 0x0010 c) live = true ∧ 2 ^ 21 < c.desc.inLen)
    ∧ (let c := critical (cmdOf 0x0010 0 (2 ^ 21) 0 [])
       isCritical c.desc.opcode = true ∧ gateOpen (rowCmd 0x0010 c) live = true ∧ c.desc.inLen + c.desc.auxLen ≤ 2 ^ 21) := by decide

/-- A checked command, and one of two failures past check 4 (`test_meets_AuthorityDecides` shows the other). -/
theorem test_meets_CounterIsConsumed : ∃ x u v l, checked x u v l ∧ l.length < required v x := by
  obtain ⟨_, _, _, _, _, _, _, _, _, h, q, _⟩ := test_meets_AuthorityDecides
  exact ⟨_, _, _, _, h, q⟩

theorem test_meets_UnboundVfIsDenied :
    (getVf live 1023).st = .unbound ∧ hostReach live = true ∧ (getQp live (qpIx 1023 3)).enable = false
      ∧ isVf 1023 = true ∧ live.lcs.state ≠ 5 ∧ quenched live = false
      ∧ gateOpen { nop0 with fn := 1023, queue := 3 } live = true := by decide

theorem test_meets_RecordsAndCounters :
    mergesInto rec1 0x0801 0 1 none [] = true ∧ mergesInto rec1 0x0801 0 2 none [] = false
      ∧ unflushed { live with evt := { evtReset with ring := [rec1] } } < 4096
      ∧ pmcGet { live with pmc := { live.pmc with count := [(5, 2 ^ 48 - 1)] } } 5 + 1 = 2 ^ 48 := by decide

/-- R456: the counter wraps at 2^48. -/
theorem test_counter_wraps :
    let t := pmcAdd { live with pmc := { live.pmc with count := [(5, 2 ^ 48 - 1)] } } 5 1
    pmcGet t 5 = 0 ∧ t.pmc.intStatus.testBit 0 = true := by decide
/-- R465: an equal event merges, another is written behind it. -/
theorem test_event_merges :
    let s := { live with evt := { evtReset with ring := [rec1] } }
    (record s 0x0801 0 1 none []).evt.ring.map (fun r => r.repeats) = [2]
      ∧ (record s 0x0801 0 2 none []).evt.ring.map (fun r => r.repeats) = [1, 1] := by decide

set_option maxRecDepth 20000 in
/-- The step takes the command in front; on an empty queue a tick passes. -/
theorem test_meets_StepTakesTheFront :
    (let s := { live with pending := [.adminNop nop0, .watchdog] }
     s.pending = [.adminNop nop0, .watchdog]
      ∧ lands (step s) (fun t => t.pending == [.watchdog] && t.out.length == 1) = true)
    ∧ live.pending = [] ∧ nothingDue live = true
    ∧ lands (step live) (fun t => t.tick == 101) = true := by decide
theorem test_meets_QueueStaysInOrder :
    queueWf { live with pending := [.adminNop nop0, .watchdog] } = true := by decide
theorem test_two_steps :
    (stepsTo 2 { live with pending := [.adminNop nop0, .watchdog] }).map (fun t => t.pending) = some [] := by decide

/-! Operands out of range are refused -/

theorem test_wf_desc :
    desc0.wf = true ∧ { desc0 with opcode := 2 ^ 16 }.wf = false ∧ { desc0 with flags := 256 }.wf = false
      ∧ { desc0 with cls := 256 }.wf = false ∧ { desc0 with tag := 2 ^ 32 }.wf = false ∧ { desc0 with keyA := 2 ^ 32 }.wf = false
      ∧ { desc0 with keyB := 2 ^ 32 }.wf = false ∧ { desc0 with select := 2 ^ 32 }.wf = false
      ∧ { desc0 with inLen := 2 ^ 32 }.wf = false ∧ { desc0 with outLen := 2 ^ 32 }.wf = false
      ∧ { desc0 with auxLen := 2 ^ 32 }.wf = false ∧ { desc0 with inAddr := 2 ^ 64 }.wf = false
      ∧ { desc0 with outAddr := 2 ^ 64 }.wf = false ∧ { desc0 with auxAddr := 2 ^ 64 }.wf = false
      ∧ { desc0 with authAddr := 2 ^ 64 }.wf = false := by decide
theorem test_wf_cmd :
    cmd0.wf = true ∧ { cmd0 with fn := 1024 }.wf = false ∧ { cmd0 with queue := 16 }.wf = false
      ∧ { cmd0 with fn := 1, queue := 4 }.wf = false ∧ { cmd0 with desc := { desc0 with cls := 256 } }.wf = false
      ∧ { cmd0 with inSgl := [{ addr := 2 ^ 64, len := 0, ctrl := 0, reserved := 0 }] }.wf = false
      ∧ { cmd0 with outSgl := [{ addr := 0, len := 2 ^ 32, ctrl := 0, reserved := 0 }] }.wf = false
      ∧ { cmd0 with inSgl := [{ addr := 0, len := 0, ctrl := 2 ^ 8, reserved := 0 }] }.wf = false
      ∧ { cmd0 with inSgl := [{ addr := 0, len := 0, ctrl := 0, reserved := 2 ^ 24 }] }.wf = false
      ∧ { cmd0 with auth := List.replicate 65 0 }.wf = false ∧ (Instr.adminNop { cmd0 with fn := 1024 }).wf = false := by decide

/-- A frame of 31 bytes, and of 1,569; a field over its width in each row that has one. -/
theorem test_wf_frame :
    { fr 0x10 5 1 0x3F 0 with bytes := List.replicate 31 0 }.wf = false
      ∧ (Instr.hello (fr 0x01 5 1 0x3F 0) [] 8 [] []).wf = false ∧ (Instr.walkFail (fr 0x03 4 1 0 0) 256).wf = false
      ∧ (Instr.keyDeliver (fr 0x05 4 1 0 0) (2 ^ 32) [] [] [] [] []).wf = false
      ∧ (Instr.keyAck (fr 0x06 4 1 0 0) (2 ^ 32) []).wf = false ∧ (Instr.keyCommit (fr 0x07 5 1 0x3F 0) 0 (2 ^ 64) 0).wf = false
      ∧ (Instr.heartbeat (fr 0x10 5 1 0x3F 0) [] (2 ^ 64)).wf = false ∧ (Instr.ack (fr 0x12 4 1 0 0) (2 ^ 64)).wf = false
      ∧ (Instr.prepare (fr 0x20 4 1 0 0) 64 0 0 0 (.delete 1)).wf = false
      ∧ (Instr.vote (fr 0x21 4 1 0 0) 0 0 0 true (2 ^ 16) 0 []).wf = false ∧ (Instr.commit (fr 0x22 4 1 0 0) 0 (2 ^ 64) []).wf = false
      ∧ (Instr.committed (fr 0x23 4 1 0 0) 64 0).wf = false ∧ (Instr.complete (fr 0x24 4 1 0 0) 0 0 (2 ^ 64) 0).wf = false
      ∧ (Instr.abort (fr 0x25 4 1 0 0) 64 0).wf = false ∧ (Instr.spreadItems (fr 0x30 4 1 0 0) 0 ⟨4096, 0⟩ desc0 []).wf = false
      ∧ (Instr.spreadResult (fr 0x31 4 1 0 0) 0 none 0 0 (2 ^ 32) []).wf = false
      ∧ (Instr.resyncReq (fr 0x40 4 1 0 0) [] [] [] (2 ^ 32)).wf = false := by decide
theorem test_wf_other :
    (Instr.intStatusW1c 0 (2 ^ 18) 0).wf = false ∧ (Instr.latchRead .pf 0 ⟨.regs, 0⟩ 3).wf = false
      ∧ (Instr.registerWrite .pf 0 ⟨.regs, 2 ^ 18⟩ 4 0).wf = false ∧ (Instr.registerWrite .pf 0 ⟨.regs, 0⟩ 4 0).wf = true
      ∧ (Instr.cellFail (2 ^ 13)).wf = false ∧ (Instr.pwrGoodFall true (2 ^ 13)).wf = false
      ∧ (Instr.cellLow (2 ^ 13)).wf = false ∧ (Instr.appletReturn 5 (2 ^ 16) []).wf = false
      ∧ (Instr.gateSubmit 5 { cmd0 with fn := 1024 } true).wf = false ∧ (Instr.mpuDenial 0 0 (2 ^ 32) ⟨.read, none⟩).wf = false
      ∧ (Instr.debugAccess 0 (2 ^ 32) .read 0 none).wf = false ∧ (Instr.userCodeCompact (2 ^ 32) true).wf = false := by decide
set_option maxRecDepth 20000 in
theorem test_wf_long :
    { fr 0x10 5 1 0x3F 0 with bytes := List.replicate 1569 0 }.wf = false ∧ (Instr.pin (List.replicate 1035 0)).wf = false
      ∧ (Instr.pin (List.replicate 1034 0)).wf = true := by decide

/-! The conditions of further clauses, one conjunct each -/

/-- A pending gate, idle units, a set status newly enabled, MSI-X enabled, disabled and pending, a completion of this tick. -/
def msixLive : State := { live with gth := { live.gth with
  pci := { pciReset with msixCtl := [(0, 2)] }, msix := [(2, { msixReset with masked := true }), (3, { msixReset with masked := false })] } }
def tailLive (m : Option Nat) : State := { msixLive with gth := { msixLive.gth with
  qp := [(0, { qpLive with tailDue := true, msiDue := true, msiTick := m, vector := 3 })] } }
theorem test_meets_register_clauses :
    { live with pwr := { live.pwr with pendingGate := [(19, 9)] } }.pwr.pendingGate = [(19, 9)]
      ∧ (2 ^ 18 : Nat).testBit 19 = false ∧ live.pwr.pendingGate = []
      ∧ (getEng live 271).st = .idle ∧ (getBne live 31).st = .idle ∧ (getEng (place (engAt q0 0)) 0).st ≠ .idle
      ∧ (let s := { live with kst := { live.kst with intStatus := 4, intEnable := 0 } }
         s.kst.intStatus &&& intMask 5 4 ≠ s.kst.intStatus &&& intMask 5 4 &&& s.kst.intEnable
          ∧ s.kst.intStatus &&& intMask 5 2 = s.kst.intStatus &&& intMask 5 2 &&& s.kst.intEnable)
      ∧ msixOpen msixLive 0 3 = true ∧ msixOpen msixLive 0 2 = false ∧ (msixCtl msixLive 0).testBit 1 = true
      ∧ (msixCtl live 0).testBit 1 = false ∧ ideBlocked (tailLive none) = false
      ∧ (tailLive none).gth.qp = [(0, getQp (tailLive none) 0)] ∧ (getQp (tailLive none) 0).msiTick ≠ some (tailLive none).tick
      ∧ (getQp (tailLive (some 100)) 0).msiTick = some (tailLive (some 100)).tick
      ∧ (getQp live 0).tailDue = false ∧ (getQp live 0).msiDue = false ∧ live.gth.qp = [(0, getQp live 0)]
      ∧ regionLocked (getRegion live 0 0) = false ∧ live.mpu.committing = false ∧ regionForm [] = false := by decide

/-- R69: the tail record goes before the message, which leaves once in a tick. -/
theorem test_flush_order :
    (flushTick (tailLive none)).out = [.tailRecord 0 0 0 0, .msix 0 3]
      ∧ (flushTick (tailLive (some 100))).out = [.tailRecord 0 0 0 0] := by decide

/-- A verification whose pair does not fit, a late job, a ladder past its last step, a job of an engine in flight. -/
theorem test_meets_release_clauses :
    (let j := { jobDone with cmd := { cmd0 with desc := { desc0 with opcode := 0x3005 } } }
     pairBad 0x3005 j.status j.pair = true ∧ (dueJobs (withJob j live) (fun _ => true)).map (·.1) = [1]
      ∧ dueEntries (withJob j live) = [] ∧ (withJob j live).ldg.parts = [] ∧ j.late = false)
    ∧ (dueJobs (withJob { jobDone with late := true } live) (fun _ => true)).map (·.1) = [1]
    ∧ pairBad jobDone.cmd.desc.opcode jobDone.status jobDone.pair = false
    ∧ (let s := withJob job0 { live with sdl := { sdlReset with grid := 400 } }
       s.gth.jobs.filter (fun e => jobOpen e.2 && !e.2.ladder && decide (jobLimit e.2 ≤ now s)) = [(1, job0)])
    ∧ (let j := { job0 with ladder := true, rel := .ladder, steps := 4 }
       let s := withJob j { live with sdl := { sdlReset with grid := 2 ^ 20 } }
       s.gth.jobs.filter (fun e => jobOpen e.2 && e.2.ladder && decide (jobLimit e.2 ≤ now s)) = [(1, j)])
    ∧ jobOpen job0 = true ∧ job0.phase = .running ∧ job0.part = some 0 ∧ isPool job0 = false ∧ jobOpen jobQueued = true := by decide

/-- A serving VF with one queued job; its read abandoned after 944 ticks; sessions and streams of the link. -/
def vfCmd : Cmd := { cmd0 with fn := 1023 }
def flrLive : State := { withJob { jobQueued with cmd := vfCmd } live with ten := { tenReset with vf := [(1023, vfServing)] } }
set_option maxRecDepth 8000 in
theorem test_meets_link_clauses :
    (getVf flrLive 1023).st = .serving ∧ (getVf flrLive 1023).flrBusy = false ∧ flrLive.gth.held = [] ∧ keeperFree flrLive = true
      ∧ flrLive.rng.ports = [] ∧ flrLive.prk.shares = []
      ∧ (let s := { withJob { job0 with cmd := vfCmd } live with
          tick := 944, ten := { tenReset with vf := [(1023, { vfServing with flrBusy := true })] } }
         (getVf s 1023).flrTick + 944 ≤ s.tick
          ∧ (s.gth.jobs.filter (fun e => jobOpen e.2 && e.2.cmd.fn == 1023)).map (·.1) = [1])
      ∧ liveVfs live = [] ∧ State.reset.gth.linkUp = false ∧ live.gth.spdm = 0
      ∧ (let s := { live with gth := { live.gth with spdm := 4 } }
         s.gth.spdm ≤ 4 ∧ (settle (ideRelease { s with gth := { s.gth with ideSecure := true } })).gth.held.all (fun h => h.why != .ide) = true)
      ∧ (let s := { live with gth := { live.gth with ideHeld := [.completion 0 0
            { tag := 7, status := 0, detail := 0, written := 0, time := 0, pair := 0, unit := 0xFF }] } }
         s.gth.ideHeld.length = 1 ∧ (ideRelease s).out.length = 1) := by decide

/-- R62: one key exchange opens a session, a fifth does not; a message of a session without one is answered with an error. -/
theorem test_doe_sessions :
    lands (exec (.doeObject 65536 false (.keyExchange [])) live) (fun t => t.gth.spdm == 1 && t.out.length == 1) = true
    ∧ lands (exec (.doeObject 65536 false (.keyExchange [])) { live with gth := { live.gth with spdm := 4 } }) (fun t => t.gth.spdm == 4) = true
    ∧ lands (exec (.doeObject 64 true .endSession) live) (fun t => t.out == [.port .doe [0x7F]]) = true := by decide

def keyedJob : Job := { jobQueued with attrA := some attr0 }
def suspended : State := { live with dbg := { dbgReset with isOpen := true, rights := 0xFFF, suspending := true } }

/-- Slots of the schedulers, a job that waits while keys are suspended, cores of a pavilion, deliveries, seeds that run out. -/
theorem test_meets_engine_clauses :
    (suspendDetail suspended).isSome = true ∧ jobKeyed keyedJob = true ∧ (nextJob (withJob keyedJob suspended) 0).map (·.1) = some 1
      ∧ (let s := { withJob jobQueued live with pwr := { live.pwr with duty := 0 } }
         dutyNow s ≤ (getPav s 0).issued ∧ freeEngine s 0 = some 0)
      ∧ (getEng { withJob job0 live with eng := [(0, { engIdle true false 0 with st := .loading, job := some 1 })] } 0).job = some 1
      ∧ coreFor (place { engAt q0 0 with want := .keccak }) 0 .keccak = some 0
      ∧ (∀ c, (getEng (place { engAt q0 0 with want := .keccak }) 0).grant = some c → c.fresh = false)
      ∧ coreFor (place { engAt q0 0 with want := .sha2 }) 0 .sha2 = some 4
      ∧ coreFor { place { engAt q0 0 with want := .sha2 } with rep := { repReset with shas := [0, 1] } } 0 .sha2 = none
      ∧ (let s := withObj 512 obj0 (place { engAt q0 0 with keyA := { port0 with valid := false } })
         (getEng s 0).keyA.requested = true ∧ (kfind s.kst.objs 512).map (fun o => o.st) = some .active)
      ∧ (getEng { live with eng := [(0, { engIdle true false 0 with st := .clearing })] } 0).st = .clearing
      ∧ (getEng { live with eng := [(0, { engIdle true false 0 with st := .scrubbing })] } 0).quarAfter = false
      ∧ (getEng live 0).fnt.seeded = false ∧ (getEng live 0).st ≠ .absent ∧ instStalled live 3 = false
      ∧ (2 ^ 20 - 256 : Nat) ≤ 2 ^ 20 - 256 ∧ kilnReleasing { live with rng := { rngReset with st := .failed } } = false := by decide

def pieceJob : Job := { jobQueued with kind := .cipher, piecesAll := 2 }
def between : Job := { pieceJob with phase := .running, pieces := 1 }
def onBne : Job := { job0 with kind := .pool false, crit := true }
def bneBusy : Bne := { bneReset with eng := [(0, { (getBne live 0) with st := .busy, job := some 1 })] }

/-- A piece that starts, one that goes on with its context or finds it broken, one that waits for masks; jobs of the pool. -/
theorem test_meets_piece_clauses :
    (nextPiece (withJob pieceJob live) 0).map (·.1) = some 1 ∧ (nextPiece (withJob between live) 0).map (·.1) = some 1
      ∧ (restoreContext (withJob between live) 1 between).2 = true
      ∧ (let s := { withJob between live with dgs := { dgsReset with
          store := [(ctxSlot 1 between, { wrapped := false, nonce := [], body := [1], tag := [] })] } }
         (restoreContext s 1 between).2 = true)
      ∧ pieceStarved (withJob pieceJob live) 0 pieceJob = false ∧ pieceDry (withJob pieceJob live) 0 pieceJob = false
      ∧ pieceCore pieceJob = .none ∧ pieceMasked { keyedJob with profile := 1 } = true ∧ kilnStopped live = false
      ∧ (getEng live 0).fnt.stopped = false ∧ buildsNonce pieceJob.cmd = false
      ∧ (let s := withJob jobCipher { live with eng := [(0, engAt q0 0)] }
         (getEng s 0).want = .none ∧ clearSave s 0 { jobCipher with pieces := 1, part := none } = true ∧ genReady s = true)
      ∧ savesKey { jobCipher with crit := true } = false
      ∧ poolBlinds onBne = true ∧ instStalled live 4 = false
      ∧ feedHeld { live with rng := { live.rng with inst := [(4, { instReset with seeded := true, stalled := true })] } } 4 = true
      ∧ (let s := { withJob onBne live with bne := bneBusy }
         (getBne s 0).st = .busy ∧ (getBne s 0).job = some 1 ∧ isPool onBne = true ∧ onBne.part = some 0 ∧ onBne.part2 = none)
      ∧ isDual { onBne with kind := .pool true } = true ∧ noWork live = true := by decide

/-- Edges: of UNTRACEABLE, outside the window, of a missed one, unqualified, and offsets at each bound; the changes of state. -/
theorem test_meets_sundial_clauses :
    live.sdl.ppsPol = false ∧ live.sdl.state = .untraceable
      ∧ edgeInWindow (sunAt { sdlLocked with nextEdge := 12 * 2 ^ 20 }) = false
      ∧ ({ sdlLocked with nextEdge := 12 * 2 ^ 20 }.missedLast && decide (edgeClock (sunAt sdlLocked) + 2 ^ 19 < 12 * 2 ^ 20)) = false
      ∧ frameQualifies { sdlLocked with frameIn := false } = false
      ∧ (let d := sdlAcquire (11 * 2 ^ 20 - 1)
         d.slewing = false ∧ d.halfRate = false ∧ 3 ≤ d.qualCount ∧ d.sched = []
          ∧ ((d.lastSeconds : Int) * 2 ^ 20 - d.grid).natAbs ≤ 1)
      ∧ (sunAt { sdlLocked with nextEdge := 11 * 2 ^ 20 - 40000 }).sdl.nextEdge + edgeWindow sdlLocked
          < edgeClock (sunAt { sdlLocked with nextEdge := 11 * 2 ^ 20 - 40000 })
      ∧ sdlLocked.strayed = false ∧ { sdlLocked with strayed := true }.strayed = true
      ∧ (sunAt sdlLocked).sdl.lastFrameTick + 3 * 2 ^ 20 ≤ 3 * 2 ^ 20
      ∧ (sunAt (sdlAcquire 0)).sdl.acqSince + 2 * 2 ^ 20 ≤ 2 * 2 ^ 20
      ∧ ({ sdlAcquire 0 with slewing := true, offset := -1 }.offset.natAbs ≤ 1)
      ∧ (let d := { sdlLocked with state := .holdover, holdoverStart := 0, grid := 3600 * 2 ^ 20 }
         d.limitS ≤ holdSeconds d ∧ d.limitS * 2 ^ 20 * 9 ≤ (d.grid - d.holdoverStart) * 10)
      ∧ (sunAt { sdlLocked with grid := 524288, txSecond := 0 }).sdl.todTxEn = true
      ∧ (let s := sunAt { sdlLocked with sched := [{ entry0 with action := 4, target := 0x01000200, param := 2 }] }
         (dueEntries s).length = 1 ∧ (2 : Nat) ≤ topProfile attr0.alg)
      ∧ frameOk [] = false := by decide

set_option maxRecDepth 8000 in
/-- A window of 1,024 equal bits fails, the exclusion of the last but two stops the kiln; blocks at the start; reads at its ports. -/
theorem test_meets_kiln_clauses :
    windowTest (List.replicate 1024 false) 0 0 ≠ 0
      ∧ ((List.range 8).filter (fun k => k != 0 && srcPassing { live with rng := { live.rng with
          srcs := (List.range 6).map (fun k => (k + 1, { getSrc live (k + 1) with st := .excluded })) } } k)).length < 2
      ∧ (let s := { live with rng := { rngReset with st := .warming, blocks := List.replicate 15 0 } }
         15 ≤ s.rng.blocks.length ∧ 2 ≤ passingCount s ∧ noneDue s = true ∧ kilnAlone s = true)
      ∧ (let s := { live with
           tick := 65472, rng := { live.rng with inst := [(0, { instReset with seeded := true })], blocks := [0, 0] } }
         reseedDueNow s 0 = true ∧ nearerExists s 0 = false ∧ 2 ≤ s.rng.blocks.length ∧ kilnAlone s = true)
      ∧ (let s := { live with rng := { live.rng with inst := [(1, { instReset with seeded := true })] } }
         genReady s = true ∧ s.rng.emberTick + 2 ^ 26 ≤ 2 ^ 26)
      ∧ (let r : PortRead := { cmd := cmdOf 0x6001 0 0 1 [], since := 0 }
         r.cmd.desc.select.testBit 0 = false ∧ r.cmd.desc.outLen * 2 ^ 20 ≤ (1 - r.since) * 1000000000
          ∧ toHost live r.cmd = true ∧ instStalled live 0 = false)
      ∧ (let r : RawRead := { cmd := cmdOf 0x6002 0 0 1 [], bits := List.replicate 8 false, source := 0, conditioned := false }
         8 * r.cmd.desc.outLen ≤ r.bits.length) := by decide

/-- The scrubber at the system area, and deferred. -/
theorem test_meets_store_clauses :
    (let s := { withObj 512 obj0 live with tick := 2 ^ 24 }
     s.kst.scrubEn = true ∧ scrubDefers s = false ∧ s.kst.scrubPos < 256 ∧ s.boot.request = none ∧ s.boot.start = none) := by decide

/-- Windows that fill and do not, the levels, the ends of throttling and of a quench, the cell, the meters, the setpoint. -/
theorem test_meets_tamper_clauses :
    detects meshed 10 1 = true ∧ detects meshed 10 0 = false ∧ meshed.tmp.quench = none
      ∧ ((getCnt meshed 8).recent.filter (fun t => decide (meshed.tick < t + (getSrcCfg meshed 8).w)) ++ [meshed.tick]).length
          < (getSrcCfg meshed 8).n
      ∧ (let s := { meshed with tmp := { meshed.tmp with cfg := [(10, { getSrcCfg live 10 with resp := 3 })] } }
         (getSrcCfg s 10).resp = 3 ∧ (getSrcCfg s 10).n = 1 ∧ s.tmp.level < 3 ∧ s.gth.jobs = [])
      ∧ (let s := { meshed with tmp := { meshed.tmp with cfg := [(10, { getSrcCfg live 10 with resp := 1 })] } }
         (getSrcCfg s 10).resp = 1)
      ∧ (let s := { live with tmp := { live.tmp with throttling := [8], level := 2 } }
         8 ∈ s.tmp.throttling ∧ s.tmp.throttling.filter (fun y => y != 8) = [])
      ∧ (let s := { live with tmp := { live.tmp with throttling := [8, 9], level := 2 } }
         s.tmp.throttling.filter (fun y => y != 8) = [9])
      ∧ (let s := { meshed with peat := { peatReset with main := false } }
         s.peat.latch = none ∧ cellFails s 10 1 = true ∧ cellFails s 10 0 = false ∧ (getSrcCfg s 10).n ≤ 1
          ∧ cellWatched s 8 = true ∧ cellFails s 8 1000 = true ∧ (getSrcCfg s 8).cellQuench = false ∧ s.peat.cellLog.length < 16
          ∧ 1 < (getSrcCfg s 8).n ∧ serving s = true)
      ∧ (let s := measured 110001
         s.pwr.windowTick + 64 = s.tick ∧ 1000 * s.pwr.capW < powerEstimate s)
      ∧ (live.gth.jobs = [] ∧ live.bne.eng = [] ∧ demandNow live = 28500 * 256)
      ∧ live.pwr.vcore = live.pwr.vcoreWant ∧ State.reset.boot.phase ≠ .service := by decide

/-- R482: one step of 5 mV in 6 ticks, up and down. -/
theorem test_setpoint_moves :
    (let s := { live with pwr := { live.pwr with vcoreWant := 800 } }
     (avsTick s).pwr.vcore = 755 ∧ (avsTick s).out = [.coreSetpoint 755]
      ∧ (avsTick (avsTick s)).pwr.vcore = 755)
    ∧ (avsTick { live with pwr := { live.pwr with vcoreWant := 700 } }).pwr.vcore = 745 := by decide

/-- Starts held by RESET_N, the failures of the boot, the end of a start, resets asked for, cold records, a shutdown. -/
theorem test_meets_start_clauses :
    { off with boot := { off.boot with resetLow := true } }.boot.resetLow = true ∧ off.boot.held = false
      ∧ (let f : FlashRead := { mib := some 64, dirOk := true, slotA := false, slotB := true, keeperOk := true }
         f.mib = some 64 ∧ ((f.slotA && (booting 4).boot.fwA) || (f.slotB && (booting 4).boot.fwB)) = true)
      ∧ ((false && (booting 4).boot.fwA) || (false && (booting 4).boot.fwB)) = false
      ∧ (let s := { live with boot := { live.boot with request := some { cause := 1, due := 100, time := false, cold := false } } }
         s.boot.request = some { cause := 1, due := 100, time := false, cold := false } ∧ s.boot.pwrGood = true
          ∧ s.tmp.halted = false ∧ s.lcs.step = none)
      ∧ { live with boot := { live.boot with coldLoad := true } }.boot.coldRecs.length ≤ live.boot.coldNext
      ∧ hasQueue 1023 = true ∧ (live.gth.ideRequired && !live.gth.ideSecure) = false := by decide

/-! The console and the cards -/

def comp16 : Bytes := ascii "0123456789ABCDEF0123456789ABCDEF"
/-- A wait for the components of an AES-128 channel key. -/
def componentWait (refusals : Nat) : Wait :=
  { wait0 with refusals := refusals, cmd := { cmd0 with desc := { desc0 with opcode := 0x1015 }, input := [0, 0, 1, 1] } }
def entering (refusals : Nat) : State :=
  { live with aut := { autReset with wait := some (componentWait refusals), card0 := cardAt .component } }
/-- The record of custodian `i`, and a ceremony at its last step: the second card confirms its component. -/
def record0 (i : Nat) : Bytes := leBytes 1 i ++ [0xFF, 0, 0, 0, 0, 0, 0]
def ceremony0 : Ceremony :=
  { recs := [record0 1, record0 2], alg := 0x0101, stage := 3, slot := 1, keys := [[1], [2]], comps := [List.replicate 16 3], refusals := 0 }
def inCeremony (comp : Bytes) : State :=
  { live with
    ldg := { live.ldg with keeperUp := true },
    aut := { autReset with ceremony := some ceremony0, card0 := cardAt .confirm, card1 := { cardAt .confirm with comp := comp } } }
/-- Two cards, no custodian. -/
def unowned : State :=
  { live with ldg := { live.ldg with keeperUp := true }, aut := { autReset with card0 := cardAt .none, card1 := cardAt .none } }
/-- A start waits for the tag of custodian 3's card. -/
def startCmd0 : Cmd := { cmd0 with fn := 1027, auth := List.replicate 64 0 }
def starting (st : CardStep) : State :=
  { live with aut := { autReset with
      startCmd := some (startCmd0, 0), card0 := cardAt st,
      custodians := [(3, { custodian0 with sigEc := List.replicate 97 1 })] } }

set_option maxRecDepth 20000 in
/-- Frames that are none of their row; confirmations and refusals; components; a start short, whole and too long; the last
resending; the ends of a wait; both classes of card; the ceremony. -/
theorem test_meets_console_clauses :
    conParse (conFrame 0x82 7 [0, 1]) = some (0x82, 7, [0, 1]) ∧ keeperRests (waiting .confirm) = true
      ∧ ([0x31, 0x32, 0x33, 0x34] : Bytes).all isDigit = true ∧ ([0x31, 0x32, 0x33, 0x3A] : Bytes).all isDigit = false
      ∧ (getCard (waiting .confirm) 0).step = .confirm ∧ (getCard (waiting .confirm) 0).ident = some (3, List.replicate 97 1)
      ∧ (getCard (waiting .confirm) 1).present = false
      ∧ (entering 1).aut.wait = some (componentWait 1) ∧ (getCard (entering 1) 0).step = .component
      ∧ (hexBytes comp16).map (fun b => b.length) = some (componentLen (leAt (componentWait 1).cmd.input 2 2))
      ∧ (componentWait 1).refusals < 2 ∧ 2 ≤ (componentWait 2).refusals ∧ (entering 2).aut.mailbox = [] ∧ (entering 2).aut.starts = []
      ∧ (inCeremony []).aut.ceremony = some ceremony0 ∧ ceremony0.stage = 3 ∧ ceremony0.slot = 1
      ∧ combine 0x0101 [List.replicate 16 3, List.replicate 16 1] = some (List.replicate 16 2)
      ∧ combine 0x0101 [List.replicate 16 3, List.replicate 16 3] = none ∧ leAt (record0 1) 0 1 ≠ leAt (record0 2) 0 1
      ∧ cardReady unowned.aut.card0 = true ∧ cardReady unowned.aut.card1 = true ∧ keeperHeld unowned = false
      ∧ feedHeld unowned 1 = false ∧ unowned.aut.custodians = [] ∧ componentLen 0x0101 ≠ 0
      ∧ cardReady (getCard (starting .startIdent) 0) = true ∧ (starting .startIdent).aut.startReady = none
      ∧ leAt ([3] ++ List.replicate 97 1) 0 1 = startCmd0.fn - 1024 ∧ 1024 ≤ startCmd0.fn
      ∧ (getCard (starting .tag) 0).step = .tag ∧ (starting .tag).aut.wait = none
      ∧ ([{ seq := 1, bytes := [], due := 100, resent := 3 }] : List ConFrame).any (fun x => decide (x.due ≤ 100 ∧ 3 ≤ x.resent)) = true
      ∧ (waiting .pin).aut.card0.present = true := by decide

set_option maxRecDepth 20000 in
/-- R113: a start of 127 bytes waits for more. -/
theorem test_start_frames :
    lands (exec (.start (conFrame 0x85 1 (List.replicate 127 0))) live) (fun t => t.aut.startBuf.length == 127) = true := by decide

/-! Commands judged where they are fetched, and the steps of a transition -/

def settled (s : State) : Bool := mayFetch s 0 && s == settle s

set_option maxRecDepth 20000 in
/-- In the states of these witnesses nothing is due: what is fetched in them is judged in them. -/
theorem test_meets_judged :
    settled live && settled keyLive && settled (lodge applet0) && settled twoKeyState && settled governed && settled quorate
      && settled (withObj 512 obj0 governed) && settled { live with lcs := { lcsReset with state := 0 } } && settled quenchedState
      && settled replayState && settled (holding .rng live) && settled { live with boot := { live.boot with phase := .halted } }
      && mayFetch live 1023 = true := by decide

set_option maxRecDepth 20000 in
theorem test_meets_judged_general :
    settled (Plan0.state ⟨0x3001, 0, 1, 16, 0, 64, 1, 0x0102, 0, false⟩)
      && settled (Plan0.state ⟨0x4003, 0x80, 1, 5, 0, 32, 0, 0, 0, false⟩) = true := by decide

/-- A batch of two. -/
theorem test_meets_batch :
    (let c := { cmdOf 0x3001 1 16 64 [] with desc := { (cmdOf 0x3001 1 16 64 []).desc with flags := 8, auxLen := 2, keyA := 0x01000200 } }
     let s := Plan0.state ⟨0x3001, 0, 1, 16, 0, 64, 1, 0x0102, 0, false⟩
     flBatch c && isReady c s && planGood c s) = true := by decide

/-- A transition to SCRAP (5) or RETURN (4) at its marks; a cleared root that is redrawn; one that waits for the kiln; a tick that
burns nothing. -/
def moving (step tgt : Nat) : State :=
  { live with lcs := { live.lcs with step := some step, target := tgt, burnEnd := 100 }, aut := { autReset with busy := some cmd0 } }
theorem test_meets_TransitionSteps :
    live.pending = [] ∧ transitionTick live = live
      ∧ (moving 1 4).lcs.burnEnd ≤ (moving 1 4).tick ∧ ({ moving 1 4 with tick := 99 }.tick < (moving 1 4).lcs.burnEnd)
      ∧ genReady (moving 2 4) = true ∧ (moving 2 4).aut.busy.isSome = true
      ∧ genReady { moving 2 4 with rng := { live.rng with st := .warming } } = false
      ∧ ({ moving 2 4 with aut := autReset, peat := { peatReset with latch := some latch0 } }.peat.latch).isSome = true
      ∧ toHost live { cmd0 with desc := { desc0 with opcode := 0xA010 } } = true := by decide

/-- R424: step 1 ends with its mark burned; in FIELD the way to SCRAP ends in the state SCRAP. -/
theorem test_transition_ends :
    (transitionTick (moving 1 4)).lcs.step = some 2
      ∧ (transitionTick { moving 5 5 with aut := autReset }).lcs.state = 5
      ∧ (transitionTick { moving 5 5 with aut := autReset }).lcs.step = some 6 := by decide

/-- R110, R325: the digest of a key that the roster holds. -/
theorem test_meets_hello (k : Bytes) :
    rosterIx { park .formed with prk := { (park .formed).prk with roster := [sha3_256 k] } } (sha3_256 k) = some 0 := by
  simp [rosterIx, parkN]

set_option maxRecDepth 8000 in
theorem test_meets_link_frames :
    currentAssoc (park .formed) { fr 0x10 5 1 0x3F 0 with assoc := none } = false
      ∧ currentAssoc (park .formed) (fr 0x10 5 1 0x3F 0) = true ∧ openType 0x01 = true ∧ openType 0x10 = false
      ∧ signedType 0x02 = true ∧ (park .walking).prk.headStrap = false
      ∧ (park .walking).prk.portB.linkUp = true ∧ (park .walking).prk.walkNext ≤ (park .walking).tick
      ∧ (park .formed).prk.helloTick + 1024 ≤ 1024 ∧ (park .formed).prk.beatTick + 64 ≤ (park .formed).tick := by decide

end Sys2Proof.Tests
end

section
/-! SUPPORT. Rules for register accesses: what an answer is, which accesses are words, what each row of chapter 20 does to the
state, one rule per row (20_register_map.md R505 to R507; 03_gatehouse.md R59). -/

namespace Sys2Proof.Machine

open Sys2Proof

/-! Answers -/

/-- A state that kept the queue of waiting commands is answered as it is. -/
theorem answer_of_pending {s t : State} (h : t.pending = s.pending) : answer s t = .next t := by
  unfold answer; rw [← h]

theorem answerLive_of_pending {s t : State} (hl : live s = true) (h : t.pending = s.pending) : answerLive s t = .next t := by
  rw [answerLive, if_pos hl, answer_of_pending h]

theorem Quiet.pending {s t : State} (h : Quiet s t) : t.pending = s.pending := by
  unfold Quiet at h; rw [h]

/-! Ones written to clear (R7) -/

theorem w1c_div_two (v ones : Nat) : w1c v ones / 2 = w1c (v / 2) (ones / 2) := by
  have hle : v &&& ones ≤ v := Nat.and_le_left
  have hbit : (v &&& ones) % 2 = 1 ↔ v % 2 = 1 ∧ ones % 2 = 1 := Nat.and_mod_two_eq_one
  unfold w1c
  rw [← Nat.and_div_two]
  omega

/-- A bit stays set where no one is written to it. -/
theorem testBit_w1c (v ones k : Nat) : (w1c v ones).testBit k = (v.testBit k && !ones.testBit k) := by
  induction k generalizing v ones with
  | zero =>
    have hle : v &&& ones ≤ v := Nat.and_le_left
    have hbit : (v &&& ones) % 2 = 1 ↔ v % 2 = 1 ∧ ones % 2 = 1 := Nat.and_mod_two_eq_one
    simp only [Nat.testBit_zero, w1c]
    grind
  | succ k ih => simp only [Nat.testBit_succ, w1c_div_two, ih]

/-! Accesses (R59) -/

theorem wordAccess_iff (a size : Nat) : wordAccess a size = true ↔ size = 4 ∧ a % 4 = 0 := by
  simp [wordAccess]

theorem wordAccess_four {a : Nat} (h : a % 4 = 0) : wordAccess a 4 = true := (wordAccess_iff a 4).2 ⟨rfl, h⟩

theorem wordAccess_eq_false {a size : Nat} (h : size ≠ 4 ∨ a % 4 ≠ 0) : wordAccess a size = false := by
  rw [Bool.eq_false_iff, ne_eq, wordAccess_iff]
  omega

/-! Reads -/

/-- What a read leaves: the value sent, the queue of waiting commands kept. -/
theorem answer_emit (s : State) (o : Output) : answer s (emit s o) = .next { s with out := s.out ++ [o] } :=
  answer_of_pending rfl

theorem exec_latchRead_notWord {s : State} {m : Master} (fn : Fin 1024) {a size : Nat} (x : HostSpace)
    (hl : readLive s m = true) (h : size ≠ 4 ∨ a % 4 ≠ 0) :
    exec (.latchRead m fn ⟨x, a⟩ size) s = answer s (emit s (.readData a (2 ^ (8 * size) - 1))) := by
  show execLatchRead m fn ⟨x, a⟩ size s = _
  simp [execLatchRead, hl, wordAccess_eq_false h]

/-- A read of a register of BAR0: its value, and what it latches. -/
theorem exec_latchRead_regs {s : State} {m : Master} {a : Nat} (hl : readLive s m = true) (h : a % 4 = 0) :
    exec (.latchRead m 0 ⟨.regs, a⟩ 4) s = answer s (emit (regRead s m a).2 (.readData a (regRead s m a).1)) := by
  show execLatchRead m 0 ⟨.regs, a⟩ 4 s = _
  simp [execLatchRead, hl, wordAccess_four h]

/-- A read in the window of a VF. -/
theorem exec_latchRead_vf {s : State} {fn : Fin 1024} {a : Nat} (hr : hostReach s = true) (h : a % 4 = 0) (hf : fn.val ≠ 0) :
    exec (.latchRead .pf fn ⟨.regs, a⟩ 4) s = answer s (emit s (.readData a (readVf s fn.val a % 2 ^ 32))) := by
  have hl : readLive s .pf = true := hr
  show execLatchRead .pf fn ⟨.regs, a⟩ 4 s = _
  simp [execLatchRead, hl, wordAccess_four h, hf]

theorem exec_latchRead_config {s : State} (fn : Fin 1024) {a : Nat} (hr : hostReach s = true) (h : a % 4 = 0) :
    exec (.latchRead .pf fn ⟨.config, a⟩ 4) s = answer s (emit s (.readData a (pciRead s fn.val a % 2 ^ 32))) := by
  have hl : readLive s .pf = true := hr
  show execLatchRead .pf fn ⟨.config, a⟩ 4 s = _
  simp [execLatchRead, hl, wordAccess_four h]

theorem exec_latchRead_msix {s : State} (fn : Fin 1024) {a : Nat} (hr : hostReach s = true) (h : a % 4 = 0) :
    exec (.latchRead .pf fn ⟨.msix, a⟩ 4) s = answer s (emit s (.readData a (msixRead s fn.val a % 2 ^ 32))) := by
  have hl : readLive s .pf = true := hr
  show execLatchRead .pf fn ⟨.msix, a⟩ 4 s = _
  simp [execLatchRead, hl, wordAccess_four h]

theorem regRead_hi {a p : Nat} (s : State) (m : Master) (h : hiPair a = some p) :
    regRead s m a = (kget (fun _ => 0) s.latch (latchIx p m), s) := by
  unfold regRead; rw [h]

theorem regRead_plain {s : State} {a : Nat} (m : Master) (hh : hiPair a = none) (hlo : loLatch s a = none) :
    regRead s m a = (readBar0 s a % 2 ^ 32, s) := by
  unfold regRead; rw [hh]; dsimp only; rw [hlo]

/-! Writes -/

theorem exec_registerWrite_notWord (s : State) (m : Master) (fn : Fin 1024) {a size : Nat} (v : BitVec 32) (x : HostSpace)
    (h : size ≠ 4 ∨ a % 4 ≠ 0) : exec (.registerWrite m fn ⟨x, a⟩ size v) s = answer s s := by
  show execRegisterWrite m fn ⟨x, a⟩ size v s = _
  cases m <;> simp [execRegisterWrite, wordAccess_eq_false h]

theorem exec_registerWrite_pf {s : State} {a : Nat} (v : BitVec 32) (hr : hostReach s = true) (h : a % 4 = 0) :
    exec (.registerWrite .pf 0 ⟨.regs, a⟩ 4 v) s = answer s (pfWrite s a v.toNat) := by
  show execRegisterWrite .pf 0 ⟨.regs, a⟩ 4 v s = _
  simp [execRegisterWrite, wordAccess_four h, regWrite, hr]

theorem exec_registerWrite_keeper {s : State} {a : Nat} (v : BitVec 32) (hl : live s = true) (h : a % 4 = 0) :
    exec (.registerWrite .keeper 0 ⟨.regs, a⟩ 4 v) s = answer s (keeperWrite s a v.toNat) := by
  show execRegisterWrite .keeper 0 ⟨.regs, a⟩ 4 v s = _
  simp [execRegisterWrite, wordAccess_four h, regWrite, hl]

theorem exec_registerWrite_msix {s : State} (fn : Fin 1024) {a : Nat} (v : BitVec 32) (hr : hostReach s = true)
    (h : a % 4 = 0) : exec (.registerWrite .pf fn ⟨.msix, a⟩ 4 v) s = answer s (msixWrite s fn.val a v.toNat) := by
  show execRegisterWrite .pf fn ⟨.msix, a⟩ 4 v s = _
  simp [execRegisterWrite, wordAccess_four h, hr]

end Sys2Proof.Machine
end

section
/-! SUPPORT. The power registers, ASSIGN_LOCK, FORCE_SCRUB and the rules of the protection units as they are written
(01_organisation.md R29, R30; 05_key_store.md R183; 14_lodge_protection.md R383, R388, R390, R392, R395). -/

namespace Sys2Proof.Machine

open Sys2Proof

/-- R29: a value from 40 to 110 is taken from the next window. -/
theorem pwrCapWrite_inRange {s : State} {v : BitVec 32} (hl : live s = true) (h : 40 ≤ v.toNat % 128 ∧ v.toNat % 128 ≤ 110) :
    becomes (.pwrCapWrite v) s { s with pwr := { s.pwr with capNext := v.toNat % 128 } } := by
  show execPwrCapWrite v s = _
  simp only [execPwrCapWrite, if_pos h]
  exact answerLive_of_pending hl rfl

/-- R30: any other value sets CAP_ERR. -/
theorem pwrCapWrite_outOfRange {s : State} {v : BitVec 32} (hl : live s = true)
    (h : ¬ (40 ≤ v.toNat % 128 ∧ v.toNat % 128 ≤ 110)) :
    becomes (.pwrCapWrite v) s { s with pwr := { s.pwr with capErr := true } } := by
  show execPwrCapWrite v s = _
  simp only [execPwrCapWrite, if_neg h]
  exact answerLive_of_pending hl rfl

/-- R395: no request waits, so the write changes HOLD alone. -/
theorem pwrHoldWrite_noneWaiting {s : State} (v : BitVec 20) (h : s.pwr.pendingGate = []) (hl : live s = true) :
    becomes (.pwrHoldWrite v) s { s with pwr := { s.pwr with hold := v.toNat } } := by
  show execPwrHoldWrite v s = _
  simp only [execPwrHoldWrite, h, List.filter_nil, List.map_nil, List.foldl_nil]
  exact answerLive_of_pending hl rfl

/-- R395: the one request that waits proceeds when its HOLD bit is cleared. -/
theorem pwrHoldWrite_frees {s : State} {v : BitVec 20} {d due : Nat} (h : s.pwr.pendingGate = [(d, due)])
    (hd : v.toNat.testBit d = false) (hl : live s = true) :
    becomes (.pwrHoldWrite v) s
      { s with pwr := { s.pwr with hold := v.toNat, pendingGate := [], gated := s.pwr.gated ||| 2 ^ d } } := by
  show execPwrHoldWrite v s = _
  simp only [execPwrHoldWrite, h, List.filter_cons, hd, Bool.not_false, if_true, List.filter_nil, List.map_cons, List.map_nil,
    List.foldl_cons, List.foldl_nil, kdel]
  exact answerLive_of_pending hl rfl

theorem assignLock_becomes {s : State} (hl : live s = true) :
    becomes .assignLock s { s with ldg := { s.ldg with assignLock := true } } := answerLive_of_pending hl rfl

/-! FORCE_SCRUB (R183) -/

theorem forceScrub_idle {s : State} {e : Fin 272} (h : (getEng s e.val).st = .idle) :
    becomes (.forceScrub false e) s (setEng s e.val { getEng s e.val with st := .scrubbing, forceScrub := true }) := by
  show execForceScrub false e s = _
  simp only [execForceScrub, forceEngine, h, if_true, Bool.false_eq_true, if_false]
  exact answer_of_pending rfl

theorem forceScrub_busy {s : State} {e : Fin 272} (h : (getEng s e.val).st ≠ .idle) : becomes (.forceScrub false e) s s := by
  show execForceScrub false e s = _
  simp only [execForceScrub, forceEngine, if_neg h, Bool.false_eq_true, if_false]
  exact answer_of_pending rfl

theorem forceScrub_pool {s : State} {e : Fin 272} (he : e.val < 32) (h : (getBne s e.val).st = .idle) :
    becomes (.forceScrub true e) s (setBne s e.val { getBne s e.val with st := .scrubbing, forceScrub := true }) := by
  show execForceScrub true e s = _
  simp only [execForceScrub, forceBne, h, he, if_true]
  exact answer_of_pending rfl

/-! Regions of the protection units -/

theorem mpuRegionWrite_staged {s : State} {m : Fin 24} {r : Fin 16} {b : Bytes} (hl : live s = true) (hf : regionForm b = true)
    (hk : regionLocked (getRegion s m.val r.val) = false) (hc : s.mpu.committing = false) :
    becomes (.mpuRegionWrite m r b) s { s with mpu := { s.mpu with
      staged := kset (fun _ => regionReset) s.mpu.staged (mpuIx m.val r.val) (regionParse b) } } := by
  show execMpuRegionWrite m r b s = _
  simp only [execMpuRegionWrite, hf, hk, stageRegion, hc, Bool.not_true, Bool.false_eq_true, if_false]
  exact answerLive_of_pending hl rfl

theorem mpuRegionWrite_held {s : State} {m : Fin 24} {r : Fin 16} {b : Bytes} (hl : live s = true) (hf : regionForm b = true)
    (hk : regionLocked (getRegion s m.val r.val) = false) (hc : s.mpu.committing = true) :
    becomes (.mpuRegionWrite m r b) s
      { s with mpu := { s.mpu with heldWrites := s.mpu.heldWrites ++ [(mpuIx m.val r.val, regionParse b)] } } := by
  show execMpuRegionWrite m r b s = _
  simp only [execMpuRegionWrite, hf, hk, stageRegion, hc, Bool.not_true, Bool.false_eq_true, if_false, if_true]
  exact answerLive_of_pending hl rfl

/-- An event recorded from a state `u` that kept the queue. -/
theorem answerLive_record {s u : State} (hl : live s = true) (hu : u.pending = s.pending) (ty src sev : Nat) (tn : Option Nat)
    (pay : Bytes) : ∃ t, answerLive s (record u ty src sev tn pay) = .next t ∧ recorded ty t ∧ Quiet u t :=
  have hq := record_quiet u ty src sev tn pay
  ⟨_, answerLive_of_pending hl (hq.pending.trans hu), record_recorded u ty src sev tn pay, hq⟩

/-- R390: a locked region ignores the write. -/
theorem mpuRegionWrite_locked {s : State} {m : Fin 24} {r : Fin 16} {b : Bytes} (hl : live s = true) (hf : regionForm b = true)
    (hk : regionLocked (getRegion s m.val r.val) = true) :
    answers (.mpuRegionWrite m r b) s (fun t => recorded 0x0A04 t
      ∧ Quiet { s with mpu := { s.mpu with lockedWrite := true } } t) := by
  show ∃ t, execMpuRegionWrite m r b s = .next t ∧ _
  simp only [execMpuRegionWrite, hf, hk, Bool.not_true, Bool.false_eq_true, if_false, if_true]
  exact answerLive_record hl (by rfl) _ _ _ _ _

/-- R388: a malformed region is ignored. -/
theorem mpuRegionWrite_malformed {s : State} (m : Fin 24) (r : Fin 16) {b : Bytes} (hl : live s = true)
    (hf : regionForm b = false) : answers (.mpuRegionWrite m r b) s (fun t => recorded 0x0A04 t ∧ Quiet s t) := by
  show ∃ t, execMpuRegionWrite m r b s = .next t ∧ _
  simp only [execMpuRegionWrite, hf, Bool.not_false, if_true]
  exact answerLive_record hl rfl _ _ _ _ _

end Sys2Proof.Machine
end

section
/-! SUPPORT. Interrupt pairs, the error bits of a VF, the latches and the writes by the two worlds (R7, R53, R59, R505 to
R507). -/

namespace Sys2Proof.Machine

open Sys2Proof

/-! Status registers written with ones -/

theorem isIntStatus_of_intPairs {a : Nat} {get : State → Nat} (h : (a, get) ∈ intPairs) : isIntStatus a = true := by
  have ha : a ∈ intPairs.map (·.1) := List.mem_map_of_mem h
  have hall : ∀ b ∈ intPairs.map (·.1), isIntStatus b = true := by decide
  exact hall a ha

/-- A write of GTH_INT_STATUS: with bit 0 the first-error registers of the queues go to zero (R68). -/
theorem clearStatus_gth (s : State) (v : Nat) : clearStatus s 0x2218 v = { s with gth := { s.gth with
    intStatus := w1c s.gth.intStatus v, qerrFn := if v.testBit 0 then 0 else s.gth.qerrFn,
    qerrQueue := if v.testBit 0 then 0 else s.gth.qerrQueue, qerrCause := if v.testBit 0 then 0 else s.gth.qerrCause } } := by
  unfold clearStatus
  cases v.testBit 0 <;> rfl

/-- The register written loses the ones written, and every other register keeps its value. -/
theorem clearStatus_intPairs {p q : Nat × (State → Nat)} (hp : p ∈ intPairs) (hq : q ∈ intPairs) (s : State) (v : Nat) :
    q.2 (clearStatus s p.1 v) = if q.1 = p.1 then w1c (q.2 s) v else q.2 s := by
  have all : intPairs.map (fun q => q.2 (clearStatus s p.1 v))
      = intPairs.map (fun q => if q.1 = p.1 then w1c (q.2 s) v else q.2 s) := by
    simp only [intPairs, List.mem_cons, List.not_mem_nil, or_false] at hp
    rcases hp with rfl | rfl | rfl | rfl | rfl | rfl | rfl | rfl | rfl | rfl | rfl
    case inr.inr.inl => rw [clearStatus_gth]; rfl
    all_goals rfl
  exact List.map_inj_left.1 all q hq

theorem clearStatus_pending {p : Nat × (State → Nat)} (hp : p ∈ intPairs) (s : State) (v : Nat) :
    (clearStatus s p.1 v).pending = s.pending := by
  simp only [intPairs, List.mem_cons, List.not_mem_nil, or_false] at hp
  rcases hp with rfl | rfl | rfl | rfl | rfl | rfl | rfl | rfl | rfl | rfl | rfl
  case inr.inr.inl => rw [clearStatus_gth]
  all_goals rfl

/-- R7, R506: ones written to an interrupt status register of BAR0. -/
theorem intStatusW1c_clears {s : State} {ones : BitVec 32} {a : Nat} {get : State → Nat} (ha : (a, get) ∈ intPairs)
    (hr : hostReach s = true) :
    answers (.intStatusW1c 0 a ones) s (fun t =>
      (∀ k, (get t).testBit k = ((get s).testBit k && !ones.toNat.testBit k))
      ∧ (∀ b other, (b, other) ∈ intPairs → b ≠ a → other t = other s)
      ∧ (a = 0x2218 → ones.toNat.testBit 0 = true → t.gth.qerrFn = 0 ∧ t.gth.qerrQueue = 0 ∧ t.gth.qerrCause = 0)) := by
  have hx : exec (.intStatusW1c 0 a ones) s = .next (clearStatus s a ones.toNat) := by
    show execIntStatusW1c 0 a ones s = _
    simp only [execIntStatusW1c, hr, isIntStatus_of_intPairs ha, Bool.not_true, Bool.false_eq_true, if_false, Fin.val_zero,
      if_true]
    exact answer_of_pending (clearStatus_pending ha s _)
  refine ⟨_, hx, fun k => ?_, fun b other hb hne => ?_, fun h2218 h0 => ?_⟩
  · have h : get (clearStatus s a ones.toNat) = w1c (get s) ones.toNat :=
      (clearStatus_intPairs ha ha s ones.toNat).trans (if_pos rfl)
    rw [h, testBit_w1c]
  · exact (clearStatus_intPairs ha hb s ones.toNat).trans (if_neg hne)
  · subst h2218
    rw [clearStatus_gth]
    simp [h0]

/-- R69: ones written to VF_QERR, which has four bits. -/
theorem intStatusW1c_vf {s : State} {fn : Fin 1024} (ones : BitVec 32) (hf : fn.val ≠ 0) (hr : hostReach s = true) :
    answers (.intStatusW1c fn 0x88 ones) s (fun t => ∀ k,
      (kget (fun _ => (0, 0, 0)) t.gth.vfErr fn.val).1.testBit k
        = ((kget (fun _ => (0, 0, 0)) s.gth.vfErr fn.val).1.testBit k && !(decide (k < 4) && ones.toNat.testBit k))) := by
  have hx : exec (.intStatusW1c fn 0x88 ones) s = .next (vfWrite s fn.val 0x88 ones.toNat) := by
    show execIntStatusW1c fn 0x88 ones s = _
    simp only [execIntStatusW1c, hr, hf, Bool.not_true, Bool.false_eq_true, if_false, if_true]
    exact answer_of_pending rfl
  refine ⟨_, hx, fun k => ?_⟩
  have hm : ones.toNat % 16 = ones.toNat % 2 ^ 4 := rfl
  simp [vfWrite, testBit_w1c, hm, Nat.testBit_mod_two_pow]

/-! The latches (R507) -/

/-- Latches of different masters are different. -/
theorem latchIx_ne {m other : Master} (h : other ≠ m) (p q : Nat) : latchIx p other ≠ latchIx q m := by
  unfold latchIx
  cases m <;> cases other <;> simp_all [masterIx] <;> omega

theorem latchIx_inj (m : Master) {p q : Nat} (h : p ≠ q) : latchIx p m ≠ latchIx q m := by
  unfold latchIx; omega

theorem readBar0_timeLo (s : State) : readBar0 s 0x1008 = s.sdl.grid % 2 ^ 32 := rfl

/-- The latches once master `m` has read SDL_TIME_LO: the upper half of the time, and the subtick (R53). -/
def timeLatched (s : State) (m : Master) : KMap Nat :=
  kset (fun _ => 0) (kset (fun _ => 0) s.latch (latchIx 0 m) (hi32 s.sdl.grid)) (latchIx 12 m)
    (Sys2Proof.Config.subtick s.freeCtr % 65536)

theorem regRead_timeLo (s : State) (m : Master) : regRead s m 0x1008
    = (s.sdl.grid % 2 ^ 32, { s with latch := timeLatched s m, freeCtr := s.freeCtr + 1 }) := by
  have hh : hiPair 0x1008 = none := rfl
  have hlo : loLatch s 0x1008 = some (0, hi32 s.sdl.grid) := rfl
  unfold regRead
  rw [hh]
  dsimp only
  rw [hlo, readBar0_timeLo, Nat.mod_mod]
  rfl

/-- SDL_TIME_HI then reads the upper half of the time of that instant. -/
theorem kget_timeLatched_hi (s : State) (m : Master) : kget (fun _ => 0) (timeLatched s m) (latchIx 0 m) = hi32 s.sdl.grid := by
  unfold timeLatched
  rw [kget_kset_ne _ _ _ (latchIx_inj m (by decide)), kget_kset_self]

/-- The latches of other masters stay. -/
theorem kget_timeLatched_other (s : State) {m other : Master} (h : other ≠ m) (pair : Nat) :
    kget (fun _ => 0) (timeLatched s m) (latchIx pair other) = kget (fun _ => 0) s.latch (latchIx pair other) := by
  unfold timeLatched
  rw [kget_kset_ne _ _ _ (latchIx_ne h _ _), kget_kset_ne _ _ _ (latchIx_ne h _ _)]

theorem answer_latched (s : State) (l : KMap Nat) (c : Nat) (o : Output) :
    answer s (emit { s with latch := l, freeCtr := c } o)
      = .next { s with latch := l, freeCtr := c, out := s.out ++ [o] } := rfl

theorem exec_sdlTimeRead {s : State} {m : Master} (hl : readLive s m = true) : exec (.sdlTimeRead m) s
    = .next { s with
        latch := timeLatched s m, freeCtr := s.freeCtr + 1, out := s.out ++ [.readData 0x1008 (s.sdl.grid % 2 ^ 32)] } := by
  show answer s (if !readLive s m then s
    else emit (regRead s m 0x1008).2 (.readData 0x1008 (regRead s m 0x1008).1)) = _
  rw [hl, if_neg (by decide), regRead_timeLo, answer_latched]

theorem latchRead_timeHi {s u : State} {m : Master} (hu : u.latch = timeLatched s m) (hl : readLive u m = true) :
    becomes (.latchRead m 0 ⟨.regs, 0x100C⟩ 4) u { u with out := u.out ++ [.readData 0x100C (hi32 s.sdl.grid)] } := by
  have hread : regRead u m 0x100C = (hi32 s.sdl.grid, u) := by
    rw [regRead_hi (p := 0) u m rfl, hu, kget_timeLatched_hi]
  unfold becomes
  rw [exec_latchRead_regs hl (by decide), hread]
  exact answer_emit u _

theorem sdlTimeRead_latches {s : State} {m : Master} (hl : readLive s m = true) :
    answers (.sdlTimeRead m) s (fun t =>
      t.out = s.out ++ [.readData 0x1008 (s.sdl.grid % 2 ^ 32)]
      ∧ (∀ u : State, u.latch = t.latch → readLive u m = true →
          becomes (.latchRead m 0 ⟨.regs, 0x100C⟩ 4) u
            { u with out := u.out ++ [.readData 0x100C (s.sdl.grid / 2 ^ 32 % 2 ^ 32)] })
      ∧ (∀ other pair, other ≠ m → kget (fun _ => 0) t.latch (latchIx pair other)
          = kget (fun _ => 0) s.latch (latchIx pair other))
      ∧ t = { s with latch := t.latch, freeCtr := t.freeCtr, out := t.out }) :=
  ⟨_, exec_sdlTimeRead hl, rfl, fun _ => latchRead_timeHi, fun _ pair hne => kget_timeLatched_other s hne pair, rfl⟩

theorem latchRead_plain {s : State} {m : Master} {a : Nat} (hl : readLive s m = true) (h : a % 4 = 0) (hh : hiPair a = none)
    (hlo : loLatch s a = none) :
    becomes (.latchRead m 0 ⟨.regs, a⟩ 4) s { s with out := s.out ++ [.readData a (readBar0 s a % 2 ^ 32)] } := by
  unfold becomes
  rw [exec_latchRead_regs hl h, regRead_plain m hh hlo]
  exact answer_emit s _

/-- R54: the identity of a function. -/
theorem pciRead_identity (s : State) (fn : Nat) :
    pciRead s fn 0 % 2 ^ 32 = 0x1F5A + 2 ^ 16 * (if fn = 0 then 0x0256 else 0x0257) := by
  show (pciVendor + 2 ^ 16 * pciDevice fn) % 2 ^ 32 = _
  unfold pciVendor pciDevice
  split <;> rfl

/-! The MSI-X table (R58) -/

theorem answer_setMsix (s : State) (fn i : Nat) (e : MsixEntry) : answer s (setMsix s fn i e) = .next (setMsix s fn i e) :=
  answer_of_pending rfl

section
variable {fn i : Nat} (hi : i < msixSize fn)
include hi

theorem msixWrite_addrLo (s : State) (v : Nat) : msixWrite s fn (16 * i) v
    = setMsix s fn i { getMsix s fn i with addr := (getMsix s fn i).addr / 2 ^ 32 * 2 ^ 32 + v } := by
  have hd : 16 * i / 16 = i := by omega
  have hm : 16 * i % 16 = 0 := by omega
  simp only [msixWrite, hd, hm, if_neg (Nat.not_le.2 hi)]

theorem msixWrite_data (s : State) (v : Nat) :
    msixWrite s fn (16 * i + 8) v = setMsix s fn i { getMsix s fn i with data := v } := by
  have hd : (16 * i + 8) / 16 = i := by omega
  have hm : (16 * i + 8) % 16 = 8 := by omega
  simp only [msixWrite, hd, hm, if_neg (Nat.not_le.2 hi)]

theorem msixRead_data (s : State) : msixRead s fn (16 * i + 8) = (getMsix s fn i).data := by
  have hd : (16 * i + 8) / 16 = i := by omega
  have hm : (16 * i + 8) % 16 = 8 := by omega
  have hsize : msixSize fn ≤ 64 := by unfold msixSize; split <;> decide
  have hpba : ¬ (0x1000 ≤ 16 * i + 8 ∧ 16 * i + 8 < 0x1008) := by omega
  simp only [msixRead, hd, hm, if_neg hpba, if_neg (Nat.not_le.2 hi)]

end

section
variable {s : State} {fn : Fin 1024} {i : Nat} (hr : hostReach s = true) (hi : i < msixSize fn.val)
include hr hi

theorem registerWrite_msixAddr (v : BitVec 32) : becomes (.registerWrite .pf fn ⟨.msix, 16 * i⟩ 4 v) s
    (setMsix s fn.val i { getMsix s fn.val i with addr := (getMsix s fn.val i).addr / 2 ^ 32 * 2 ^ 32 + v.toNat }) := by
  unfold becomes
  rw [exec_registerWrite_msix fn v hr (by omega), msixWrite_addrLo hi]
  exact answer_setMsix s _ _ _

theorem registerWrite_msixData (v : BitVec 32) : becomes (.registerWrite .pf fn ⟨.msix, 16 * i + 8⟩ 4 v) s
    (setMsix s fn.val i { getMsix s fn.val i with data := v.toNat }) := by
  unfold becomes
  rw [exec_registerWrite_msix fn v hr (by omega), msixWrite_data hi]
  exact answer_setMsix s _ _ _

theorem latchRead_msixData : becomes (.latchRead .pf fn ⟨.msix, 16 * i + 8⟩ 4) s
    { s with out := s.out ++ [.readData (16 * i + 8) ((getMsix s fn.val i).data % 2 ^ 32)] } := by
  unfold becomes
  rw [exec_latchRead_msix fn hr (by omega), msixRead_data hi]
  exact answer_emit s _

end

/-! Writes by the physical function and by the keeper world (R505) -/

theorem registerWrite_pf {s t : State} {a : Nat} {v : BitVec 32} (hr : hostReach s = true) (h : a % 4 = 0)
    (hw : pfWrite s a v.toNat = t) (hp : t.pending = s.pending) : becomes (.registerWrite .pf 0 ⟨.regs, a⟩ 4 v) s t :=
  (exec_registerWrite_pf v hr h).trans (by rw [hw]; exact answer_of_pending hp)

theorem registerWrite_keeper {s t : State} {a : Nat} {v : BitVec 32} (hl : live s = true) (h : a % 4 = 0)
    (hw : keeperWrite s a v.toNat = t) (hp : t.pending = s.pending) :
    becomes (.registerWrite .keeper 0 ⟨.regs, a⟩ 4 v) s t :=
  (exec_registerWrite_keeper v hl h).trans (by rw [hw]; exact answer_of_pending hp)

/-- A write of the enable register of the key store. -/
theorem pfWrite_kstEnable (s : State) (v : Nat) : pfWrite s 0x500C v
    = enabled { s with kst := { s.kst with intEnable := intMask 5 v } } s.kst.intStatus s.kst.intEnable (intMask 5 v) 50 := rfl

/-- Registers that the keeper world alone writes, or that nobody writes, keep their values when the PF writes them. -/
theorem pfWrite_notOwn {a : Nat} (h : a ∈ [0x1004, 0x5004, 0xA004, 0xAF04, 0xAF08, 0xAF14]) (s : State) (v : Nat) :
    pfWrite s a v = s := by
  simp only [List.mem_cons, List.not_mem_nil, or_false] at h
  rcases h with rfl | rfl | rfl | rfl | rfl | rfl <;> rfl

/-- R184: the interrupt status of a pavilion. -/
theorem keeperWrite_pavStatus (s : State) (v : Nat) {p : Nat} (hp : p < 16) : keeperWrite s (0x20820 + 0x1000 * p) v
    = setPav s p { getPav s p with intStatus := w1c (getPav s p).intStatus v } := by
  have hin : 0x20000 ≤ 0x20820 + 0x1000 * p ∧ 0x20820 + 0x1000 * p < 0x30000 ∧ (0x20820 + 0x1000 * p) % 0x1000 = 0x820 := by
    omega
  have hix : (0x20820 + 0x1000 * p - 0x20000) / 0x1000 = p := by omega
  have hclear : clearStatus s (0x20820 + 0x1000 * p) v
      = setPav s p { getPav s p with intStatus := w1c (getPav s p).intStatus v } := by
    unfold clearStatus
    split
    case h_12 => simp only [if_pos hin, hix]
    all_goals omega
  unfold keeperWrite
  split
  case h_8 => rw [if_pos hin, hclear]
  all_goals omega

theorem registerWrite_byPf {s : State} (v : BitVec 32) (hr : hostReach s = true) :
    becomes (.registerWrite .pf 0 ⟨.regs, 0x105C⟩ 4 v) s { s with sdl := { s.sdl with schedSel := v.toNat % 256 } }
    ∧ becomes (.registerWrite .pf 0 ⟨.regs, 0x5010⟩ 4 v) s { s with kst := { s.kst with lowMark := v.toNat % 2 ^ 18 } }
    ∧ (s.kst.intStatus &&& intMask 5 v.toNat = s.kst.intStatus &&& intMask 5 v.toNat &&& s.kst.intEnable →
      becomes (.registerWrite .pf 0 ⟨.regs, 0x500C⟩ 4 v) s { s with kst := { s.kst with intEnable := intMask 5 v.toNat } })
    ∧ (s.kst.intStatus &&& intMask 5 v.toNat ≠ s.kst.intStatus &&& intMask 5 v.toNat &&& s.kst.intEnable →
      becomes (.registerWrite .pf 0 ⟨.regs, 0x500C⟩ 4 v) s
        (sendMsix { s with kst := { s.kst with intEnable := intMask 5 v.toNat } } 0 50))
    ∧ (∀ a ∈ [0x1004, 0x5004, 0xA004, 0xAF04, 0xAF08, 0xAF14], becomes (.registerWrite .pf 0 ⟨.regs, a⟩ 4 v) s s) := by
  refine ⟨registerWrite_pf hr (by decide) rfl rfl, registerWrite_pf hr (by decide) rfl rfl, fun hold => ?_, fun hnew => ?_,
    fun a ha => ?_⟩
  · exact registerWrite_pf hr (by decide) ((pfWrite_kstEnable _ _).trans (if_pos hold)) rfl
  · exact registerWrite_pf hr (by decide) ((pfWrite_kstEnable _ _).trans (if_neg hnew)) (sendMsix_quiet _ _ _).pending
  · have h4 : ∀ b ∈ [0x1004, 0x5004, 0xA004, 0xAF04, 0xAF08, 0xAF14], b % 4 = 0 := by decide
    exact registerWrite_pf hr (h4 a ha) (pfWrite_notOwn ha s _) rfl

theorem registerWrite_byKeeper {s : State} (v : BitVec 32) (hl : live s = true) :
    becomes (.registerWrite .keeper 0 ⟨.regs, 0x1004⟩ 4 v) s
      { s with sdl := { s.sdl with todTxEn := v.toNat.testBit 0, refEn := v.toNat.testBit 1, ppsPol := v.toNat.testBit 2 } }
    ∧ becomes (.registerWrite .keeper 0 ⟨.regs, 0xAF14⟩ 4 v) s { s with pwr := { s.pwr with holdTimeout := v.toNat % 65536 } }
    ∧ becomes (.registerWrite .keeper 0 ⟨.regs, 0x5010⟩ 4 v) s s
    ∧ ∀ p, p < 16 → becomes (.registerWrite .keeper 0 ⟨.regs, (0x20820 + 0x1000 * p)⟩ 4 v) s
        (setPav s p { getPav s p with intStatus := w1c (getPav s p).intStatus v.toNat }) :=
  ⟨registerWrite_keeper hl (by decide) rfl rfl, registerWrite_keeper hl (by decide) rfl rfl,
    registerWrite_keeper hl (by decide) rfl rfl,
    fun p hp => registerWrite_keeper hl (by omega) (keeperWrite_pavStatus s v.toNat hp) rfl⟩

end Sys2Proof.Machine
end

section
/-! SUPPORT. Messages: what one of a vector does, and what the end of a tick sends for a queue (03_gatehouse.md R58, R64,
R69). -/

namespace Sys2Proof.Machine

open Sys2Proof

theorem sendMsix_open {s : State} {fn v : Nat} (h : msixOpen s fn v = true) :
    sendMsix s fn v = emit (countMsix s) (.msix fn v) := if_pos h

theorem sendMsix_masked {s : State} {fn v : Nat} (h : msixOpen s fn v = false) (he : (msixCtl s fn).testBit 1 = true) :
    sendMsix s fn v = setPending s fn v true := by
  simp [sendMsix, h, he]

theorem sendMsix_disabled {s : State} {fn : Nat} (v : Nat) (he : (msixCtl s fn).testBit 1 = false) : sendMsix s fn v = s := by
  simp [sendMsix, msixOpen, he]

/-- R58: a message is sent, or waits in its pending bit, or is lost. -/
theorem sendMsix_cases (s : State) (fn v : Nat) :
    (msixOpen s fn v = true → (sendMsix s fn v).out = s.out ++ [.msix fn v]
      ∧ sendMsix s fn v = { s with pmc := (sendMsix s fn v).pmc, out := (sendMsix s fn v).out })
    ∧ (msixOpen s fn v = false → (msixCtl s fn).testBit 1 = true → sendMsix s fn v = setPending s fn v true)
    ∧ ((msixCtl s fn).testBit 1 = false → sendMsix s fn v = s) :=
  ⟨fun h => by rw [sendMsix_open h]; exact ⟨rfl, rfl⟩, sendMsix_masked, sendMsix_disabled v⟩

/-! The wrap of a counter is the one event between a tail record and its message -/

/-- Of messages, `l` holds none but that of the wrap of a counter, vector 57 (R456). -/
def OnlyWrap (l : List Output) : Prop := ∀ o ∈ l, ∀ fn v, o = .msix fn v → (fn, v) = (0, 57)

theorem OnlyWrap.nil : OnlyWrap [] := by simp [OnlyWrap]

theorem OnlyWrap.cons {o : Output} {l : List Output} (ho : ∀ fn v, o = .msix fn v → (fn, v) = (0, 57)) (hl : OnlyWrap l) :
    OnlyWrap (o :: l) := by
  intro x hx
  rcases List.mem_cons.1 hx with rfl | hx
  · exact ho
  · exact hl x hx

theorem OnlyWrap.count_msix {l : List Output} (h : OnlyWrap l) {fn v : Nat} (hv : (fn, v) ≠ (0, 57)) :
    l.count (.msix fn v) = 0 :=
  List.count_eq_zero_of_not_mem (fun hm => hv (h _ hm fn v rfl))

theorem sendMsix_wrap (s : State) : ∃ l, (sendMsix s 0 57).out = s.out ++ l ∧ OnlyWrap l := by
  unfold sendMsix
  split
  · exact ⟨[.msix 0 57], rfl, .cons (by rintro _ _ ⟨⟩; rfl) .nil⟩
  · exact ⟨[], by split <;> simp [setPending], .nil⟩

/-- A counter that moves sends at most the message of its wrap. -/
theorem pmcAdd_wrap (s : State) (i n : Nat) : ∃ l, (pmcAdd s i n).out = s.out ++ l ∧ OnlyWrap l := by
  have same : ∃ l, s.out = s.out ++ l ∧ OnlyWrap l := ⟨[], by simp, .nil⟩
  unfold pmcAdd
  dsimp only
  split
  · exact same
  · split
    · exact same
    · unfold pmcInt vectorFor
      dsimp only
      split
      · exact same
      · exact sendMsix_wrap _

/-! The tail record of a queue (R64) -/

theorem tailWrite_out (s : State) (k : Nat) : ∃ l, OnlyWrap l ∧
    (tailWrite s k).out = s.out ++ .tailRecord (k / 16) (k % 16) (getQp s k).cqTail (getQp s k).sqHead :: l := by
  obtain ⟨l, hl, hw⟩ := pmcAdd_wrap (emit (setQp s k { getQp s k with tailDue := false, headMoved := false, tailTick := s.tick })
    (.tailRecord (k / 16) (k % 16) (getQp s k).cqTail (getQp s k).sqHead)) (384 + 163) 1
  refine ⟨l, hw, hl.trans ?_⟩
  simp [emit, setQp]

theorem tailWrite_quiet (s : State) (k : Nat) :
    Quiet (setQp s k { getQp s k with tailDue := false, headMoved := false, tailTick := s.tick }) (tailWrite s k) :=
  ((emit_quiet _ _).trans (pmcDev_quiet _ _ _)).trans (meterAdd_quiet _ _ _)

/-- A quiet step leaves queue pairs and masks alone. -/
theorem Quiet.getQp {s t : State} (h : Quiet s t) (k : Nat) : getQp t k = getQp s k := by
  unfold Quiet at h; rw [h]; rfl

theorem Quiet.msixOpen {s t : State} (h : Quiet s t) (fn v : Nat) : msixOpen t fn v = msixOpen s fn v := by
  unfold Quiet at h; rw [h]; rfl

/-- The state once the tail record of queue `k` is written, where one is due. -/
def tailed (s : State) (k : Nat) : State := if (getQp s k).tailDue then tailWrite s k else s

/-- Then the message of the queue leaves, unless one has left in this tick (R69). -/
theorem queueTail_eq (s : State) (k : Nat) : queueTail s k =
    if (getQp s k).msiDue && (getQp s k).msiTick != some s.tick then
      sendMsix (setQp (tailed s k) k { getQp (tailed s k) k with msiDue := false, msiTick := some s.tick }) (k / 16)
        (getQp s k).vector
    else tailed s k := rfl

theorem tailed_out (s : State) (k : Nat) : ∃ l, (tailed s k).out = s.out ++ l ∧ OnlyWrap l
    ∧ ((getQp s k).tailDue = true → .tailRecord (k / 16) (k % 16) (getQp s k).cqTail (getQp s k).sqHead ∈ l) := by
  unfold tailed
  split
  · obtain ⟨l, hw, hl⟩ := tailWrite_out s k
    exact ⟨_, hl, .cons (by rintro _ _ ⟨⟩) hw, fun _ => List.mem_cons_self⟩
  · rename_i h
    exact ⟨[], by simp, .nil, fun hd => absurd hd h⟩

theorem tailed_tailDue (s : State) (k : Nat) : (getQp (tailed s k) k).tailDue = false := by
  unfold tailed
  split
  · rw [(tailWrite_quiet s k).getQp, getQp_setQp_self]
  · rename_i h; simpa using h

theorem tailed_msixOpen (s : State) (k fn v : Nat) : msixOpen (tailed s k) fn v = msixOpen s fn v := by
  unfold tailed
  split
  · exact (tailWrite_quiet s k).msixOpen fn v
  · rfl

theorem queueTail_tailDue (s : State) (k : Nat) : (getQp (queueTail s k) k).tailDue = false := by
  rw [queueTail_eq]
  split
  · rw [(sendMsix_quiet _ _ _).getQp, getQp_setQp_self]; exact tailed_tailDue s k
  · exact tailed_tailDue s k

theorem queueTail_sends {s : State} {k : Nat} (hd : (getQp s k).msiDue = true) (ht : (getQp s k).msiTick ≠ some s.tick)
    (ho : msixOpen s (k / 16) (getQp s k).vector = true) :
    (queueTail s k).out = (tailed s k).out ++ [.msix (k / 16) (getQp s k).vector] := by
  have hgo : ((getQp s k).msiDue && (getQp s k).msiTick != some s.tick) = true := by simp [hd, ht]
  rw [queueTail_eq, if_pos hgo, sendMsix_open]
  · rfl
  · exact (tailed_msixOpen s k _ _).trans ho

theorem queueTail_sentBefore {s : State} {k : Nat} (ht : (getQp s k).msiTick = some s.tick) : queueTail s k = tailed s k := by
  rw [queueTail_eq, if_neg (by simp [ht])]

theorem queueTail_tailRecord {s : State} {k : Nat} (h : (getQp s k).tailDue = true) :
    .tailRecord (k / 16) (k % 16) (getQp s k).cqTail (getQp s k).sqHead ∈ (queueTail s k).out := by
  obtain ⟨l, hl, -, hmem⟩ := tailed_out s k
  have hin : .tailRecord (k / 16) (k % 16) (getQp s k).cqTail (getQp s k).sqHead ∈ (tailed s k).out :=
    hl ▸ List.mem_append_right _ (hmem h)
  rw [queueTail_eq]
  split
  · obtain ⟨l', hl'⟩ := sendMsix_grows (setQp (tailed s k) k { getQp (tailed s k) k with
      msiDue := false, msiTick := some s.tick }) (k / 16) (getQp s k).vector
    rw [hl']
    exact List.mem_append_left _ hin
  · exact hin

/-! The end of a tick of a part with one queue pair -/

section
variable {s : State} {k : Nat} (hb : ideBlocked s = false) (hq : s.gth.qp = [(k, getQp s k)])
include hb hq

theorem flushTick_due (hd : ((getQp s k).tailDue || (getQp s k).msiDue) = true) : flushTick s = queueTail s k := by
  unfold flushTick
  rw [if_neg (by simp [hb]), hq]
  simp [hd]

theorem flushTick_notDue (hd : ((getQp s k).tailDue || (getQp s k).msiDue) = false) : flushTick s = s := by
  unfold flushTick
  rw [if_neg (by simp [hb]), hq]
  simp [hd]

theorem flushTick_tailDue : (getQp (flushTick s) k).tailDue = false := by
  cases hd : (getQp s k).tailDue || (getQp s k).msiDue with
  | true => rw [flushTick_due hb hq hd]; exact queueTail_tailDue s k
  | false => rw [flushTick_notDue hb hq hd]; exact (Bool.or_eq_false_iff.1 hd).1

theorem flushTick_oncePerTick (hd : (getQp s k).msiDue = true) (ht : (getQp s k).msiTick = some s.tick) {fn v : Nat}
    (hv : (fn, v) ≠ (0, 57)) : (flushTick s).out.count (.msix fn v) = s.out.count (.msix fn v) := by
  obtain ⟨l, hl, hw, -⟩ := tailed_out s k
  rw [flushTick_due hb hq (by simp [hd]), queueTail_sentBefore ht, hl, List.count_append, hw.count_msix hv, Nat.add_zero]

theorem flushTick_message (hd : (getQp s k).msiDue = true) (ht : (getQp s k).msiTick ≠ some s.tick)
    (ho : msixOpen s (k / 16) (getQp s k).vector = true) :
    ∃ l, (flushTick s).out = s.out ++ l ++ [.msix (k / 16) (getQp s k).vector] ∧ OnlyWrap l := by
  obtain ⟨l, hl, hw, -⟩ := tailed_out s k
  exact ⟨l, by rw [flushTick_due hb hq (by simp [hd]), queueTail_sends hd ht ho, hl], hw⟩

end

/-- R64, R69: the tail record goes before the message of its queue, which leaves once in the tick. -/
theorem flushTick_oneQueue {s : State} {k : Nat} (hb : ideBlocked s = false) (hq : s.gth.qp = [(k, getQp s k)]) :
    let q := getQp s k
    (q.tailDue = true → .tailRecord (k / 16) (k % 16) q.cqTail q.sqHead ∈ (flushTick s).out)
    ∧ (q.tailDue = false → q.msiDue = false → flushTick s = s)
    ∧ (getQp (flushTick s) k).tailDue = false
    ∧ (q.msiDue = true → q.msiTick = some s.tick → ∀ fn v, (fn, v) ≠ (0, 57) →
        (flushTick s).out.count (.msix fn v) = s.out.count (.msix fn v))
    ∧ (q.msiDue = true → q.msiTick ≠ some s.tick → msixOpen s (k / 16) q.vector = true →
        ∃ l, (flushTick s).out = s.out ++ l ++ [.msix (k / 16) q.vector]
          ∧ ∀ o ∈ l, ∀ fn v, o = .msix fn v → (fn, v) = (0, 57)) :=
  ⟨fun hd => flushTick_due hb hq (by simp [hd]) ▸ queueTail_tailRecord hd,
    fun ht hm => flushTick_notDue hb hq (by simp [ht, hm]), flushTick_tailDue hb hq,
    fun hd ht _ _ hv => flushTick_oncePerTick hb hq hd ht hv, flushTick_message hb hq⟩

end Sys2Proof.Machine
end

section
/-! The statement about register accesses, assembled from the rules above. -/

namespace Sys2Proof.Machine

open Sys2Proof

/-- Settles O27: one rule per row of a register access, and the end of a tick from the tail record to the message. -/
theorem registerAccess : Obligations.RegisterAccess := by
  unfold Obligations.RegisterAccess
  refine ⟨fun s v hl => ⟨pwrCapWrite_inRange hl, pwrCapWrite_outOfRange hl⟩,
    fun s v => pwrHoldWrite_noneWaiting v,
    fun s v d due => pwrHoldWrite_frees,
    fun s => assignLock_becomes,
    fun s e => ⟨forceScrub_idle, forceScrub_busy, forceScrub_pool⟩,
    fun s ones a get => intStatusW1c_clears,
    fun s fn ones => intStatusW1c_vf ones,
    fun s m => sdlTimeRead_latches,
    fun s m fn a size x hl hw => (exec_latchRead_notWord fn x hl hw).trans (answer_emit s _),
    fun s m a => latchRead_plain,
    fun s fn a hr ha hf => (exec_latchRead_vf hr ha hf).trans (answer_emit s _),
    fun s fn hr => ?_,
    fun s fn i v hr hi => ⟨registerWrite_msixAddr hr hi v, registerWrite_msixData hr hi v, latchRead_msixData hr hi⟩,
    fun s m fn a size v x hw => (exec_registerWrite_notWord s m fn v x hw).trans (answer_of_pending rfl),
    fun s v => registerWrite_byPf v,
    fun s v => registerWrite_byKeeper v,
    fun s m r b hl => ⟨mpuRegionWrite_staged hl, mpuRegionWrite_held hl, mpuRegionWrite_locked hl,
      mpuRegionWrite_malformed m r hl⟩,
    sendMsix_cases,
    fun s k => flushTick_oneQueue⟩
  rw [← pciRead_identity s fn.val]
  exact (exec_latchRead_config fn hr (by decide)).trans (answer_emit s _)

end Sys2Proof.Machine
end

section
/-! SUPPORT. The key store: what it becomes where an object is freed, where a word is corrected, where an object is found damaged,
and what a visit of the scrubber does (05_key_store.md R118, R121, R145, R147, R148, R150). -/

namespace Sys2Proof.Machine

open Sys2Proof

theorem Quiet.kst {s t : State} (h : Quiet s t) : t.kst = s.kst := by
  unfold Quiet at h; rw [h]

theorem Quiet.boot {s t : State} (h : Quiet s t) : t.boot = s.boot := by
  unfold Quiet at h; rw [h]

theorem Quiet.tick {s t : State} (h : Quiet s t) : t.tick = s.tick := by
  unfold Quiet at h; rw [h]

/-- Where a step is quiet but for the key store, whatever the key store has become may be written in full. -/
theorem Quiet.kst_self {s t : State} {k : Kst} (h : Quiet { s with kst := k } t) : Quiet { s with kst := t.kst } t := by
  rw [h.kst]; exact h

/-- A status bit of the key store is set; a message leaves, or waits. -/
theorem kstInt_quiet (s : State) (b : Nat) :
    Quiet { s with kst := { s.kst with intStatus := s.kst.intStatus ||| 2 ^ b } } (kstInt s b) := vectorFor_quiet _ _ _ _

/-! Freeing (R118, R121) -/

/-- The key store once the object `o` at base unit `b` is freed. -/
def freedKst (k : Kst) (b : Nat) (o : Obj) : Kst :=
  { k with objs := kdel k.objs b, gens := kset (fun _ => 1) k.gens b (nextGen o.gen), deleted := satInc 32 k.deleted }

theorem freeObj_kst {s : State} {b : Nat} {o : Obj} (h : kfind s.kst.objs b = some o) :
    (freeObj s b).kst = freedKst s.kst b o := by
  unfold freeObj
  rw [h]
  dsimp only
  rw [(pmcDev_quiet _ _ _).kst]
  split <;> rfl

theorem kfind_freedKst (k : Kst) (b : Nat) (o : Obj) (u : Nat) :
    kfind (freedKst k b o).objs u = if u = b then none else kfind k.objs u := kfind_kdel _ _ _

theorem gens_freedKst (k : Kst) (b : Nat) (o : Obj) (u : Nat) :
    kget (fun _ => 1) (freedKst k b o).gens u = if u = b then nextGen o.gen else kget (fun _ => 1) k.gens u :=
  kget_kset _ _ _ _ _

/-- R121: no job waits any longer for a deleted object. -/
theorem exec_objectDrained {s : State} {b : Fin 196608} {o : Obj} (h : kfind s.kst.objs b.val = some o)
    (hd : o.st = .draining) (hw : o.waiting = 0) : exec (.objectDrained b) s = answer s (freeObj s b.val) := by
  show execObjectDrained b s = _
  simp [execObjectDrained, h, hd, hw]

theorem objectDrained_frees {s : State} {b : Fin 196608} {o : Obj} (h : kfind s.kst.objs b.val = some o)
    (hd : o.st = .draining) (hw : o.waiting = 0) :
    answers (.objectDrained b) s (fun t => kfind t.kst.objs b.val = none
      ∧ (∀ u, u ≠ b.val → kfind t.kst.objs u = kfind s.kst.objs u)
      ∧ kget (fun _ => 1) t.kst.gens b.val = nextGen o.gen
      ∧ (∀ u, u ≠ b.val → kget (fun _ => 1) t.kst.gens u = kget (fun _ => 1) s.kst.gens u)
      ∧ t.kst.deleted = satInc 32 s.kst.deleted) := by
  refine ⟨_, exec_objectDrained h hd hw, ?_⟩
  dsimp only
  rw [freeObj_kst h]
  refine ⟨?_, fun u hu => ?_, ?_, fun u hu => ?_, rfl⟩
  · rw [kfind_freedKst, if_pos rfl]
  · rw [kfind_freedKst, if_neg hu]
  · rw [gens_freedKst, if_pos rfl]
  · rw [gens_freedKst, if_neg hu]

/-! Findings (R145, R147) -/

/-- The key store once the inner code has corrected a word, and once the outer code has. -/
def innerKst (k : Kst) : Kst := { k with innerCorr := satInc 32 k.innerCorr }
def outerKst (k : Kst) : Kst := { k with outerCorr := satInc 32 k.outerCorr, intStatus := k.intStatus ||| 1 }

theorem correctedObj_outer (s : State) (h : Nat) : Quiet { s with kst := outerKst s.kst } (correctedObj s h true)
    ∧ recorded 0x0402 (correctedObj s h true) :=
  ⟨(kstInt_quiet _ 0).trans (record_quiet _ _ _ _ _ _), record_recorded _ _ _ _ _ _⟩

/-- A fault is counted, of an uncorrectable group or of a tag that does not fit, and its interrupt set (R150). -/
def faultKst (uncorr : Bool) (k : Kst) : Kst :=
  if uncorr then { k with uncorr := satInc 32 k.uncorr, intStatus := k.intStatus ||| 2 }
  else { k with tagFail := satInc 32 k.tagFail, intStatus := k.intStatus ||| 2 }

/-- With it the ACTIVE object `o` at base unit `b` becomes DAMAGED. -/
def damagedKst (uncorr : Bool) (b : Nat) (o : Obj) (k : Kst) : Kst :=
  { faultKst uncorr k with objs := kins k.objs b { o with st := .damaged }, damagedLast := o.attr.handle }

theorem kfind_damagedKst (uncorr : Bool) (b : Nat) (o : Obj) (k : Kst) :
    kfind (damagedKst uncorr b o k).objs b = some { o with st := .damaged } := (kfind_kins _ _ _ _).trans (if_pos rfl)

theorem damageObj_active {s : State} {b : Nat} {o : Obj} (hb : 256 ≤ b) (h : kfind s.kst.objs b = some o)
    (ha : o.st = .active) (uncorr : Bool) : Quiet { s with kst := damagedKst uncorr b o s.kst } (damageObj s b uncorr)
      ∧ recorded 0x0401 (damageObj s b uncorr) := by
  have hlt : ¬ b < 256 := by omega
  unfold damageObj
  rw [h]
  dsimp only
  rw [if_neg hlt, if_pos ha]
  refine ⟨.trans ?_ (record_quiet _ _ _ _ _ _), record_recorded _ _ _ _ _ _⟩
  cases uncorr <;> exact kstInt_quiet _ 1

/-- With it the key store has a fault: the object is one of the system area (R147). -/
def systemKst (uncorr : Bool) (k : Kst) : Kst := { faultKst uncorr k with systemFault := true }

/-- A fault of the system area is recorded, and asks for a full reset. -/
theorem damageObj_system (s : State) {b : Nat} (hb : b < 256) (uncorr : Bool) :
    ∃ u, Quiet { s with kst := systemKst uncorr s.kst } u ∧ recorded 0x0404 u
      ∧ damageObj s b uncorr = requestReset u 8 0 false false := by
  unfold damageObj
  rw [if_pos hb]
  refine ⟨_, .trans ?_ (record_quiet _ _ _ _ _ _), record_recorded _ _ _ _ _ _, rfl⟩
  cases uncorr <;> exact kstInt_quiet _ 1

/-- With no reset asked for and no start under way, what is asked for is due after the delay (R450). -/
theorem requestReset_first {s : State} (hr : s.boot.request = none) (hs : s.boot.start = none) (cause delay : Nat)
    (time cold : Bool) : requestReset s cause delay time cold
      = { s with boot := { s.boot with
          request := some { cause := cause, due := s.tick + delay, time := time, cold := cold } } } := by
  simp [requestReset, hr, hs]

/-! Visits (R148) -/

/-- The key store once the scrubber has moved on from the unit it visits. -/
def movedOn (k : Kst) : Kst :=
  { k with
    scrubPos := if k.scrubPos = 196607 then 0 else k.scrubPos + 1, scrubDone := k.scrubDone + 1,
    scrubPass := if k.scrubPos = 196607 then satInc 32 k.scrubPass else k.scrubPass }

/-- The state once the visit is counted. -/
def visited (s : State) : State := pmcDev { s with kst := movedOn s.kst } 186 1

theorem visited_quiet (s : State) : Quiet { s with kst := movedOn s.kst } (visited s) := pmcDev_quiet _ _ _

@[simp] theorem visited_kst (s : State) : (visited s).kst = movedOn s.kst := (visited_quiet s).kst

/-- The base unit of what covers the unit to be visited; in the system area it is the unit itself. -/
def visitedBase (s : State) : Option Nat :=
  if s.kst.scrubPos < 256 then some s.kst.scrubPos else coverOf s s.kst.scrubPos

/-- What a visit of a unit, covered by the object at base unit `b`, leaves by what it finds there. -/
def afterVisit (s : State) (b : Option Nat) : StoreFinding → State
  | .clean => visited s
  | .innerCorrected => correctedObj (visited s) (handleAt (visited s) b) false
  | .outerCorrected => correctedObj (visited s) (handleAt (visited s) b) true
  | .uncorrectable => match b with
    | some x => damageObj (visited s) x true
    | none => { visited s with kst := { (visited s).kst with uncorr := satInc 32 (visited s).kst.uncorr } }
  | .tagMismatch => match b with
    | some x => damageObj (visited s) x false
    | none => visited s

/-- The scrubber is on, the key store is READY, a visit is due and no delivery defers it. -/
def visitRuns (s : State) : Bool := s.kst.scrubEn && s.kst.ready && scrubDue s && !scrubDefers s

theorem exec_scrubUnit {s : State} (h : visitRuns s = true) (found : StoreFinding) :
    exec (.scrubUnit found) s = answer s (afterVisit s (visitedBase s) found) := by
  have hgo : ¬ (!(s.kst.scrubEn && s.kst.ready && scrubDue s) || scrubDefers s) = true := by
    simpa [visitRuns] using h
  show execScrubUnit found s = _
  unfold execScrubUnit
  rw [if_neg hgo]
  cases found <;> rfl

/-- What the key store becomes at a visit, it becomes from where the scrubber has moved on to. -/
theorem scrubUnit_changes {s : State} (h : visitRuns s = true) {found : StoreFinding} {F : Kst → Kst} {R : State → Prop}
    {b : Option Nat} (hb : visitedBase s = b)
    (hq : Quiet { visited s with kst := F (visited s).kst } (afterVisit s b found)) (hR : R (afterVisit s b found)) :
    answers (.scrubUnit found) s (fun t => t.kst = F (movedOn s.kst) ∧ Quiet { s with kst := t.kst } t ∧ R t) := by
  have hv : Quiet { s with kst := F (visited s).kst } { visited s with kst := F (visited s).kst } := by
    have := visited_quiet s
    unfold Quiet at this ⊢
    rw [this]
  have hs := hv.trans hq
  have hx := (exec_scrubUnit h found).trans (answer_of_pending (hb ▸ hs.pending))
  rw [hb] at hx
  exact ⟨_, hx, by rw [hs.kst, visited_kst], hs.kst_self, hR⟩

/-- The scrubber has gone on from `k0` to the next unit, after the last to the first of the next pass (R148). -/
def HasMoved (k0 k : Kst) : Prop :=
  k.scrubPos = (if k0.scrubPos = 196607 then 0 else k0.scrubPos + 1) ∧ k.scrubDone = k0.scrubDone + 1
    ∧ k.scrubPass = (if k0.scrubPos = 196607 then satInc 32 k0.scrubPass else k0.scrubPass)

section
variable {s : State} (h : visitRuns s = true)
include h

theorem scrubUnit_clean : answers (.scrubUnit .clean) s (fun t =>
    HasMoved s.kst t.kst ∧ t.kst.objs = s.kst.objs ∧ Quiet { s with kst := t.kst } t) := by
  obtain ⟨t, hx, hk, hq, -⟩ := scrubUnit_changes h (found := .clean) (F := id) (R := fun _ => True) rfl (Quiet.refl _) trivial
  refine ⟨t, hx, ?_, ?_, hq⟩ <;> rw [hk]
  · exact ⟨rfl, rfl, rfl⟩
  · rfl

theorem scrubUnit_innerCorrected : answers (.scrubUnit .innerCorrected) s (fun t =>
    HasMoved s.kst t.kst ∧ t.kst.innerCorr = satInc 32 s.kst.innerCorr ∧ t.kst.objs = s.kst.objs
      ∧ Quiet { s with kst := t.kst } t) := by
  obtain ⟨t, hx, hk, hq, -⟩ := scrubUnit_changes h (found := .innerCorrected) (F := innerKst) (R := fun _ => True) rfl
    (Quiet.refl _) trivial
  refine ⟨t, hx, ?_, ?_, ?_, hq⟩ <;> rw [hk]
  · exact ⟨rfl, rfl, rfl⟩
  · rfl
  · rfl

theorem scrubUnit_outerCorrected : answers (.scrubUnit .outerCorrected) s (fun t =>
    HasMoved s.kst t.kst ∧ t.kst.outerCorr = satInc 32 s.kst.outerCorr ∧ t.kst.intStatus = s.kst.intStatus ||| 1
      ∧ recorded 0x0402 t ∧ t.kst.objs = s.kst.objs ∧ Quiet { s with kst := t.kst } t) := by
  obtain ⟨hquiet, hrec⟩ := correctedObj_outer (visited s) (handleAt (visited s) (visitedBase s))
  obtain ⟨t, hx, hk, hq, ht⟩ := scrubUnit_changes h (found := .outerCorrected) rfl hquiet hrec
  refine ⟨t, hx, ?_, ?_, ?_, ht, ?_, hq⟩ <;> rw [hk]
  · exact ⟨rfl, rfl, rfl⟩
  · rfl
  · rfl
  · rfl

section
variable {b : Nat} {o : Obj} (hu : 256 ≤ s.kst.scrubPos) (hb : 256 ≤ b) (hc : coverOf s s.kst.scrubPos = some b)
  (ho : kfind s.kst.objs b = some o) (ha : o.st = .active)
include hu hb hc ho ha

/-- The ACTIVE object that covers the unit is found damaged: by a group that the outer code cannot correct, or by its tag. -/
theorem scrubUnit_damaged {found : StoreFinding} {uncorr : Bool}
    (hf : afterVisit s (some b) found = damageObj (visited s) b uncorr) :
    answers (.scrubUnit found) s (fun t => t.kst = damagedKst uncorr b o (movedOn s.kst) ∧ Quiet { s with kst := t.kst } t
      ∧ recorded 0x0401 t) := by
  have hcover : visitedBase s = some b := by rw [visitedBase, if_neg (by omega), hc]
  have hov : kfind (visited s).kst.objs b = some o := by rw [visited_kst]; exact ho
  obtain ⟨hquiet, hrec⟩ := damageObj_active hb hov ha uncorr
  rw [← hf] at hquiet hrec
  exact scrubUnit_changes h hcover hquiet hrec

theorem scrubUnit_uncorrectable :
    answers (.scrubUnit .uncorrectable) s (fun t => HasMoved s.kst t.kst ∧ kfind t.kst.objs b = some { o with st := .damaged }
      ∧ t.kst.uncorr = satInc 32 s.kst.uncorr ∧ recorded 0x0401 t ∧ Quiet { s with kst := t.kst } t) := by
  obtain ⟨t, hx, hk, hq, hrec⟩ := scrubUnit_damaged h hu hb hc ho ha (found := .uncorrectable) (uncorr := true) rfl
  refine ⟨t, hx, ?_, ?_, ?_, hrec, hq⟩ <;> rw [hk]
  · exact ⟨rfl, rfl, rfl⟩
  · exact kfind_damagedKst _ _ _ _
  · rfl

theorem scrubUnit_tagMismatch :
    answers (.scrubUnit .tagMismatch) s (fun t => HasMoved s.kst t.kst ∧ kfind t.kst.objs b = some { o with st := .damaged }
      ∧ t.kst.tagFail = satInc 32 s.kst.tagFail ∧ recorded 0x0401 t ∧ Quiet { s with kst := t.kst } t) := by
  obtain ⟨t, hx, hk, hq, hrec⟩ := scrubUnit_damaged h hu hb hc ho ha (found := .tagMismatch) (uncorr := false) rfl
  refine ⟨t, hx, ?_, ?_, ?_, hrec, hq⟩ <;> rw [hk]
  · exact ⟨rfl, rfl, rfl⟩
  · exact kfind_damagedKst _ _ _ _
  · rfl

end

/-- R147: a unit of the system area whose tag does not fit. -/
theorem scrubUnit_systemFault (hu : s.kst.scrubPos < 256) (hr : s.boot.request = none) (hs : s.boot.start = none) :
    answers (.scrubUnit .tagMismatch) s (fun t => HasMoved s.kst t.kst ∧ t.kst.systemFault = true ∧ recorded 0x0404 t
      ∧ t.boot.request = some { cause := 8, due := s.tick, time := false, cold := false }) := by
  obtain ⟨u, hq, hrec, hd⟩ := damageObj_system (visited s) hu false
  rw [visited_kst] at hq
  have hboot : u.boot = s.boot := hq.boot.trans (visited_quiet s).boot
  have htick : u.tick = s.tick := hq.tick.trans (visited_quiet s).tick
  rw [requestReset_first (hboot ▸ hr) (hboot ▸ hs), htick] at hd
  refine ⟨_, exec_scrubUnit h .tagMismatch, ?_⟩
  rw [visitedBase, if_pos hu]
  dsimp only [afterVisit]
  rw [hd]
  refine ⟨?_, ?_, hrec, rfl⟩ <;> dsimp only <;> rw [hq.kst]
  · exact ⟨rfl, rfl, rfl⟩
  · rfl

end

/-- Settles O33: an object without waiting jobs is freed, and each finding of a visit changes the key store alone, but in the
system area, where it asks for a full reset. -/
theorem keyStoreEvents : Obligations.KeyStoreEvents := by
  unfold Obligations.KeyStoreEvents
  refine ⟨fun s b o => objectDrained_frees, fun s hen hready hdue hdefers => ?_⟩
  have h : visitRuns s = true := by simp [visitRuns, hen, hready, hdue, hdefers]
  exact ⟨scrubUnit_clean h, scrubUnit_innerCorrected h, scrubUnit_outerCorrected h,
    fun b o hu hb hc ho ha => ⟨scrubUnit_uncorrectable h hu hb hc ho ha, scrubUnit_tagMismatch h hu hb hc ho ha⟩,
    fun hu hr hs => scrubUnit_systemFault h hu hr hs⟩

end Sys2Proof.Machine
end

section
/-! SUPPORT. A frame that arrives is counted, and the wrap of its counter is told by vector 57, which waits in the PBA where it is
masked (R58, R456, R458; log 124): a message of the park that is without effect can still change the gatehouse. -/

namespace Sys2Proof.Machine

open Sys2Proof

/-- Unit 0 of three in FORMED, without a spread batch of its own. PARK_RX_FRAMES stands at its highest value, the interrupt of a wrap
is enabled, MSI-X is enabled and every vector masked. -/
def wrappingUnit : State :=
  { State.reset with
    boot := { bootReset with pwrGood := true },
    gth := { gthReset with pci := { pciReset with msixCtl := [(0, 2)] } },
    prk := { prkReset with st := .formed, addressed := true, address := 0, roster := [[1], [2], [3]], epoch := 1 },
    pmc := { pmcReset with count := [(384 + 193, 2 ^ 48 - 1)], intEnable := 1 } }

/-- Unit 1 sends it SPREAD_RESULT in one whole frame, under the association in use. -/
def resultFrame : FrameIn :=
  { portB := false, bytes := frameBytes 0x31 fcLastFrag 0 1 0 0 0 1 [], assoc := some (1, 0), signed := false }

set_option maxRecDepth 8000 in
theorem resultFrame_heard : heard resultFrame 0x31 wrappingUnit = true := by decide

/-- The result of item 0 of batch 0. -/
def strayResult : Instr := .spreadResult resultFrame 0 (some 0) 0 0 0 []

/-- The vector of the counters' wraps is pending in the state that a command answers. -/
def leavesWrapPending (i : Instr) (s : State) : Bool := match exec i s with
  | .next t => msixPending t 0 57
  | _ => false

set_option maxRecDepth 8000 in
theorem strayResult_leavesWrapPending :
    msixPending wrappingUnit 0 57 = false ∧ leavesWrapPending strayResult wrappingUnit = true := by decide

/-- Refutes O38: of a result for an item that is with no unit, the statement says that the whole gatehouse stays as it was
(`t.gth = s.gth`). Where the frame that brings it wraps its counter, the masked vector of the wrap becomes pending in the PBA,
which is the gatehouse's (`wrappingUnit`, `strayResult`). -/
theorem not_parkTransactions : ¬ Obligations.ParkTransactions := by
  unfold Obligations.ParkTransactions
  rintro ⟨-, -, -, -, -, -, -, -, -, -, -, -, -, -, hresult, -⟩
  obtain ⟨hstray, -⟩ := hresult wrappingUnit resultFrame 0 0 0 0 0 [] resultFrame_heard
  obtain ⟨t, hx, -, hgth, -⟩ := hstray rfl
  obtain ⟨hbefore, hafter⟩ := strayResult_leavesWrapPending
  have hpending : msixPending t 0 57 = true := by simpa [leavesWrapPending, strayResult, hx] using hafter
  have hsame : msixPending t 0 57 = msixPending wrappingUnit 0 57 := by unfold msixPending; rw [hgth]
  exact absurd (hpending.symm.trans (hsame.trans hbefore)) (by decide)

end Sys2Proof.Machine
end
